-- ==== Sys2Proof/Word.lean ====
section
/-!
DEFINITION. Sys2Proof/Word.lean: the word types of the AZ8-1600 and the operand structures that its commands carry.
Registers are 64 bits wide and little-endian (spec file 00, "Registers"); packets, records and instruction words
are the structures below.  Nothing here has behaviour: every operation stands under Sys2Proof/Machine.
-/

namespace Sys2Proof

/-- One byte. -/
abbrev Byte := BitVec 8
/-- One 64-bit register or word (00, "Registers"). -/
abbrev Word := BitVec 64
/-- A string of bytes, lowest address first. -/
abbrev Bytes := List Byte
/-- A 256-bit digest, key or identifier: byte 0 in bits [7:0]. -/
abbrev Digest := BitVec 256

/-- A time-stamp: corrected device time in units of 2⁻³² ns (R313: integer ns and a 32-bit fraction). -/
abbrev Stamp := Nat

/-- What a time-stamp unit takes at the MAC reference point (R313): whole ns of corrected time at the preceding tick, and the
sub-tick phase in 1/128 tick.  A command that brings a message carries its codeword's. -/
structure MacStamp where
  ns : Word := 0
  phase : BitVec 7 := 0
  deriving DecidableEq, Repr

/-- The stamp they make under an increment: the fraction of ns is phase × TIME_INCREMENT / 128, truncated (R313). -/
def MacStamp.read (t : MacStamp) (inc : Word) : Stamp := t.ns.toNat * 4294967296 + t.phase.toNat * inc.toNat / 128

/-- The path a request takes into Azard (R343): the two management paths, or Osfel through port `p`
(0–8 = TP0–TP8, 9–24 = FP0–FP15, numbered as in the LNK_ block). -/
inductive Path
  | i3c
  | sgmii
  | port (p : Fin 25)
  deriving DecidableEq, Repr

/-- The attempt extension of an Osfel-T request (R174). -/
structure Ext where
  step : Word
  attempt : BitVec 16
  context : Fin 16
  hasAttempt : Bool
  hasClaim : Bool
  tag : Word
  claim : Word
  deriving DecidableEq, Repr

/-- What the base header of a request says of its sender (R291): path, CTXV, CONTEXT, the node of ADDRESS,
SOURCE, EPOCH, REQ_ID, and the attempt extension when EXT = 1. -/
structure Req where
  path : Path
  ctxv : Bool
  ctx : Fin 16
  node : BitVec 16
  source : BitVec 16
  epoch : BitVec 32
  reqId : BitVec 32
  ext : Option Ext
  /-- the virtual channel, on which the response travels too -/
  vc : BitVec 5 := 0
  deriving DecidableEq, Repr

/-- OP codes of the base header (R404). -/
inductive OpCode
  | wr | rd | wrc | fadd | cas | swap | msg | resp
  deriving DecidableEq, Repr

/-- What a request to a Yobel says of itself: the tray port, CTXV and CONTEXT, EPOCH and the attempt extension (R172–R174); and,
where the request has another operation or another target space than the command's row names, which (R173). -/
structure YReq where
  port : Fin 9
  ctxv : Bool
  ctx : Fin 16
  epoch : BitVec 32
  ext : Option Ext
  other : Option OpCode := none
  space : Option (BitVec 4) := none
  deriving DecidableEq, Repr

/-- RESULT codes of a RESP (R406). -/
inductive Result
  | ok | nackRetry | nackClaim | nackAccess | nackAddress | nackBusy
  deriving DecidableEq, Repr

/-- A register of the Yobel control space (R177): at an offset in the block of the command's context, or in the whole space. -/
inductive YAt
  | block (o : Nat)
  | space (o : Nat)
  deriving DecidableEq, Repr

/-- The answer a command gets: RESULT, the CAUSE of a NACK_BUSY (R407, else 0), the EPOCH the RESP carries
(R370) and the payload of an OK answer (R404). -/
structure Answer where
  result : Result
  cause : BitVec 8
  epoch : BitVec 32
  data : Bytes
  deriving DecidableEq, Repr

/-- The fields of an instruction word of format R (R158): OP stands in the command's name; `res4` is [51:48],
`axis` bit [27], `res27` is [26:0]. -/
structure RFields where
  ty : BitVec 4
  res4 : BitVec 4
  d : BitVec 5
  a : BitVec 5
  b : BitVec 5
  c : BitVec 5
  axis : Bool
  res27 : BitVec 27
  deriving DecidableEq, Repr

/-- The fields of an instruction word of format I (R158): `res32` is bit [32], `imm` is [31:0], signed. -/
structure IFields where
  ty : BitVec 4
  res4 : BitVec 4
  d : BitVec 5
  a : BitVec 5
  b : BitVec 5
  res32 : Bool
  imm : BitVec 32
  deriving DecidableEq, Repr

/-- STEP, ATTEMPT and record tag, carried by every message of an attempt (R37). -/
structure AttHdr where
  step : Word
  attempt : BitVec 16
  tag : Word
  deriving DecidableEq, Repr

/-- One segment's part of a REPORT or of a WINDOW_OVERFLOW VOID (R97, R101); `maxexp` as in R72, 0x8000 = none. -/
structure SegReport where
  seg : BitVec 12
  maxexp : BitVec 16
  ovf : Bool
  nonfinite : Bool
  deriving DecidableEq, Repr

/-- What a RELEASE with a snapshot carries (R199): the checkpoint sequence, BASE and the checkpoint key (R208). -/
structure CkptTag where
  seq : BitVec 32
  base : Bool
  key : Digest
  deriving DecidableEq, Repr

/-- A switched rail group (R425), and the pilot rail. -/
inductive Rail
  | hbm | sram | core | serdes
  deriving DecidableEq, Repr

/-- A resource the scheduler wakes or gates (R281). -/
inductive Resource
  | hearth (h : Fin 68)
  | pll (q : Fin 4)
  | region (q : Fin 4)
  deriving DecidableEq, Repr

/-- A chunk slot on which a hearth performs a ledger addition at a reset (R17): context, segment, chunk. -/
structure ChunkRef where
  ctx : Fin 16
  seg : BitVec 12
  chunk : Nat
  deriving DecidableEq, Repr

/-- What the hardware finds in a kindling stage (R12, R329, R355, R356, R364): the inputs of KINDLING_STAGE_DONE. -/
structure StageReport where
  /-- stage 1: the kindling ROM check passed -/
  romOk : Bool
  /-- stage 1: devices that lack 8D-8D-8D with data strobe (KIN-003): NOR A, NOR B, NAND -/
  slow : List Nat
  /-- stage 2: SEC_SELFTEST.FAILED, one bit per failed test (R329) -/
  selftest : BitVec 6
  /-- stage 3: the MPD started its firmware -/
  mpdOk : Bool
  /-- stage 3: which of the two UCIe modules trained (R12) -/
  ucie0 : Bool
  ucie1 : Bool
  /-- stage 4: bit s = 1, HBMs trained (R364) -/
  hbms : BitVec 8
  /-- stage 5: mirror pages, and escrow pages, per stack whose read-back failed (ALC-001) -/
  badPages : List Nat
  badEscrow : List Nat := []
  /-- duration of the kindling so far, in ms -/
  elapsed : BitVec 16
  /-- the pilot-domain sensor reads 85 °C or above (R432) -/
  hot : Bool
  deriving DecidableEq, Repr

/-- What an ENTRY_SYNC message says (R117, R118): the local Azard's entry state, and at DEFINE its runtime fields; `seal`
asks for the version rise and digests of R138, `fetch` for one page of the partner's copy (R131, R232), `digest` for its
digests at its version (R131); `held` for a held page of a checkpoint (R206); `src` names the objects of restored pages; `reply` answers a
create with the result code in `page` and the partner entry's index in `localIdx`; an `update` to DIVERGENT has the step that
found no majority in `page`; `drop` says that the partner's copy is dropped or lost. -/
inductive EntrySyncKind
  | create | update | retire | drop | seal | fetch | digest | reply | held | line
  deriving DecidableEq, Repr

/-- The runtime-written fields of a shard ledger entry (R114), as DEFINE hands them to the partner. -/
structure EntryDef where
  shardId : Word
  length : BitVec 40
  owner : BitVec 16
  partner : BitVec 16
  windowBase : BitVec 19
  program : BitVec 16
  group : BitVec 5
  hyper : Word
  segFirst : BitVec 12
  segCount : BitVec 12
  stream : BitVec 32
  deriving DecidableEq, Repr

/-- ENTRY_SYNC (R408 kind 0x20): the local entry's index, CLAIM and state, with the fields of R114. -/
structure EntrySync where
  kind : EntrySyncKind
  localIdx : BitVec 16
  claim : Word
  state : BitVec 3
  image : Bytes
  hyperBytes : Bytes
  page : Nat
  domain : BitVec 16
  fillSource : BitVec 4
  fields : EntryDef
  src : List (Nat × BitVec 32 × BitVec 8)
  /-- DIGEST of the image, from its slot descriptor (R161, R164) -/
  digest : Digest
  /-- DEGRADED_L of the sender's entry (R130) -/
  lost : Bool
  deriving DecidableEq, Repr

/-- What a VOTE_NOTE holds (R344): SHARD_ID and DIGEST_ROOT of each local entry; and, of the step at which the checkpoint in
progress was taken, those of the entries it includes (R199; log entry 98). -/
structure VoteRoots where
  roots : List (Word × Digest)
  included : List (Word × Digest) := []
  deriving DecidableEq, Repr

/-- The sequence of a SHARD_DONE (R213) and the other sequences that the shard's page entries name (log entry 98). -/
structure DoneSeq where
  seq : BitVec 32
  named : List (BitVec 32) := []
  deriving DecidableEq, Repr

/-- Where a request at a flue target goes (R210): the row's operation in a slot, its descriptor with a new SEQNO and, for a PUT,
its data; or any request at an offset of the area: its operation, and the length that a RD asks for. -/
inductive FlueAt
  | slot (n : BitVec 6)
  | at (off : Nat) (op : OpCode) (len : Nat)
  deriving DecidableEq, Repr

/-- Why a page crosses VC1 as PARTNER_PAGE (R408 kind 0x22). -/
inductive PagePurpose
  | fill | repair | window | remirror | held | line
  deriving DecidableEq, Repr

/-- Outcome of a page vote (R126), numbered as MIR_LAST_VOTE.OUTCOME. -/
inductive VoteOutcome
  | agreed | accelOdd | localOdd | partnerOdd | noMajority
  deriving DecidableEq, Repr

/-- One page of a VOTE_OUTCOME message (R125). -/
structure PageOutcome where
  page : Nat
  version : BitVec 32
  outcome : VoteOutcome
  digest : Digest
  deriving DecidableEq, Repr

/-- A digest record (R185). -/
structure DigestRec where
  shardId : Word
  page : BitVec 32
  version : BitVec 32
  claim : Word
  install : Bool
  digest : Digest
  deriving DecidableEq, Repr

/-- An install record (R186); its claim stands in the request's extension. OP is the command's own, or `op` where the record
carries one that R186 refuses. -/
structure InstallRec where
  slot : BitVec 12
  page : BitVec 32
  version : BitVec 32
  digest : Digest
  op : Option (BitVec 4) := none
  deriving DecidableEq, Repr

/-- What Azard answered to units of a contribution (R179): the attempt and the claim they carried, RESULT and CAUSE, and the
epoch of the reply (R176). -/
structure YAns where
  hdr : AttHdr
  claim : Word
  result : Result
  cause : BitVec 8
  epoch : BitVec 32
  deriving DecidableEq, Repr

/-- What Azard answered to a capture record, named by its step, unit and position (R190). -/
structure CaptureAns where
  step : Word
  unit : BitVec 16
  position : BitVec 32
  result : Result
  epoch : BitVec 32
  deriving DecidableEq, Repr

/-- A tile operation of a matrix unit (R190): C_out = C_in + A × B; A and B in the format ABFMT, C in FP32, row-major. -/
structure TileOp where
  unit : BitVec 16
  m : BitVec 16
  k : BitVec 16
  n : BitVec 16
  abfmt : BitVec 4
  a : List (BitVec 16)
  b : List (BitVec 16)
  cin : List (BitVec 32)
  cout : List (BitVec 32)
  deriving DecidableEq, Repr

/-- The records that one WRC to an intake window carries, and the bytes of a part of a record after them (R184). -/
structure Recs (α : Type) where
  recs : List α
  rest : Nat := 0
  deriving DecidableEq, Repr

/-- A capture record (R190): header fields and the four arrays, with LENGTH as its header states it and `bytes` the
bytes written. -/
structure CaptureRec where
  step : Word
  unit : BitVec 16
  m : BitVec 16
  k : BitVec 16
  n : BitVec 16
  position : BitVec 32
  abfmt : BitVec 4
  length : BitVec 32
  time : Word
  bytes : Nat
  eA : List (BitVec 32)
  b : List (BitVec 16)
  eCin : List (BitVec 32)
  eCout : List (BitVec 32)
  deriving DecidableEq, Repr

/-- A TEST_REPORT record (R192). -/
structure TestReport where
  seq : BitVec 16
  result : BitVec 8
  failUnit : BitVec 16
  start : Word
  stop : Word
  deriving DecidableEq, Repr

/-- Kinds of failing privileged units (R261), coded as TST_SIG_CMD.CLASS. -/
structure UnitRef where
  cls : BitVec 8
  index : BitVec 8
  deriving DecidableEq, Repr

/-- Where a unit stands that detects errors (R16): in a hearth, whose units are 0 vector engine, 1 Keccak core, 2 ledger adder
array and 3 tile unit; or at a port, whose units are its SerDes lanes, numbered from its first. -/
inductive UnitAt
  | hearth (h : Fin 68)
  | port (p : Fin 25)
  deriving DecidableEq, Repr

/-- A topology announcement (R301). -/
structure Topo where
  pos : Word
  coord : Word
  revision : BitVec 8
  firmware : BitVec 32
  seq : Nat
  links : List Word
  outOfService : Bool
  flue : Bool
  deriving DecidableEq, Repr

/-- The payload of SYNC_REQ and SYNC_RESP (R315). -/
structure SyncMsg where
  hops : BitVec 8
  seq : BitVec 16
  root : Word
  t2 : Stamp
  prevSeq : BitVec 16
  t3prev : Stamp
  adj : BitVec 64
  deriving DecidableEq, Repr

/-- A packet that a codeword delivers: its base header's dispatching fields (R291) and whether its CRC and tag
verify (R292). `kind` is the message kind of a MSG (R408). -/
structure Packet where
  req : Req
  op : OpCode
  opKnown : Bool
  vc : BitVec 5
  space : BitVec 4
  crcOk : Bool
  tagOk : Bool
  rsn : BitVec 48
  bytes : Nat
  deriving DecidableEq, Repr

/-- One codeword as the receiver sees it (R289, R293): its link word and the packets that end in it. -/
structure Codeword where
  seq : BitVec 16
  ack : BitVec 16
  nack : Bool
  idle : Bool
  coinVc : BitVec 5
  coins : BitVec 11
  correctable : Bool
  corrected : Bool
  packets : List Packet
  deriving DecidableEq, Repr

/-- The power and temperature measured in one 1 ms window (R430). -/
structure PowerSample where
  mw : BitVec 32
  junction : BitVec 16
  hbmHot : Bool
  deriving DecidableEq, Repr

/-- The counts of one 1 ms telemetry window (R273, R395): per port (sent, received, coins, stall), per level, per VC;
power and temperatures as words in the layout of R395. -/
structure TelSample where
  ports : List (Word × Word × Word × Word)
  levels : List Word
  vcs : List Word
  pkg : Word
  regions : List Word
  hbms : List Word
  /-- HBM-level stall cycles of each region, and HBM bytes of each shard ledger entry's copy, which the snapshot does not show (R273) -/
  hbmStall : List Nat := []
  traffic : List (BitVec 16 × Nat) := []
  deriving DecidableEq, Repr

/-- What a scrubbed line holds (R388), with what the repair needs. -/
inductive LineKind
  | clean
  /-- a page of a mirror copy, and the 64-byte line of it -/
  | mirror (entry : BitVec 16) (page line : Nat)
  /-- a shard ledger entry; `both`: its twin is damaged too (R113) -/
  | ledger (entry : BitVec 16) (both : Bool)
  | program (ctx : Fin 16)
  | chunkSlot (c : ChunkRef)
  | rootStaging (c : ChunkRef)
  | escrow (ctx : Fin 16)
  | replay (port : Fin 25)
  | spill
  | free
  deriving DecidableEq, Repr

/-- RESTORE_DIST (R408 kind 0x34): with `release`, the keys of a key release (R340); otherwise a selected checkpoint's
sequence, step, WINDOWS (segment, E0, MAXEXP), decrypted records and key chain (R215). -/
structure RestoreDist where
  release : Bool
  seq : BitVec 32
  step : Word
  windows : List (BitVec 12 × BitVec 16 × BitVec 16)
  plain : Bytes
  keys : List (BitVec 32 × Digest)
  deriving DecidableEq, Repr

/-- A checkpoint that LIST names, with what GET returned for it (R215): its manifest object, empty when ABSENT, and the
shard manifests that the manifest references. -/
structure Candidate where
  seq : BitVec 32
  manifest : Bytes
  shards : List Bytes
  deriving DecidableEq, Repr

/-- What a write of a command register meets beside the bytes written, as the command's own row takes it: the chunk slots a
reset hearth is adding into (R17), the transmit stamp of a PROBE (R321), the checkpoints that LIST named and whether every
flue target answered (R215), and whether a closed update object reads back as written (R366). -/
structure WriteEnv where
  adding : List ChunkRef := []
  stamp : MacStamp := {}
  candidates : List Candidate := []
  reached : Bool := false
  good : Bool := true
  deriving DecidableEq, Repr

end Sys2Proof
end

