-- ==== Sys2Proof/Syntax.lean ====
section
/-!
DEFINITION. Sys2Proof/Syntax.lean: the commands, one constructor per row of spec/opcode_table.json, in the table's order,
with the operands that the row's rules name.  The operand structures stand in Word.lean.
-/

namespace Sys2Proof

/-- The commands of the AZ8-1600 block. -/
inductive Instr
  /-- PILOT_RAIL_POWER_UP (R354): Pilot power-good asserts; time base starts from 0 and a kindling begins, counting a power cycle. -/
  | pilotRailPowerUp
  /-- RESET_IN_N (R354): RESET_IN_n deasserts after at least 10 µs asserted and starts a kindling with time base kept. -/
  | resetInN (held : Nat)
  /-- SWITCHED_PG_LOSS (R426): A switched-rail power-good deasserts while its enable is asserted; engines stop, rails go off and a KIND 2 kindling follows after 1 s, or a running kindling fails POWER. -/
  | switchedPgLoss (r : Rail)
  /-- CORE_POWER_UP_KINDLING (R426): 1 s after an uncommanded switched-rail loss, Azard starts a kindling with entry core power-up. -/
  | corePowerUpKindling
  /-- PILOT_PG_LOSS (R426): PG_PILOT deasserts; everything but VBAT-held state stops at once. -/
  | pilotPgLoss
  /-- REFCLK_LOSS (R421): No REFCLK edge for 1 µs is handled as a deassertion of PG_PILOT. -/
  | refclkLoss
  /-- VBAT_LOW (R427): VBAT falls below 2.2 V; VBAT_OK reads 0 and the RTC loses VALID. -/
  | vbatLow
  /-- RAIL_PG_ASSERT (R425): A power-good asserts in answer to Azard's enable and the next enable of the sequence is asserted. -/
  | railPgAssert (r : Rail)
  /-- RAIL_PG_TIMEOUT (R425): A power-good has not asserted within 20 ms of its enable and the kindling fails with REASON POWER. -/
  | railPgTimeout (r : Rail)
  /-- KINDLING_STAGE_DONE (R355): A kindling stage completes its work and the next stage begins, or Azard reaches READY and records KIN-001. -/
  | kindlingStageDone (rep : StageReport)
  /-- KINDLING_STAGE_TIMEOUT (R355): A stage limit or the 6 s kindling limit passes and the kindling fails. -/
  | kindlingStageTimeout (whole : Bool) (elapsed : BitVec 16)
  /-- KINDLING_RETRY (R364): 2 s after a failed kindling with FAILS below 3, a new kindling starts. -/
  | kindlingRetry
  /-- REKINDLE (R368): RST_KIN_CMD REKINDLE starts a kindling, refused while a context is not EMPTY. -/
  | rekindle (rq : Req) (seq : BitVec 16)
  /-- COMMIT (R367): RST_KIN_CMD COMMIT raises FLOOR and FW_FLOOR to the running counters. -/
  | kinCommit (rq : Req) (seq : BitVec 16)
  /-- DISARM (R368): RST_KIN_CMD DISARM clears the pending trial of the standby set. -/
  | kinDisarm (rq : Req) (seq : BitVec 16)
  /-- UPD_OPEN (R366): RST_UPD_CMD OPEN erases the target area of an update and discards earlier staging. -/
  | updOpen (rq : Req) (target : BitVec 3) (seq : BitVec 16) (length : BitVec 32)
  /-- UPD_ERASE_DONE (R366): The erase of the staging target completes and STATE moves from BUSY to OPEN. -/
  | updEraseDone (good : Bool)
  /-- UPD_DATA_WRITE (R366): A write to RST_UPD_DATA appends 8 bytes to the object being staged. -/
  | updDataWrite (rq : Req) (data : Word)
  /-- UPD_CLOSE (R366): RST_UPD_CMD CLOSE reads back and verifies the staged object, giving STAGED or REFUSED. -/
  | updClose (rq : Req) (target : BitVec 3) (seq : BitVec 16) (length : BitVec 32) (good : Bool)
  /-- UPD_ARM (R366): RST_UPD_CMD ARM sets PENDING when the standby set passes verification. -/
  | updArm (rq : Req) (target : BitVec 3) (seq : BitVec 16) (length : BitVec 32)
  /-- UPD_ABORT (R366): RST_UPD_CMD ABORT discards the staging in progress. -/
  | updAbort (rq : Req) (target : BitVec 3) (seq : BitVec 16) (length : BitVec 32)
  /-- UNIT_ERROR_DETECTED (R16): A unit detects a parity or CRC error; the operation is recomputed or its input refetched, escalating after three tries. -/
  | unitErrorDetected (u : UnitAt) (unit : Fin 16) (op : Word) (adding : List ChunkRef)
  /-- HEARTH_RESET_CMD (R376): RST_HRT_CMD RESET orders a hearth reset, refused for a hearth already failed. -/
  | hearthResetCmd (rq : Req) (h : BitVec 7) (seq : BitVec 16) (adding : List ChunkRef)
  /-- HEARTH_RESET_TIMEOUT (R376): A hearth not completing its reset within 100 µs is marked failed without a test. -/
  | hearthResetTimeout (h : Fin 68)
  /-- STRUCTURAL_TEST_DONE (R17): A reset hearth's structural test ends; it becomes the spare on a pass or is marked failed. -/
  | structuralTestDone (h : Fin 68) (pass : Bool)
  /-- SUPERVISOR_DISAGREE (R15): One supervisor channel disagrees with the others; the majority acts and the odd channel goes out of service. -/
  | supervisorDisagree (k : Fin 3)
  /-- FATAL_DIE_ERROR (R21): A fatal die-level error stops remote operations and begins package recovery. -/
  | fatalDieError (cause : Fin 4)
  /-- HBM_STACK_FAIL (R20): An HBM stack fails; its pages are retired and capacity is reassigned with mirror capacity taking the loss. -/
  | hbmStackFail (k : Fin 8)
  /-- TABLE_REBUILD_DONE (R113): The rebuilt shard ledger twin is written and read back and TWIN_REBUILD clears. -/
  | tableRebuildDone
  /-- REGION_POWER_GATE (R19): At a step boundary a region with no pages or work, permitted by the image, is migrated and power-gated. -/
  | regionPowerGate (q : Fin 4)
  /-- RESOURCE_WAKE (R281): The scheduler wakes a gated hearth, PLL or region ahead of predicted work. -/
  | resourceWake (r : Resource) (late : Nat)
  /-- HEARTH_CLOCK_GATE (R281): A hearth idle for GATE_IDLE with nothing predicted is clock-gated. -/
  | hearthClockGate (h : Fin 68)
  /-- STEP_RECORD_STORE (R34): A write to the step record window with CMD = 0 stores its words and acts on nothing. -/
  | stepRecordStore (rq : Req) (op : OpCode) (off len : Nat) (data : Bytes)
  /-- STEP_OPEN (R36): A write with CMD = OPEN latches the record and evaluates it, opening the attempt or refusing it. -/
  | stepOpen (rq : Req) (data : Bytes)
  /-- STEP_VOID (R38): A write with CMD = VOID forwards a void of the open attempt to the step root. -/
  | stepVoid (rq : Req) (data : Bytes)
  /-- STEP_RECORD_RESERVED_CMD (R36): A write with CMD = 3 is refused with CONTEXT_STATE or RECORD_FORMAT and opens nothing. -/
  | stepRecordReservedCmd (rq : Req) (data : Bytes)
  /-- CONTRIBUTION_WRC (R437): A WRC to a segment window is judged and its new 256-byte units are accepted into the tray stage. -/
  | contributionWrc (rq : Req) (op : OpCode) (seg : BitVec 12) (off : Nat) (data : Bytes) (stamp : MacStamp)
  /-- UPWARD_BLOCK_SEND (R92): A node sends the next upward ledger block of a chunk once local contributions and children's blocks are in and coins are held. -/
  | upwardBlockSend (c : Fin 16) (seg : BitVec 12) (b : Nat)
  /-- UPWARD_BLOCK_RECEIVED (R93): A child's upward ledger block is accumulated once per attempt, held, or discarded. -/
  | upwardBlockReceived (rq : Req) (hdr : AttHdr) (seg : BitVec 12) (data : Bytes) (stamp : MacStamp)
  /-- REPORT_RECEIVED (R97): The step root receives a group root's report. -/
  | reportReceived (rq : Req) (hdr : AttHdr) (g : BitVec 5) (segs : List SegReport) (stamp : MacStamp)
  /-- LAG_CLEAR_RECEIVED (R45): Lag clearance for a step arrives from a child or, at the step root, completes the release condition. -/
  | lagClearReceived (rq : Req) (hdr : AttHdr)
  /-- DIVERGENT_NOTE_RECEIVED (R46): The step root keeps the earliest divergent step and voids a waiting attempt with LAG_DIVERGENT. -/
  | divergentNoteReceived (rq : Req) (entry : BitVec 16) (step : Word)
  /-- RELEASE_RECEIVED (R99): A node receives RELEASE, enters RELEASED, forwards it and queues step programs on its mirrors. -/
  | releaseReceived (rq : Req) (hdr : AttHdr) (g : BitVec 5) (ms : List (BitVec 12 × BitVec 16)) (ckpt : Option CkptTag)
  /-- DOWNWARD_BLOCK_RECEIVED (R99): A downward ledger block is held or forwarded to children and rounded once for delivery. -/
  | downwardBlockReceived (rq : Req) (hdr : AttHdr) (seg : BitVec 12) (data : Bytes)
  /-- RESULT_DELIVERY (R100): Azard writes rounded chunks by WRC and the segment status word to each member's Yobel, repeating on retry causes. -/
  | resultDelivery (x : Fin 16) (step : Word) (seg : BitVec 12) (c : Nat) (node : BitVec 16)
  /-- EFFECTIVE_DEADLINE (R96): A node's effective deadline arrives and it judges every awaited input, passing or voiding with DEADLINE. -/
  | effectiveDeadline (c : Fin 16) (g : BitVec 5)
  /-- REPORT_DEADLINE (R96): The step root's report deadline arrives and it judges the other group roots' reports. -/
  | reportDeadline (c : Fin 16)
  /-- VOID_RECEIVED (R102): A node receiving VOID for an attempt it has not voided voids it and relays it. -/
  | voidReceived (rq : Req) (hdr : AttHdr) (cause : BitVec 4) (origin : BitVec 16) (segs : List SegReport)
  /-- RESEND_RECEIVED (R388): A member or child receiving RESEND sends its units or blocks of the chunk again. -/
  | resendReceived (rq : Req) (hdr : AttHdr) (seg : BitVec 12) (c : Nat)
  /-- SHARD_LEDGER_WR (R111): A WR to runtime-written words of a shard ledger entry outside the state word request. -/
  | shardLedgerWr (rq : Req) (op : OpCode) (off len : Nat) (data : Bytes)
  /-- DEFINE (R119): REQ DEFINE checks the entry, takes pages here and at the partner and creates the partner entry. -/
  | defineEntry (rq : Req) (e seq : BitVec 16) (cmp : Option Word)
  /-- FILL_YOBEL (R120): REQ FILL from YOBEL reads each page from Yobel's state port into local and partner mirrors. -/
  | fillYobel (rq : Req) (e seq : BitVec 16) (cmp : Option Word)
  /-- FILL_WINDOW (R120): REQ FILL from WINDOW sets the entry FILLING for runtime writes through the mirror window. -/
  | fillWindow (rq : Req) (e seq : BitVec 16) (cmp : Option Word)
  /-- FILL_RESTORE (R216): REQ FILL from RESTORE fetches, decrypts and checks each page of the selected checkpoint and writes every copy. -/
  | fillRestore (rq : Req) (e seq : BitVec 16) (cmp : Option Word)
  /-- FILL_MIRROR (R231): REQ FILL from MIRROR is accepted on a FENCED entry to fill the accelerator now bound to OWNER. -/
  | fillMirror (rq : Req) (e seq : BitVec 16) (cmp : Option Word)
  /-- FILL_MIRROR_START (R231): Once COMMITTED and VOTED_STEP equal the committed step and OWNER is bound, Azard sets the slot FILLING and sends pages. -/
  | fillMirrorStart (e : BitVec 16)
  /-- FILL_PAGE_RETRY (R236): A page that failed to confirm is sent again every 10 ms after the tries in a row fail. -/
  | fillPageRetry (e : BitVec 16) (page : Nat)
  /-- SEAL (R138): REQ SEAL waits for window writes, raises every page version, digests and votes three-way. -/
  | sealEntry (rq : Req) (e seq : BitVec 16) (cmp : Option Word)
  /-- REMIRROR (R131): REQ REMIRROR rebuilds a lost mirror copy at the current version and closes with a three-way vote. -/
  | remirror (rq : Req) (e seq : BitVec 16) (cmp : Option Word)
  /-- DROP_PARTNER (R130): REQ DROP_PARTNER takes the partner copy out of the vote and sets DEGRADED_P. -/
  | dropPartner (rq : Req) (e seq : BitVec 16) (cmp : Option Word)
  /-- RETIRE (R117): REQ RETIRE stops work on the shard and takes the entry RETIRING, telling the partner. -/
  | retireEntry (rq : Req) (e seq : BitVec 16) (cmp : Option Word)
  /-- ENTRY_WIPE_DONE (R117): A RETIRING entry's pages are wiped here and at the partner and the entry returns to FREE. -/
  | entryWipeDone (e : BitVec 16)
  /-- ENTRY_SYNC_RECEIVED (R118): A partner Azard receives an entry state message and creates, updates or retires the partner entry. -/
  | entrySyncReceived (rq : Req) (m : EntrySync)
  /-- CLAIM_CAS (R220): A CAS on an entry's CLAIM grants a higher claim once voted, with the effects of the entry's state. -/
  | claimCas (rq : Req) (e : BitVec 16) (cmp new : Word)
  /-- CLAIM_FWD_RECEIVED (R222): The partner entry takes a forwarded claim and resends its pending digests under it. -/
  | claimFwdReceived (rq : Req) (shard claim : Word)
  /-- STEP_PROGRAM_RUN (R124): Once every segment of the group is rounded here, a mirror copy's step-program run starts on its region's hearths. -/
  | stepProgramRun (e : BitVec 16) (h : Fin 68)
  /-- STEP_UPDATE_DONE (R124): A copy's update ends with versions raised, COMMITTED set and every page digested; the node may go UPDATED. -/
  | stepUpdateDone (h : Fin 68)
  /-- PARTNER_DIGEST_RECEIVED (R125): A partner page digest arrives over VC1 and enters the page's vote when its claim matches. -/
  | partnerDigestReceived (rq : Req) (shard : Word) (page : Nat) (version : BitVec 32) (claim : Word) (install : Bool) (digest : Digest)
  /-- VOTE_OUTCOME_RECEIVED (R125): The partner receives the vote outcome of a step and counts odd mirror pages. -/
  | voteOutcomeReceived (rq : Req) (shard step : Word) (pages : List PageOutcome)
  /-- PARTNER_PAGE_RECEIVED (R223): A page arriving over VC1 for a fill, repair or window write is installed under the partner entry's claim. -/
  | partnerPageReceived (rq : Req) (shard claim : Word) (page : Nat) (version : BitVec 32) (purpose : PagePurpose) (digest : Digest) (off : Nat) (data : Bytes)
  /-- DIGEST_WAIT_EXPIRY (R134): A digest still missing DIGEST_WAIT after a page version's first digest records MIR-020. -/
  | digestWaitExpiry (e : BitVec 16) (page : Nat) (version : BitVec 32)
  /-- MIRROR_WINDOW_RD (R136): A RD of the mirror window returns local mirror bytes or NACK_BUSY PAGE_UPDATING. -/
  | mirrorWindowRd (rq : Req) (off len : Nat)
  /-- MIRROR_WINDOW_WR (R137): A WR of the mirror window writes every copy when the entry permits edits. -/
  | mirrorWindowWr (rq : Req) (op : OpCode) (off : Nat) (data : Bytes)
  /-- NOP (R159): Does nothing. -/
  | nop (h : Fin 77) (f : RFields)
  /-- HALT (R147): Ends a serial section and the run, or ends a parallel instance. -/
  | halt (h : Fin 77) (f : RFields) (choice : Nat)
  /-- NEXT (R147): Ends the section or instance and commits its buffered stores. -/
  | nextInsn (h : Fin 77) (f : RFields) (choice : Nat)
  /-- ABORT (R153): Raises fault ABORT with the code in IMM[15:0]. -/
  | abortInsn (h : Fin 77) (f : IFields)
  /-- JMP (R159): Jumps to pc + IMM. -/
  | jmp (h : Fin 77) (f : IFields)
  /-- BEQ (R159): Branches if A equals B. -/
  | beq (h : Fin 77) (f : IFields)
  /-- BNE (R159): Branches if A differs from B. -/
  | bne (h : Fin 77) (f : IFields)
  /-- BLT (R159): Branches if A is below B, signed. -/
  | blt (h : Fin 77) (f : IFields)
  /-- BGE (R159): Branches if A is at or above B, signed. -/
  | bge (h : Fin 77) (f : IFields)
  /-- CSRR (R143): Reads an engine control register. -/
  | csrr (h : Fin 77) (f : IFields)
  /-- CSRW (R143): Writes an engine control register. -/
  | csrw (h : Fin 77) (f : IFields)
  /-- LI (R159): Loads a sign-extended immediate. -/
  | li (h : Fin 77) (f : IFields)
  /-- LUI (R159): Loads the immediate into the upper 32 bits. -/
  | lui (h : Fin 77) (f : IFields)
  /-- SADD (R159): Scalar add modulo 2^64. -/
  | sadd (h : Fin 77) (f : RFields)
  /-- SADDI (R159): Scalar add of a sign-extended immediate. -/
  | saddi (h : Fin 77) (f : IFields)
  /-- SSUB (R159): Scalar subtract modulo 2^64. -/
  | ssub (h : Fin 77) (f : RFields)
  /-- SMUL (R159): Low 64 bits of a scalar product. -/
  | smul (h : Fin 77) (f : RFields)
  /-- SAND (R159): Scalar bitwise and. -/
  | sand (h : Fin 77) (f : RFields)
  /-- SOR (R159): Scalar bitwise or. -/
  | sor (h : Fin 77) (f : RFields)
  /-- SXOR (R159): Scalar bitwise xor. -/
  | sxor (h : Fin 77) (f : RFields)
  /-- SSHLI (R159): Scalar shift left by immediate. -/
  | sshli (h : Fin 77) (f : IFields)
  /-- SSHRI (R159): Scalar logical shift right by immediate. -/
  | sshri (h : Fin 77) (f : IFields)
  /-- SMIN (R159): Signed scalar minimum. -/
  | smin (h : Fin 77) (f : RFields)
  /-- SLD (R145): Loads 8 aligned bytes into a scalar register. -/
  | sld (h : Fin 77) (f : IFields)
  /-- SST (R145): Stores 8 aligned bytes from a scalar register into the instance buffer. -/
  | sst (h : Fin 77) (f : IFields)
  /-- SETVL (R144): Sets vl to the smaller of A and VLMAX. -/
  | setvl (h : Fin 77) (f : RFields)
  /-- VLD (R145): Loads vector elements with a stride. -/
  | vld (h : Fin 77) (f : IFields)
  /-- VST (R145): Stores vector elements with a stride into the instance buffer. -/
  | vst (h : Fin 77) (f : IFields)
  /-- VIOTA (R159): Writes A + i into each element. -/
  | viota (h : Fin 77) (f : RFields)
  /-- VADD (R75): Floating-point vector add, rounded once. -/
  | vadd (h : Fin 77) (f : RFields)
  /-- VSUB (R75): Floating-point vector subtract. -/
  | vsub (h : Fin 77) (f : RFields)
  /-- VMUL (R75): Floating-point vector multiply. -/
  | vmul (h : Fin 77) (f : RFields)
  /-- VDIV (R75): Floating-point vector divide, correctly rounded. -/
  | vdiv (h : Fin 77) (f : RFields)
  /-- VFMA (R75): Fused A × B + C with one rounding. -/
  | vfma (h : Fin 77) (f : RFields)
  /-- VFMS (R75): Fused A × B − C with one rounding. -/
  | vfms (h : Fin 77) (f : RFields)
  /-- VFNMA (R75): Fused −(A × B) + C with one rounding. -/
  | vfnma (h : Fin 77) (f : RFields)
  /-- VSQRT (R75): Correctly rounded square root. -/
  | vsqrt (h : Fin 77) (f : RFields)
  /-- VRSQRT (R75): Correctly rounded reciprocal square root. -/
  | vrsqrt (h : Fin 77) (f : RFields)
  /-- VMIN (R76): Element-wise minimumNumber. -/
  | vmin (h : Fin 77) (f : RFields)
  /-- VMAX (R76): Element-wise maximumNumber. -/
  | vmax (h : Fin 77) (f : RFields)
  /-- VABS (R159): Clears the sign; NaN becomes canonical. -/
  | vabs (h : Fin 77) (f : RFields)
  /-- VNEG (R159): Inverts the sign; NaN becomes canonical. -/
  | vneg (h : Fin 77) (f : RFields)
  /-- VCVT (R75): Converts elements from format C[3:0] to TYPE. -/
  | vcvt (h : Fin 77) (f : RFields)
  /-- VCEQ (R159): Element-wise equality mask. -/
  | vceq (h : Fin 77) (f : RFields)
  /-- VCLT (R159): Element-wise less-than mask. -/
  | vclt (h : Fin 77) (f : RFields)
  /-- VCLE (R159): Element-wise less-or-equal mask. -/
  | vcle (h : Fin 77) (f : RFields)
  /-- VNF (R159): Mask of infinite or NaN elements. -/
  | vnf (h : Fin 77) (f : RFields)
  /-- VAND (R159): Vector bitwise and. -/
  | vand (h : Fin 77) (f : RFields)
  /-- VOR (R159): Vector bitwise or. -/
  | vor (h : Fin 77) (f : RFields)
  /-- VXOR (R159): Vector bitwise xor. -/
  | vxor (h : Fin 77) (f : RFields)
  /-- VSEL (R159): Selects A or B per element by C. -/
  | vsel (h : Fin 77) (f : RFields)
  /-- VIADD (R159): Integer vector add modulo 2^w. -/
  | viadd (h : Fin 77) (f : RFields)
  /-- VANY (R159): Sets a scalar to 1 if any element is non-zero. -/
  | vany (h : Fin 77) (f : RFields)
  /-- VRAND (R157): Writes keyed SHAKE256 random words for indices A + i under key B. -/
  | vrand (h : Fin 77) (f : RFields)
  /-- ACLR (R155): Clears an exact accumulator. -/
  | aclr (h : Fin 77) (f : RFields)
  /-- AADD (R155): Adds vector elements exactly into an accumulator. -/
  | aadd (h : Fin 77) (f : RFields)
  /-- AGET (R155): Rounds an accumulator once into element 0 of a vector. -/
  | aget (h : Fin 77) (f : RFields)
  /-- TLD (R156): Loads a 64 × 64 tile. -/
  | tld (h : Fin 77) (f : IFields)
  /-- TST (R156): Stores a tile. -/
  | tst (h : Fin 77) (f : IFields)
  /-- TZERO (R159): Zeroes a tile. -/
  | tzero (h : Fin 77) (f : RFields)
  /-- TMMA (R156): Tile multiply-accumulate in ascending k into FP32. -/
  | tmma (h : Fin 77) (f : RFields)
  /-- TRED (R156): Exact reduction of a tile along an axis, rounded once. -/
  | tred (h : Fin 77) (f : RFields)
  /-- INSN_LIMIT_FAULT (R153): An instance about to execute instruction INSN_LIMIT + 1 raises fault LIMIT before decode. -/
  | insnLimitFault (h : Fin 77)
  /-- SLOT_LENGTH_WR (R162): A WR of a non-zero LENGTH to an EMPTY or REFUSED program slot sets it LOADING. -/
  | slotLengthWr (rq : Req) (op : OpCode) (area : BitVec 8) (off len : Nat) (data : Bytes)
  /-- IMAGE_WRC (R162): A WRC into a slot's image window; at full COUNT the image is checked and INSTALLED or REFUSED. -/
  | imageWrc (rq : Req) (slot : BitVec 8) (off : Nat) (data : Bytes)
  /-- CLEAR (R162): Slot CMD CLEAR returns a program slot to EMPTY when the context state and shard use permit. -/
  | slotClear (rq : Req) (slot : BitVec 8) (seq : BitVec 16)
  /-- HYPER_WR (R160): A WR into the hyper area while the context is CHARTERED or QUIESCED. -/
  | hyperWr (rq : Req) (op : OpCode) (off len : Nat) (data : Bytes)
  /-- YOBEL_RESTART (R176): Yobel restarts, raises YBL_EPOCH and clears every registration, slot and copy. -/
  | yobelRestart (k : Fin 9)
  /-- YOBEL_TAG_WRITE (R177): A write of YBL_CTX_TAG latches STEP, ATTEMPT and TAG as the open attempt. -/
  | yobelTagWrite (y : YReq) (c : Fin 16) (reg : Nat) (v : Word)
  /-- YOBEL_CLAIM_WRITE (R177): A write of YBL_CTX_CLAIM stores the value only when larger than the one held. -/
  | yobelClaimWrite (y : YReq) (c : Fin 16) (v : Word)
  /-- REMOVE (R194): YBL_CTX_CMD REMOVE makes Yobel drop all state of the context and raise CTX_EPOCH. -/
  | yobelRemove (y : YReq) (c : Fin 16) (cmd : BitVec 2) (seq : BitVec 16)
  /-- YOBEL_CONTRIBUTE (R179): Yobel sends a segment by WRC once its gradient is final, repeating units as the answers require. -/
  | yobelContribute (k : Fin 9) (c : Fin 16) (seg : BitVec 12) (off : Nat) (data : Bytes) (ans : Option YAns)
  /-- YOBEL_RESULT_WRC (R180): Yobel counts a result WRC unit into the window of its step, resetting the window for a newer step. -/
  | yobelResultWrc (y : YReq) (op : OpCode) (seg : BitVec 12) (off : Nat) (data : Bytes)
  /-- YOBEL_STATUS_WR (R180): Azard writes a word of Yobel's segment status table. -/
  | yobelStatusWr (y : YReq) (op : OpCode) (off len : Nat) (data : Bytes)
  /-- YOBEL_DIRECTORY_WR (R181): Azard writes an image directory entry, setting it LOADING. -/
  | yobelDirectoryWr (y : YReq) (op : OpCode) (off len : Nat) (data : Bytes)
  /-- YOBEL_IMAGE_WRC (R181): An image unit arrives at Yobel; at full length Yobel checks the digest and sets READY or BAD. -/
  | yobelImageWrc (y : YReq) (op : OpCode) (area : BitVec 8) (off : Nat) (data : Bytes)
  /-- YOBEL_SLOT_WR (R182): Azard writes a Yobel shard slot descriptor, STATE last. -/
  | yobelSlotWr (y : YReq) (op : OpCode) (slot : BitVec 12) (off len : Nat) (data : Bytes)
  /-- RELEASE_STEP_WRITE (R183): A write of a slot's RELEASE_STEP makes that step eligible for update. -/
  | releaseStepWrite (y : YReq) (slot : BitVec 12) (step : Word)
  /-- YOBEL_STEP_UPDATE (R183): Yobel applies a released step to a LIVE slot once its results are delivered, then digests and sends records. -/
  | yobelStepUpdate (k : Fin 9) (slot : BitVec 12) (fuel : Nat)
  /-- HOLD (R187): Install record HOLD stops further updates of a page once it stands at the given version. -/
  | yobelHold (y : YReq) (r : InstallRec)
  /-- INSTALL_FILL (R187): Install record INSTALL_FILL digests a filled page and confirms it on a match. -/
  | installFill (y : YReq) (r : InstallRec)
  /-- INSTALL_REPAIR (R187): Install record INSTALL_REPAIR digests a repaired page and ends the hold on a match. -/
  | installRepair (y : YReq) (r : InstallRec)
  /-- INSTALL_RELEASE (R187): Install record RELEASE ends the hold on a page. -/
  | installRelease (y : YReq) (r : InstallRec)
  /-- STATE_PORT_RD (R187): A RD of Yobel's state port under the claim gate. -/
  | statePortRd (y : YReq) (off len : Nat)
  /-- STATE_PORT_WR (R187): A WR of Yobel's state port under the claim gate. -/
  | statePortWr (y : YReq) (op : OpCode) (off : Nat) (data : Bytes)
  /-- TILE_CAPTURE (R189): A tile operation numbered at a capture position is captured into a record. -/
  | tileCapture (k : Fin 9) (c : Fin 16) (op : TileOp)
  /-- CAPTURE_SEND (R190): Yobel sends a step's capture records to the CAPTURE intake before its next step's contributions. -/
  | captureSend (k : Fin 9) (c : Fin 16) (ans : Option CaptureAns)
  /-- CAPTURE_RECORD_DROP (R190): A capture record not accepted before the first unit of step S + 2 is dropped and counted. -/
  | captureRecordDrop (k : Fin 9) (c : Fin 16)
  /-- YOBEL_PROBE_CMD (R191): A new SEQ in YBL_PROBE_CMD makes Yobel run the probe image and report status and digest. -/
  | yobelProbeCmd (y : YReq) (seq : BitVec 16) (fuel : Nat)
  /-- CONFORMANCE_PROBE_DONE (R191): Azard compares the finished probe with its own run and admits the port or quarantines it. -/
  | conformanceProbeDone (k : Fin 9) (id : Word) (digest : Digest) (fault : BitVec 4)
  /-- CONFORMANCE_TIMEOUT (R191): A probe not complete within 1 s quarantines the port with YBL-001. -/
  | conformanceTimeout (k : Fin 9) (fault : BitVec 4)
  /-- YOBEL_TEST_GRANT (R192): A new SEQ in YBL_TEST_CMD grants Yobel a test window, refused when END is past. -/
  | yobelTestGrant (y : YReq) (start stop : Word) (seq : BitVec 16) (set : BitVec 32)
  /-- YOBEL_TEST_END (R192): The test window's END arrives; Yobel stops testing and reports. -/
  | yobelTestEnd (k : Fin 9) (result : BitVec 8) (failUnit : BitVec 16) (start stop : Word)
  /-- DIGEST_RECORD (R185): A digest record arriving at the DIGEST intake is kept once, entering a vote or confirming an install. -/
  | digestRecord (rq : Req) (op : OpCode) (r : Recs DigestRec)
  /-- CAPTURE_RECORD (R243): A capture record at the CAPTURE intake is validated and queued for comparison. -/
  | captureRecord (rq : Req) (op : OpCode) (r : Recs CaptureRec)
  /-- CAPTURE_COMPARE (R244): A queued capture record is compared exactly and a mismatch is counted. -/
  | captureCompare
  /-- TEST_REPORT (R259): A TEST_REPORT record arrives and the grant's STATE becomes REPORTED. -/
  | testReport (rq : Req) (op : OpCode) (r : Recs TestReport)
  /-- ACCEL_DRAIN (R252): Once every entry of a suspect fenced device is FENCED or FREE, Azard removes it, quarantines the port and flags it. -/
  | accelDrain (k : Fin 9)
  /-- SELF_DRAIN (R253): A write of 1 to TST_SELF.DRAIN takes Azard out of service with eviction notices. -/
  | selfDrain (rq : Req)
  /-- INSTALL (R255): TST_PACK_CMD INSTALL checks a staged pattern pack and replaces the stored set. -/
  | packInstall (rq : Req) (set : BitVec 32) (seq : BitVec 16)
  /-- DELETE (R255): TST_PACK_CMD DELETE removes a stored pattern set other than the active one. -/
  | packDelete (rq : Req) (set : BitVec 32) (seq : BitVec 16)
  /-- HEARTH_TEST_START (R256): ROTATE_MIN after the last start, the region's spare hearth begins its pattern test. -/
  | hearthTestStart (q : Fin 4)
  /-- HEARTH_TEST_DONE (R256): A hearth test ends; a pass makes the next hearth outgoing, a failure marks the hearth failed. -/
  | hearthTestDone (q : Fin 4) (transient : Nat) (pass : Bool)
  /-- HANDOVER (R256): The outgoing hearth's work ends and it takes the spare role while the tested hearth takes its work. -/
  | handover (q : Fin 4)
  /-- HANDOVER_TIMEOUT (R256): An outgoing hearth not free within 10 s abandons the handover. -/
  | handoverTimeout (q : Fin 4)
  /-- HEARTH_UNCOVERED (R258): A hearth not passed by its due time plus DEFER_H becomes uncovered. -/
  | hearthUncovered (h : Fin 68)
  /-- TST_OVERDUE (R260): An accelerator not passed by its due time plus DEFER_H raises TST-OVERDUE and is counted uncovered. -/
  | tstOverdue (k : Fin 9)
  /-- TEST_GRANT (R259): TST_GRANT_CMD with a new SEQ checks the window and writes the grant to the port's Yobel. -/
  | testGrant (rq : Req) (port : BitVec 4) (seq : BitVec 16) (set : BitVec 32)
  /-- OPEN (R263): TST_SIG_CMD OPEN opens the newest signature stream of a unit. -/
  | sigOpen (rq : Req) (cls idx : BitVec 8) (seq : BitVec 16)
  /-- CLOSE (R263): TST_SIG_CMD CLOSE closes the signature stream. -/
  | sigClose (rq : Req) (cls idx : BitVec 8) (seq : BitVec 16)
  /-- SIG_DATA_READ (R263): A read of TST_SIG_DATA returns the next 8 stream bytes and advances the cursor. -/
  | sigDataRead (rq : Req)
  /-- ACTIVATE (R269): CTX_CMD ACTIVATE checks the context and takes its pages, entering ACTIVE or WAIT_CLEAN or refusing. -/
  | ctxActivate (rq : Req) (n : Fin 16) (seq : BitVec 16)
  /-- CHARTER_CHECK_RECEIVED (R339): A neighbour answers a CHARTER_CHECK with its charter digest or zeros. -/
  | charterCheckReceived (rq : Req) (answer : Bool) (digest : Digest)
  /-- QUIESCE (R334): CTX_CMD QUIESCE voids the open attempt and takes the context QUIESCED. -/
  | ctxQuiesce (rq : Req) (n : Fin 16) (seq : BitVec 16)
  /-- RESUME (R334): CTX_CMD RESUME begins the return to ACTIVE. -/
  | ctxResume (rq : Req) (n : Fin 16) (seq : BitVec 16)
  /-- RESUME_COMPLETE (R334): Once pending SEALs, program transfers and parked copies are done, the context becomes ACTIVE. -/
  | resumeComplete (n : Fin 16)
  /-- RELEASE (R334): CTX_CMD RELEASE takes the context WIPING, retiring entries and zeroising keys. -/
  | ctxRelease (rq : Req) (n : Fin 16) (seq : BitVec 16)
  /-- CTX_CLEAR (R335): CTX_CMD CLEAR erases a refused or partly loaded charter while EMPTY. -/
  | ctxClear (rq : Req) (n : Fin 16) (seq : BitVec 16)
  /-- PAGE_WIPE_DONE (R266): A DIRTY page is wiped and read back, becoming CLEAN or RETIRED, and is given to a waiting context. -/
  | pageWipeDone (good : Bool)
  /-- CLEAN_TIMEOUT (R271): A context's activation timeout ends in WAIT_CLEAN and the activation is refused. -/
  | cleanTimeout (n : Fin 16)
  /-- PAGE_MOVE (R273): At a step boundary Azard moves a movable copy for gating, consolidation or balance. -/
  | pageMove (e : BitVec 16) (src dst : Fin 8) (reason : BitVec 2) (last : Bool)
  /-- CHARTER_WRC (R336): A charter unit arrives; when the count reaches LENGTH the charter is checked and accepted or refused. -/
  | charterWrc (rq : Req) (op : OpCode) (off len : Nat) (data : Bytes)
  /-- KEY_RELEASE (R340): A key release is written, checked, and its keys distributed to the context's nodes. -/
  | keyRelease (rq : Req) (op : OpCode) (n : Fin 16) (off : Nat) (data : Bytes)
  /-- RESTORE_DIST_RECEIVED (R215): A node receives the selected checkpoint's step, windows and sealed records, or released keys. -/
  | restoreDistReceived (rq : Req) (m : RestoreDist)
  /-- VOTE_NOTE_RECEIVED (R344): The step root collects a VOTE_NOTE and issues the receipt once every note is in. -/
  | voteNoteReceived (rq : Req) (step : Word) (roots : VoteRoots)
  /-- ENROLL (R348): Life-cycle command ENROLL enrols an operator key and takes Azard OWNED. -/
  | lcEnroll (rq : Req) (length : BitVec 32) (seq : BitVec 16)
  /-- ROTATE (R348): Life-cycle command ROTATE replaces the operator key. -/
  | lcRotate (rq : Req) (length : BitVec 32) (seq : BitVec 16)
  /-- DISOWN (R348): Life-cycle command DISOWN zeroises contexts and the operator key and returns to PROVISIONED. -/
  | lcDisown (rq : Req) (length : BitVec 32) (seq : BitVec 16)
  /-- SERVICE (R348): Life-cycle command SERVICE zeroises every secret and opens JTAG. -/
  | lcService (rq : Req) (length : BitVec 32) (seq : BitVec 16)
  /-- RETIRE_DEVICE (R348): Life-cycle command RETIRE zeroises every secret and takes Azard RETIRED. -/
  | lcRetire (rq : Req) (length : BitVec 32) (seq : BitVec 16)
  /-- PROVISION (R348): Life-cycle command PROVISION takes Azard to PROVISIONED. -/
  | lcProvision (rq : Req) (length : BitVec 32) (seq : BitVec 16)
  /-- LC_DATA_WRITE (R349): A write to SEC_LC_DATA appends 8 bytes to the life-cycle command object. -/
  | lcDataWrite (rq : Req) (data : Word)
  /-- ENTROPY_HEALTH_FAIL (R330): A failed sample block is discarded; three within 1 s put the security block in ERROR. -/
  | entropyHealthFail
  /-- DRBG_RESEED (R330): After 2^20 requests or 1 s the DRBG reseeds from the entropy source. -/
  | drbgReseed
  /-- DRAIN_PUT (R206): A drain owner verifies the next held page of a drain set and PUTs it to the flue within its rate and outstanding limit. -/
  | drainPut (c : Fin 16)
  /-- PUT_ACK (R206): The WRC completing a PUT is answered OK; the page is acknowledged and its hold and escrow end. -/
  | putAck (id : BitVec 32)
  /-- DRAIN_ACK_RECEIVED (R207): The other mirror ends its hold on an acknowledged page. -/
  | drainAckReceived (rq : Req) (shard : Word) (seq : BitVec 32) (page : Nat)
  /-- SHARD_DONE_RECEIVED (R213): The step root collects SHARD_DONE for an included shard. -/
  | shardDoneReceived (rq : Req) (seq : DoneSeq) (shard claim : Word) (target : BitVec 8) (digest : Digest)
  /-- CHECKPOINT_MANIFEST_PUT (R213): With every SHARD_DONE in, S VOTED and its receipt issued, the step root PUTs the CHECKPOINT_MANIFEST. -/
  | checkpointManifestPut (c : Fin 16)
  /-- CKPT_COMMIT_RECEIVED (R214): A node sets checkpoint fields, ends holds, frees escrow and zeroises the key. -/
  | ckptCommitReceived (rq : Req) (seq : BitVec 32)
  /-- ABANDON_RECEIVED (R204): An ABANDON frees the checkpoint's escrow and holds at a node. -/
  | abandonReceived (rq : Req) (seq : BitVec 32) (cause : BitVec 8)
  /-- SELECT (R215): ESC_RST_CMD SELECT lists and verifies checkpoint manifests and selects the newest usable one. -/
  | ckptSelect (rq : Req) (n : Fin 16) (max : BitVec 32) (seqno : BitVec 16) (ms : List Candidate) (reached : Option Bool)
  /-- ABANDON (R219): ESC_RST_CMD ABANDON abandons the checkpoint in progress with cause RUNTIME. -/
  | ckptAbandon (rq : Req) (n : Fin 16) (max : BitVec 32) (seqno : BitVec 16)
  /-- PUT (R211): A flue target stores an object durably, refusing stale claims and conflicting manifests. -/
  | fluePut (f : Fin 4) (rq : Req) (area : BitVec 4) (slot : FlueAt) (seqno : BitVec 16) (obj : Bytes)
  /-- GET (R210): A flue target places a keyed object in the slot data or reports ABSENT. -/
  | flueGet (f : Fin 4) (rq : Req) (area : BitVec 4) (slot : FlueAt) (seqno : BitVec 16) (key : Bytes)
  /-- LIST (R210): A flue target returns manifest entries or page indices for a key. -/
  | flueList (f : Fin 4) (rq : Req) (area : BitVec 4) (slot : FlueAt) (seqno : BitVec 16) (key : Bytes)
  /-- BIND (R229): CTX_BIND_CMD moves a logical node to a tray port and writes slots, images and registers at its Yobel. -/
  | bindNode (rq : Req) (n : Fin 16) (logical : BitVec 16) (port : BitVec 4) (seq : BitVec 16)
  /-- LIVENESS_TIMER (R225): 5 ms or 100 ms without a frame or out of UP changes a port's verdict to SILENT or LOST. -/
  | livenessTimer (p : Fin 25)
  /-- LINK_CFG_WRITE (R296): A write of LNK_CFG.ENABLE holds a port DOWN or lets it train. -/
  | linkCfgWrite (rq : Req) (p : Fin 25) (data : Word)
  /-- RETRAIN (R296): LNK_CMD RETRAIN takes the link back to TRAINING. -/
  | linkRetrain (rq : Req) (p : Fin 25)
  /-- LINK_COUNTER_CLEAR (R306): LNK_CMD CLEAR clears LNK_FEC, LNK_ERR and LNK_QUEUE.MAX. -/
  | linkCounterClear (rq : Req) (p : Fin 25)
  /-- LINK_EXPECT_WRITE (R306): A write of LNK_EXPECT is refused while a context routes over the port. -/
  | linkExpectWrite (rq : Req) (p : Fin 25) (data : Word)
  /-- SELF_COORD_WRITE (R307): A write of LNK_SELF_COORD retrains every UP fabric link, refused while contexts are active. -/
  | selfCoordWrite (rq : Req) (data : Word)
  /-- SIGNAL_DETECT (R296): Signal appears on an enabled port and calibration begins. -/
  | signalDetect (p : Fin 25)
  /-- LINK_LOCK (R296): Lanes and codeword lock are found and width agreed; the port enters HELLO. -/
  | linkLock (p : Fin 25) (lanes : BitVec 16)
  /-- TRAINING_TIMEOUT (R296): No lock within 3 s returns the port DOWN. -/
  | trainingTimeout (p : Fin 25)
  /-- LINK_RETRY_TIMER (R296): 1 s after a failed training or hello the port tries again. -/
  | linkRetryTimer (p : Fin 25)
  /-- HELLO_RECEIVED (R299): A HELLO is checked and the port proceeds to key exchange or quarantines. -/
  | helloReceived (p : Fin 25) (raw : Bytes)
  /-- HELLO_TIMEOUT (R296): No hello from the peer within 20 ms of lock returns the port DOWN. -/
  | helloTimeout (p : Fin 25)
  /-- KEYX_RECEIVED (R341): The responder decapsulates KEYX and derives link keys. -/
  | keyxReceived (p : Fin 25) (ct sig : Bytes)
  /-- FINISH_RECEIVED (R341): A verified FINISH completes the key exchange and the port leaves HELLO. -/
  | finishReceived (p : Fin 25) (payload : Bytes)
  /-- LOSS_OF_LOCK (R296): An UP or QUARANTINE link loses lock and returns to TRAINING, losing in-flight packets. -/
  | lossOfLock (p : Fin 25)
  /-- CODEWORD_RECEIVED (R293): A codeword is decoded, its packets delivered, or it is lost and a resend requested. -/
  | codewordReceived (p : Fin 25) (c : Codeword)
  /-- REPLAY_ACK_RECEIVED (R303): An Osfel-L sender frees its window and resends after a GAP. -/
  | replayAckReceived (p : Fin 25) (rsn : BitVec 48) (gap : Bool)
  /-- REPLAY_ACK_TIMER (R303): Every 20 µs an Osfel-L receiver sends REPLAY_ACK. -/
  | replayAckTimer (p : Fin 25)
  /-- REPLAY_TIMEOUT (R303): No window advance for 2 × RTT + 200 µs resends from the oldest unacknowledged RSN. -/
  | replayTimeout (p : Fin 25)
  /-- MODULE_POLL (R304): Every 100 ms Azard polls each CMIS module's flags, retraining on a fault. -/
  | modulePoll (p : Fin 25) (present : Bool) (st : BitVec 3) (fault : Bool) (temp : BitVec 8)
  /-- MODULE_READY_TIMEOUT (R304): A module not ready within MODULE_READY leaves the port DOWN with LNK-030. -/
  | moduleReadyTimeout (p : Fin 25)
  /-- TOPO_RECEIVED (R301): A topology announcement updates the table and is forwarded. -/
  | topoReceived (p : Fin 25) (t : Topo)
  /-- TOPO_TIMER (R301): Once a second, or on a link change, Azard sends its topology announcement. -/
  | topoTimer
  /-- NONCE_COUNTER_LIMIT (R342): A nonce counter nearing 2^48 retrains the link for new keys. -/
  | nonceCounterLimit (p : Fin 25)
  /-- LANE_RECALIBRATE (R390): After 50 µs of IDLE codewords one lane's receiver offsets are recalibrated. -/
  | laneRecalibrate (p : Fin 25) (held : Bool)
  /-- TIME_INCREMENT_WRITE (R309): A write of TIME_INCREMENT, clamped to ±200 ppm, applies from the next tick. -/
  | timeIncrementWrite (rq : Req) (data : Word)
  /-- TIME_OFFSET_WRITE (R310): An offset step, refused while any context is ACTIVE. -/
  | timeOffsetWrite (rq : Req) (data : Word)
  /-- RTC_SET (R324): A write of TIM_RTC_SET sets the RTC and VALID. -/
  | rtcSet (rq : Req) (data : Word)
  /-- PROBE_CMD (R321): TIM_PROBE_CMD sends a PROBE and queues its transmit stamp. -/
  | probeCmd (rq : Req) (port : BitVec 5) (id seq : BitVec 16) (stamp : MacStamp)
  /-- PROBE_RECEIVED (R321): A peer answers a PROBE with PROBE_ECHO carrying its receive stamp. -/
  | probeReceived (p : Fin 25) (id : BitVec 16) (stamp : MacStamp)
  /-- PROBE_ECHO_RECEIVED (R321): The echoed receive stamp is placed in TIM_PROBE_ECHO. -/
  | probeEchoReceived (p : Fin 25) (stamp : Stamp)
  /-- TXQ_TIME_READ (R321): A read of TIM_TXQ_TIME removes the head entry of the queue. -/
  | txqTimeRead (rq : Req) (q : Fin 4)
  /-- PULSE_CTL_WRITE (R322): A write of TIM_PULSE_CTL enables or disables a pulse schedule. -/
  | pulseCtlWrite (rq : Req) (j : Fin 4) (data : Word)
  /-- PULSE_EDGE (R322): A scheduled pulse edge falls due and the output changes. -/
  | pulseEdge (j : Fin 4)
  /-- SYNC_TIMER (R315): Once per ms Azard sends SYNC_REQ on each link. -/
  | syncTimer (p : Fin 25) (t1 : MacStamp)
  /-- SYNC_REQ_RECEIVED (R315): The receiver answers with SYNC_RESP; Yobel also applies ADJ. -/
  | syncReqReceived (p : Fin 25) (m : SyncMsg) (epoch : BitVec 32) (t2 t3 : MacStamp)
  /-- SYNC_RESP_RECEIVED (R316): A completed exchange gives the peer's offset and round trip, and the parent is chosen. -/
  | syncRespReceived (p : Fin 25) (m : SyncMsg) (t4 : MacStamp)
  /-- HOLDOVER_TIMEOUT (R318): 10 ms without a completed exchange with the parent enters holdover. -/
  | holdoverTimeout
  /-- PPS_EDGE (R323): A PPS_IN rising edge is stamped and accepted or counted FAST. -/
  | ppsEdge (stamp : MacStamp) (high : Nat)
  /-- PPS_LOST (R323): No PPS edge accepted for 1.5 s sets PPS_LOST. -/
  | ppsLost
  /-- RESET (R375): RST_CTX_CMD RESET resets one context at this Azard. -/
  | ctxReset (rq : Req) (c : Fin 16) (seq : BitVec 16)
  /-- TASK_RELEASE_TIMEOUT (R375): A hearth not releasing a reset context's task within 1 ms is reset. -/
  | taskReleaseTimeout (h : Fin 68) (adding : List ChunkRef)
  /-- RESET_NOTE_RECEIVED (R378): The step root voids unreleased attempts with NODE_RESET on the first note for a node and epoch. -/
  | resetNoteReceived (rq : Req) (node : BitVec 16) (ep : BitVec 32)
  /-- WATCHDOG_EXPIRY (R380): A ready task unfinished at the end of its window resets the context with cause WATCHDOG. -/
  | watchdogExpiry (c : Fin 16) (task : Fin 6) (item : BitVec 32)
  /-- MPD_HEARTBEAT (R377): The management firmware's heartbeat reaches the pilot domain. -/
  | mpdHeartbeat
  /-- MPD_HEARTBEAT_TIMEOUT (R377): 1 s without heartbeat restarts the MPD alone. -/
  | mpdHeartbeatTimeout
  /-- MPD_RESTART_DONE (R377): The firmware returns and the suspended watchdog windows restart in full. -/
  | mpdRestartDone
  /-- MPD_RESTART_TIMEOUT (R377): Firmware not back within 2 s begins a package recovery. -/
  | mpdRestartTimeout
  /-- ENTER (R381): RST_OOS_CMD ENTER takes Azard out of service with cause MANAGEMENT. -/
  | oosEnter (rq : Req) (seq : BitVec 16)
  /-- OOS_CLEAR (R383): RST_OOS_CMD CLEAR returns Azard to service when every context is EMPTY. -/
  | oosClear (rq : Req) (seq : BitVec 16)
  /-- EVICTION_END (R382): RST_EVICT_END arrives and the evicting context goes WIPING. -/
  | evictionEnd
  /-- RESP_RECEIVED (R372): A requester handles a response, adopting a newer epoch and repeating on NACK_RETRY. -/
  | respReceived (id : BitVec 32) (r : Result) (cause : BitVec 8) (epoch : BitVec 32) (d : Bytes)
  /-- REQUEST_TIMEOUT (R411): An unanswered request is repeated with a doubled wait. -/
  | requestTimeout (id : BitVec 32)
  /-- SCRUB_LINE (R387): Patrol scrub reads the next line and handles a detection by what the line holds. -/
  | scrubLine (last : Bool) (found : Option LineKind) (good : Bool)
  /-- HBM_RETRAIN (R391): Within a refresh window a stack retrains one channel, failing the stack after two failures. -/
  | hbmRetrain (k : Fin 8) (pass : Bool)
  /-- TALLY_JOURNAL_WRITE (R394): Every 10 min, and at kindling, flags and out-of-service changes, a tally journal record is written. -/
  | tallyJournalWrite (erases worst : Nat) (bad : List (Fin 4)) (intact : Bool)
  /-- TELEMETRY_SNAPSHOT (R395): At the end of each 1 ms window a telemetry snapshot is written and pushed. -/
  | telemetrySnapshot (t : TelSample)
  /-- TEL_HOLD_TIMEOUT (R396): HOLD clears itself 1 s after it was set. -/
  | telHoldTimeout
  /-- FAULT_IN_ACCEPT (R397): A FAULT_IN level change held for MIN_PULSE is accepted and acted on or counted FAST. -/
  | faultInAccept (k : Fin 16) (level : Bool) (start : Word)
  /-- FAULT_IN_STUCK (R397): An input still asserted at the end of HOLD is masked. -/
  | faultInStuck (k : Fin 16)
  /-- FAULT_IN_QUIET (R397): An input deasserted for the whole QUIET window has its mask cleared. -/
  | faultInQuiet (k : Fin 16)
  /-- UNMASK (R397): A write of 1 to EVR_IN_UNMASK clears an input's mask. -/
  | unmask (rq : Req) (m : BitVec 16)
  /-- EVR_CURSOR_WRITE (R400): A write of EVR_CURSOR selects a record, clamped to OLDEST. -/
  | evrCursorWrite (rq : Req) (data : Word)
  /-- EVR_REC7_READ (R400): A read of EVR_REC7 advances the cursor by one record. -/
  | evrRec7Read (rq : Req)
  /-- FREEZE (R400): Setting or clearing EVR_CTL.FREEZE stops or resumes recorder writes. -/
  | evrFreeze (rq : Req) (v : Bool)
  /-- FREEZE_TIMEOUT (R400): A freeze ends 60 s after it was set with EVR-001. -/
  | freezeTimeout
  /-- I3C_PRIVATE_WRITE (R414): An I3C private write carries an offset and optional 8-byte WR. -/
  | i3cPrivateWrite (data : Bytes) (env : WriteEnv)
  /-- I3C_PRIVATE_READ (R414): An I3C private read returns the last RESULT and 8 bytes at the last offset. -/
  | i3cPrivateRead
  /-- SGMII_DATAGRAM (R414): A UDP datagram carrying a base header reaches control space through the MPD. -/
  | sgmiiDatagram (rq : Req) (op : OpCode) (addr : Nat) (len : Nat) (data : Bytes) (env : WriteEnv)
  /-- REGISTER_WRITE (R413): A WR to a control register with no behaviour of its own stores its RW and W1C fields. -/
  | registerWrite (rq : Req) (op : OpCode) (offset : Nat) (len : Nat) (data : Bytes) (env : WriteEnv)
  /-- PILOT_ONLY_ENTRY (R429): With every region gated and every port DOWN for 60 s, Azard turns off core, SRAM and SerDes rails. -/
  | pilotOnlyEntry
  /-- PILOT_ONLY_WAKE (R429): Signal on an enabled port or a management write switches the rails on and trains ports warm. -/
  | pilotOnlyWake (p : Fin 25)
  /-- POWER_WINDOW (R430): At the end of each 1 ms window Azard reports power and steps throttling down or up. -/
  | powerWindow (p : PowerSample)
  /-- THERMAL_TRIP (R432): The junction reaches 115 °C; engines stop, rails go off and the kindling fails THERMAL. -/
  | thermalTrip
  /-- DESCRIPTOR_TABLE_WR (R86): A WR to the segment descriptor table stores descriptors while the context is CHARTERED, or only the E0 field of a status word, and answers NACK_ACCESS in other states. -/
  | descriptorTableWr (rq : Req) (op : OpCode) (off len : Nat) (data : Bytes)
  /-- REFCLK_TICK (R308): At every REFCLK tick the raw counter advances, ACC rises by TIME_INCREMENT, FAULT_IN inputs are sampled and pending increment or offset writes take effect. -/
  | refclkTick
  /-- CRYSTAL_TICK (R324): Each 32.768 kHz crystal tick advances the RTC, from VBAT when the pilot rail is off, and applies a pending TIM_RTC_SET. -/
  | crystalTick
  /-- REFCLK_RETURN (R421): REFCLK edges return after a loss and a kindling starts with entry pilot-rail power-up and the raw counter from 0. -/
  | refclkReturn
  /-- RAIL_PG_DEASSERT (R425): A switched power-good deasserts after Azard deasserted its enable, or 10 ms pass, and the next enable in the off order is deasserted. -/
  | railPgDeassert (r : Rail) (timeout : Bool)
  /-- PLL_STOP (R281): When nothing is predicted within 50 µs or 10 ms, the scheduler stops a PLL warm or cold. -/
  | pllStop (q : Fin 4) (cold : Bool)
  /-- EPOCH_CHANGED_EXPIRY (R225): 60 s after a Yobel restart the port's evidence EPOCH_CHANGED ends and ALIVE is reported with evidence FRAMES. -/
  | epochChangedExpiry (p : Fin 25)
  /-- SPILL_RECEIVED (R275): A spill peer receives an encrypted spilled page or replay content on VC1 and holds it opaque in its spill area, or returns it. -/
  | spillReceived (rq : Req) (slot : Nat) (data : Option Bytes)
  /-- TEST_WINDOW_START (R192): Yobel's device time reaches START of a granted window and it begins the accelerator's test content. -/
  | testWindowStart (k : Fin 9)
  /-- ACCELERATOR_SHARD_BIND (R182): The accelerator binds a slot's SHARD_ID to its own memory, after which the state port stops answering NACK_BUSY with cause UNBOUND. -/
  | acceleratorShardBind (k : Fin 9) (shard : Word)
  /-- YBL_CTX_NODE_WRITE (R177): A write of YBL_CTX_NODE with VALID = 1 joins Yobel to the context, setting STATE JOINED, or a write of YBL_CTX_CAPTURE stores clamped values. -/
  | yblCtxNodeWrite (y : YReq) (c : Fin 16) (reg : YAt) (v : Word)
  /-- PARKED_TIMEOUT (R276): The context's activation timeout ends before parked partner copies are brought home, and leaving QUIESCED answers NACK_BUSY with cause PARKED. -/
  | parkedTimeout (n : Fin 16)
  /-- KEPT_ANSWER_EXPIRY (R412): 1 s after its answer a kept answer of a non-idempotent access is dropped, so a later repeat is no longer matched. -/
  | keptAnswerExpiry
  deriving DecidableEq, Repr

end Sys2Proof
end

