-- ==== Sys2Proof/WellFormed.lean ====
section
/-!
DEFINITION. Sys2Proof/WellFormed.lean: the ranges of the operands that Syntax.lean holds as numbers.  An offset lies in a
space's 44 bits and an address in 48 (18 R402, R403); a RD asks for at most 65,536 bytes (R405); a stamp has 64 bits of ns
and 32 of fraction (13 R313); a page index is below 524,288 (05 R139); a segment has at most 64 chunks and so 2²⁰ blocks
(04 R106); a spill area has at most 8,192 pages (11 R285); a Yobel context's
registers take 0x40 bytes (07 R177).
-/

namespace Sys2Proof

/-- The operations that are a command's own at a Yobel (R173): those of its operand, RD and WR of the state port, or WR. -/
inductive YOwn
  | any | read | write
  deriving DecidableEq, Repr

/-- Another operation and another space are named only where they are not the command's own or those of another row (R173). -/
def YReq.wf (y : YReq) (own : YOwn) : Bool :=
  (match y.other, own with
    | none, _ => true
    | some _, .any => false
    | some o, .read => decide (o ≠ .rd) && decide (o ≠ .wr)
    | some o, .write => decide (o ≠ .wr)) &&
  y.space.all fun a => a ≠ 0 && a ≠ 2 && a ≠ 3 && a ≠ 4

/-- A context's registers at Yobel take 0x40 bytes; the control space's offsets have 44 bits (07 R177, 18 R402). -/
def YAt.wf : YAt → Bool
  | .block o => decide (o < 64)
  | .space o => decide (o < 2 ^ 44)

/-- An OP is named only where it is no row's own (R186). -/
def InstallRec.wf (r : InstallRec) : Bool := r.op.all fun o => o = 0 || decide (4 < o.toNat)

/-- A unit that the place has (R16): a hearth has four kinds, a tray port 8 lanes, a link from a fabric port up to 16 (12 R287). -/
def UnitAt.hasUnit (u : UnitAt) (unit : Fin 16) : Bool :=
  match u with
  | .hearth _ => decide (unit.val < 4)
  | .port p => if p.val < 9 then decide (unit.val < 8) else decide (unit.val < 4 * (25 - p.val))

/-- Every numeric operand of a command lies in the range that its field has. -/
def Instr.wf : Instr → Bool
  | .pilotRailPowerUp => true
  | .resetInN _ => true
  | .switchedPgLoss _ => true
  | .corePowerUpKindling => true
  | .pilotPgLoss => true
  | .refclkLoss => true
  | .vbatLow => true
  | .railPgAssert _ => true
  | .railPgTimeout _ => true
  | .kindlingStageDone _ => true
  | .kindlingStageTimeout _ _ => true
  | .kindlingRetry => true
  | .rekindle _ _ => true
  | .kinCommit _ _ => true
  | .kinDisarm _ _ => true
  | .updOpen _ _ _ _ => true
  | .updEraseDone _ => true
  | .updDataWrite _ _ => true
  | .updClose _ _ _ _ _ => true
  | .updArm _ _ _ _ => true
  | .updAbort _ _ _ _ => true
  | .unitErrorDetected u unit _ _ => u.hasUnit unit
  | .hearthResetCmd _ _ _ _ => true
  | .hearthResetTimeout _ => true
  | .structuralTestDone _ _ => true
  | .supervisorDisagree _ => true
  | .fatalDieError _ => true
  | .hbmStackFail _ => true
  | .tableRebuildDone => true
  | .regionPowerGate _ => true
  | .resourceWake _ _ => true
  | .hearthClockGate _ => true
  | .stepRecordStore _ _ off len _ => decide (off < 2 ^ 44) && decide (len < 65537)
  | .stepOpen _ _ => true
  | .stepVoid _ _ => true
  | .stepRecordReservedCmd _ _ => true
  | .contributionWrc _ _ _ off _ _ => decide (off < 2 ^ 44)
  | .upwardBlockSend _ _ b => decide (b < 1048576)
  | .upwardBlockReceived _ _ _ _ _ => true
  | .reportReceived _ _ _ _ _ => true
  | .lagClearReceived _ _ => true
  | .divergentNoteReceived _ _ _ => true
  | .releaseReceived _ _ _ _ _ => true
  | .downwardBlockReceived _ _ _ _ => true
  | .resultDelivery _ _ _ c _ => decide (c < 64)
  | .effectiveDeadline _ _ => true
  | .reportDeadline _ => true
  | .voidReceived _ _ _ _ _ => true
  | .resendReceived _ _ _ c => decide (c < 64)
  | .shardLedgerWr _ _ off len _ => decide (off < 2 ^ 44) && decide (len < 65537)
  | .defineEntry _ _ _ _ => true
  | .fillYobel _ _ _ _ => true
  | .fillWindow _ _ _ _ => true
  | .fillRestore _ _ _ _ => true
  | .fillMirror _ _ _ _ => true
  | .fillMirrorStart _ => true
  | .fillPageRetry _ page => decide (page < 524288)
  | .sealEntry _ _ _ _ => true
  | .remirror _ _ _ _ => true
  | .dropPartner _ _ _ _ => true
  | .retireEntry _ _ _ _ => true
  | .entryWipeDone _ => true
  | .entrySyncReceived _ _ => true
  | .claimCas _ _ _ _ => true
  | .claimFwdReceived _ _ _ => true
  | .stepProgramRun _ _ => true
  | .stepUpdateDone _ => true
  | .partnerDigestReceived _ _ page _ _ _ _ => decide (page < 524288)
  | .voteOutcomeReceived _ _ _ _ => true
  | .partnerPageReceived _ _ _ page _ _ _ off _ => decide (page < 524288) && decide (off < 2 ^ 44)
  | .digestWaitExpiry _ page _ => decide (page < 524288)
  | .mirrorWindowRd _ off len => decide (off < 2 ^ 44) && decide (len < 65537)
  | .mirrorWindowWr _ _ off _ => decide (off < 2 ^ 44)
  | .nop _ _ => true
  | .halt _ _ _ => true
  | .nextInsn _ _ _ => true
  | .abortInsn _ _ => true
  | .jmp _ _ => true
  | .beq _ _ => true
  | .bne _ _ => true
  | .blt _ _ => true
  | .bge _ _ => true
  | .csrr _ _ => true
  | .csrw _ _ => true
  | .li _ _ => true
  | .lui _ _ => true
  | .sadd _ _ => true
  | .saddi _ _ => true
  | .ssub _ _ => true
  | .smul _ _ => true
  | .sand _ _ => true
  | .sor _ _ => true
  | .sxor _ _ => true
  | .sshli _ _ => true
  | .sshri _ _ => true
  | .smin _ _ => true
  | .sld _ _ => true
  | .sst _ _ => true
  | .setvl _ _ => true
  | .vld _ _ => true
  | .vst _ _ => true
  | .viota _ _ => true
  | .vadd _ _ => true
  | .vsub _ _ => true
  | .vmul _ _ => true
  | .vdiv _ _ => true
  | .vfma _ _ => true
  | .vfms _ _ => true
  | .vfnma _ _ => true
  | .vsqrt _ _ => true
  | .vrsqrt _ _ => true
  | .vmin _ _ => true
  | .vmax _ _ => true
  | .vabs _ _ => true
  | .vneg _ _ => true
  | .vcvt _ _ => true
  | .vceq _ _ => true
  | .vclt _ _ => true
  | .vcle _ _ => true
  | .vnf _ _ => true
  | .vand _ _ => true
  | .vor _ _ => true
  | .vxor _ _ => true
  | .vsel _ _ => true
  | .viadd _ _ => true
  | .vany _ _ => true
  | .vrand _ _ => true
  | .aclr _ _ => true
  | .aadd _ _ => true
  | .aget _ _ => true
  | .tld _ _ => true
  | .tst _ _ => true
  | .tzero _ _ => true
  | .tmma _ _ => true
  | .tred _ _ => true
  | .insnLimitFault _ => true
  | .slotLengthWr _ _ _ off len _ => decide (off < 2 ^ 44) && decide (len < 65537)
  | .imageWrc _ _ off _ => decide (off < 2 ^ 44)
  | .slotClear _ _ _ => true
  | .hyperWr _ _ off len _ => decide (off < 2 ^ 44) && decide (len < 65537)
  | .yobelRestart _ => true
  | .yobelTagWrite y _ reg _ => y.wf .write && decide (reg < 64)
  | .yobelClaimWrite y _ _ => y.wf .write
  | .yobelRemove y _ _ _ => y.wf .write
  | .yobelContribute _ _ _ off _ _ => decide (off < 2 ^ 44)
  | .yobelResultWrc y _ _ off _ => y.wf .any && decide (off < 2 ^ 44)
  | .yobelStatusWr y _ off len _ => y.wf .any && decide (off < 2 ^ 44) && decide (len < 65537)
  | .yobelDirectoryWr y _ off len _ => y.wf .any && decide (off < 2 ^ 44) && decide (len < 65537)
  | .yobelImageWrc y _ _ off _ => y.wf .any && decide (off < 2 ^ 44)
  | .yobelSlotWr y _ _ off len _ => y.wf .any && decide (off < 2 ^ 44) && decide (len < 65537)
  | .releaseStepWrite y _ _ => y.wf .write
  | .yobelStepUpdate _ _ _ => true
  | .yobelHold y r => y.wf .write && r.wf
  | .installFill y r => y.wf .write && r.wf
  | .installRepair y r => y.wf .write && r.wf
  | .installRelease y r => y.wf .write && r.wf
  | .statePortRd y off len => y.wf .read && decide (off < 2 ^ 44) && decide (len < 65537)
  | .statePortWr y op off _ => y.wf .any && decide (op ≠ .rd) && decide (off < 2 ^ 44)
  | .tileCapture _ _ _ => true
  | .captureSend _ _ _ => true
  | .captureRecordDrop _ _ => true
  | .yobelProbeCmd y _ _ => y.wf .write
  | .conformanceProbeDone _ _ _ _ => true
  | .conformanceTimeout _ _ => true
  | .yobelTestGrant y _ _ _ _ => y.wf .write
  | .yobelTestEnd _ _ _ _ _ => true
  | .digestRecord _ _ _ => true
  | .captureRecord _ _ _ => true
  | .captureCompare => true
  | .testReport _ _ _ => true
  | .accelDrain _ => true
  | .selfDrain _ => true
  | .packInstall _ _ _ => true
  | .packDelete _ _ _ => true
  | .hearthTestStart _ => true
  | .hearthTestDone _ _ _ => true
  | .handover _ => true
  | .handoverTimeout _ => true
  | .hearthUncovered _ => true
  | .tstOverdue _ => true
  | .testGrant _ _ _ _ => true
  | .sigOpen _ _ _ _ => true
  | .sigClose _ _ _ _ => true
  | .sigDataRead _ => true
  | .ctxActivate _ _ _ => true
  | .charterCheckReceived _ _ _ => true
  | .ctxQuiesce _ _ _ => true
  | .ctxResume _ _ _ => true
  | .resumeComplete _ => true
  | .ctxRelease _ _ _ => true
  | .ctxClear _ _ _ => true
  | .pageWipeDone _ => true
  | .cleanTimeout _ => true
  | .pageMove _ _ _ _ _ => true
  | .charterWrc _ _ off len _ => decide (off < 2 ^ 44) && decide (len < 65537)
  | .keyRelease _ _ _ off _ => decide (off < 2 ^ 44)
  | .restoreDistReceived _ _ => true
  | .voteNoteReceived _ _ _ => true
  | .lcEnroll _ _ _ => true
  | .lcRotate _ _ _ => true
  | .lcDisown _ _ _ => true
  | .lcService _ _ _ => true
  | .lcRetire _ _ _ => true
  | .lcProvision _ _ _ => true
  | .lcDataWrite _ _ => true
  | .entropyHealthFail => true
  | .drbgReseed => true
  | .drainPut _ => true
  | .putAck _ => true
  | .drainAckReceived _ _ _ page => decide (page < 524288)
  | .shardDoneReceived _ _ _ _ _ _ => true
  | .checkpointManifestPut _ => true
  | .ckptCommitReceived _ _ => true
  | .abandonReceived _ _ _ => true
  | .ckptSelect _ _ _ _ _ _ => true
  | .ckptAbandon _ _ _ _ => true
  | .fluePut _ _ _ _ _ _ => true
  | .flueGet _ _ _ _ _ _ => true
  | .flueList _ _ _ _ _ _ => true
  | .bindNode _ _ _ _ _ => true
  | .livenessTimer _ => true
  | .linkCfgWrite _ _ _ => true
  | .linkRetrain _ _ => true
  | .linkCounterClear _ _ => true
  | .linkExpectWrite _ _ _ => true
  | .selfCoordWrite _ _ => true
  | .signalDetect _ => true
  | .linkLock _ _ => true
  | .trainingTimeout _ => true
  | .linkRetryTimer _ => true
  | .helloReceived _ _ => true
  | .helloTimeout _ => true
  | .keyxReceived _ _ _ => true
  | .finishReceived _ _ => true
  | .lossOfLock _ => true
  | .codewordReceived _ _ => true
  | .replayAckReceived _ _ _ => true
  | .replayAckTimer _ => true
  | .replayTimeout _ => true
  | .modulePoll _ _ _ _ _ => true
  | .moduleReadyTimeout _ => true
  | .topoReceived _ _ => true
  | .topoTimer => true
  | .nonceCounterLimit _ => true
  | .laneRecalibrate _ _ => true
  | .timeIncrementWrite _ _ => true
  | .timeOffsetWrite _ _ => true
  | .rtcSet _ _ => true
  | .probeCmd _ _ _ _ _ => true
  | .probeReceived _ _ _ => true
  | .probeEchoReceived _ stamp => decide (stamp < 2 ^ 96)
  | .txqTimeRead _ _ => true
  | .pulseCtlWrite _ _ _ => true
  | .pulseEdge _ => true
  | .syncTimer _ _ => true
  | .syncReqReceived _ _ _ _ _ => true
  | .syncRespReceived _ _ _ => true
  | .holdoverTimeout => true
  | .ppsEdge _ _ => true
  | .ppsLost => true
  | .ctxReset _ _ _ => true
  | .taskReleaseTimeout _ _ => true
  | .resetNoteReceived _ _ _ => true
  | .watchdogExpiry _ _ _ => true
  | .mpdHeartbeat => true
  | .mpdHeartbeatTimeout => true
  | .mpdRestartDone => true
  | .mpdRestartTimeout => true
  | .oosEnter _ _ => true
  | .oosClear _ _ => true
  | .evictionEnd => true
  | .respReceived _ _ _ _ _ => true
  | .requestTimeout _ => true
  | .scrubLine _ _ _ => true
  | .hbmRetrain _ _ => true
  | .tallyJournalWrite _ _ _ _ => true
  | .telemetrySnapshot _ => true
  | .telHoldTimeout => true
  | .faultInAccept _ _ _ => true
  | .faultInStuck _ => true
  | .faultInQuiet _ => true
  | .unmask _ _ => true
  | .evrCursorWrite _ _ => true
  | .evrRec7Read _ => true
  | .evrFreeze _ _ => true
  | .freezeTimeout => true
  | .i3cPrivateWrite _ _ => true
  | .i3cPrivateRead => true
  | .sgmiiDatagram _ _ addr len _ _ => decide (addr < 2 ^ 48) && decide (len < 65537)
  | .registerWrite _ _ offset len _ _ => decide (offset < 2 ^ 44) && decide (len < 65537)
  | .pilotOnlyEntry => true
  | .pilotOnlyWake _ => true
  | .powerWindow _ => true
  | .thermalTrip => true
  | .descriptorTableWr _ _ off len _ => decide (off < 2 ^ 44) && decide (len < 65537)
  | .refclkTick => true
  | .crystalTick => true
  | .refclkReturn => true
  | .railPgDeassert _ _ => true
  | .pllStop _ _ => true
  | .epochChangedExpiry _ => true
  | .spillReceived _ slot _ => decide (slot < 8192)
  | .testWindowStart _ => true
  | .acceleratorShardBind _ _ => true
  | .yblCtxNodeWrite y _ reg _ => y.wf .write && reg.wf
  | .parkedTimeout _ => true
  | .keptAnswerExpiry => true

end Sys2Proof
end

