-- ==== Sys2Proof/Decode.lean ====
section
/-!
DEFINITION. Sys2Proof/Decode.lean: the commands that a table word spells.  spec/opcode_table.json gives no row any bits, so
no word spells a command.  (The step programs' instruction words, R158, are decoded by a vector engine, in
Machine/Engine.lean.)
-/

namespace Sys2Proof

/-- The command that a word of `nbits` bits spells by the table's bits: none, for no row has bits. -/
def decodeTableWord (_nbits _w : Nat) : Option Instr := none

end Sys2Proof
end

