-- ==== Sys2Proof/Config.lean ====
section
/-!
DEFINITION. Sys2Proof/Config.lean: what no rule of the spec fixes.  Each constant below is opaque: it has no body, so no
proof can rest on a value of it.  The functions of outside standards (Falcon-1024, ML-KEM-1024, AES-256-GCM) stand here
uninterpreted, since the spec names them and does not define them (00, "Standards referred to"; log entry 4).
-/

namespace Sys2Proof.Config

/-- The n-th value of `w` bits that the spec leaves open (log entry 3). -/
opaque freeValue (w n : Nat) : BitVec w

/-- FN-DSA verification with a public key: key, message, signature (14). -/
opaque falconVerify (key msg sig : Bytes) : Bool
/-- FN-DSA signature with the private key that belongs to a public key. -/
opaque falconSign (key msg : Bytes) : Bytes
/-- Verification of a certificate chain up to a root: root, chain; the end entity's key (14 R332). -/
opaque chainKey (root chain : Bytes) : Option Bytes
/-- An object that ends in CERT_LEN, a certificate chain and a signature (08 R213) verifies up to a Gelvoger root. -/
opaque gelvogerSigned (obj : Bytes) : Bool
/-- The end entity's key of a chain that verifies up to a Gelvoger root of the kindling ROM (R331, R332). -/
opaque gelvogerKey (chain : Bytes) : Option Bytes
/-- The SUBJECT of a public key's certificate (14 R332). -/
opaque subjectOf (key : Bytes) : Digest
/-- ML-KEM-1024 encapsulation to a key with the n-th draw: ciphertext and shared secret. -/
opaque kemEncap (key : Bytes) (n : Nat) : Bytes × Digest
/-- ML-KEM-1024 decapsulation with the private key that belongs to a public key. -/
opaque kemDecap (key ct : Bytes) : Digest
/-- A new key pair from the n-th draw: its public key. -/
opaque newKey (n : Nat) : Bytes
/-- The identity key generated in the factory, and the chain to a Gelvoger root stored with it (R4). -/
opaque factoryKey : Bytes
opaque factoryChain : Bytes
/-- AES-256-GCM: key, 96-bit nonce, additional data, plain text; cipher text and tag. -/
opaque gcmSeal (key : Digest) (nonce : BitVec 96) (ad pt : Bytes) : Bytes
/-- AES-256-GCM opening; none when the tag does not verify. -/
opaque gcmOpen (key : Digest) (nonce : BitVec 96) (ad ct : Bytes) : Option Bytes
/-- AES-256 key wrap of one key under another, and its inverse. -/
opaque keyWrap (kek key : Digest) : Bytes
opaque keyUnwrap (kek : Digest) (ct : Bytes) : Option Digest
/-- The n-th failure signature's measurements (R261): bodies of its PTR records, one per margin, and of its FTR records, one per
failing pattern; and the fields of its other records that R262 does not give (log entry 89). -/
opaque margins (n : Nat) : List Bytes
opaque failingPatterns (n : Nat) : List Bytes
opaque stdfByte (n field i : Nat) : Byte
opaque stdfTail (n field : Nat) : Bytes
/-- The lot number and the serial number as text (R262). -/
opaque lotText (lot : BitVec 48) : Bytes
opaque serialText (serial : BitVec 64) : Bytes
/-- What Azard writes into a Yobel's probe area from its kindling ROM (R191), and a number of instructions within which the image
there ends. -/
opaque probeArea : Bytes
opaque probeFuel : Nat
/-- Payload bytes that `n` fields take in a message of a kind whose layout no rule gives (log entry 81). -/
opaque fieldBytes (kind : BitVec 8) (n : Nat) : Nat
/-- Records in one erase block of the event recorder's NAND partition, less one (R399; the block size is the NAND's); a block
lies within the partition's 64 MiB. -/
opaque recorderBlock : Fin 1048576

end Sys2Proof.Config
end

