-- ==== Sys2Proof/Machine/Types.lean ====
section
/-!
DEFINITION. Sys2Proof/Machine/Types.lean: the parts that State is made of, block by block as the register map lists them
(18, R417), each with its reset value as the structure's default.  A sparse table is a `Map`: a list of
(key, value) pairs in rising key order in which no value equals the table's default; byte memories are `Mem`
(Host.Cell pairs, an unlisted byte reads 0, R266).  Defaults the spec does not give are named in the assumption log.
-/

namespace Sys2Proof.Machine

/-- A sparse table keyed by number: keys strictly rising, no value equal to the table's default. -/
abbrev Map (α : Type) := List (Nat × α)

/-- A byte memory: addresses strictly rising, no byte 0 listed (an unlisted byte reads 0, R266). -/
abbrev Mem := List (Nat × Byte)

/-! ## Time (13) -/

/-- One entry of a transmit time-stamp queue (R321). -/
structure TxStamp where
  port : BitVec 5
  id : BitVec 16
  ns : Word
  frac : BitVec 32
  deriving DecidableEq, Repr

/-- A pulse output and its schedule (R322, R326). -/
structure Pulse where
  start : Word := 0
  period : Word := 0
  enable : Bool := false
  polarity : Bool := false
  width : BitVec 32 := 20
  count : BitVec 32 := 0
  missed : Bool := false
  done : Bool := false
  /-- the index k of the next period -/
  next : Nat := 0
  /-- the output is asserted -/
  level : Bool := false
  deriving DecidableEq, Repr

/-- TIM_PEERp and the state of the two-way exchange on port p (R315, R316, R326). -/
structure PeerTime where
  theta : BitVec 48 := 0
  hops : BitVec 8 := 0xFF
  root : Word := 0
  /-- requests sent: SEQ and transmit stamp t₁ -/
  sentReq : List (BitVec 16 × Stamp) := []
  /-- responses received that await their t₃: SEQ, t₂, t₄ -/
  waiting : List (BitVec 16 × Stamp × Stamp) := []
  nextSeq : BitVec 16 := 0
  /-- the millisecond of corrected time in which the last request went out -/
  sentMs : Option Nat := none
  /-- the previous request answered on this link and the transmit stamp of its response -/
  prevSeq : BitVec 16 := 0
  prevT3 : Stamp := 0
  /-- corrected time of the last completed exchange -/
  lastDone : Option Word := none
  /-- ADJ for the next SYNC_REQ on a tray link (R319), in 2⁻¹⁶ ns -/
  adj : BitVec 64 := 0
  deriving DecidableEq, Repr

/-- The TIM_ block and the pilot domain's counters (R308–R326). -/
structure Tim where
  raw : Word := 0
  acc : BitVec 96 := 0
  inc : Word := 0x0000000A00000000
  incNext : Option Word := none
  offset : Word := 0
  offNext : Option Word := none
  source : BitVec 2 := 0
  locked : Bool := false
  holdover : Bool := false
  ppsLost : Bool := false
  txqOvf : BitVec 4 := 0
  parent : BitVec 5 := 0x1F
  hops : BitVec 8 := 0xFF
  steps : BitVec 32 := 0
  root : Word := 0
  ppsStamp : Word := 0
  ppsFrac : BitVec 32 := 0
  ppsAccepted : BitVec 16 := 0
  ppsFast : BitVec 16 := 0
  ppsAny : Bool := false
  rtcFrac : BitVec 15 := 0
  rtcValid : Bool := false
  rtcSec : BitVec 48 := 0
  rtcSet : Option Word := none
  /-- VALID was lost since the last kindling (TIM-007 is due) -/
  rtcLost : Bool := false
  probePort : BitVec 5 := 0
  probeId : BitVec 16 := 0
  probeSeq : BitVec 16 := 0
  probeActed : BitVec 16 := 0
  probeEcho : Word := 0
  txq : Map (List TxStamp) := []
  pulse : Map Pulse := []
  asym : Map (BitVec 32) := []
  peer : Map PeerTime := []
  /-- consecutive completed exchanges with the parent at or below 5 ns, and above 20 ns (R318) -/
  good : Nat := 0
  bad : Nat := 0
  deriving DecidableEq, Repr

/-! ## Kindling, images and updates (15) -/

/-- A FAULT_IN input entry of the configuration image (R360). -/
structure InputCfg where
  minPulse : BitVec 32 := 0
  minPeriod : BitVec 32 := 0
  hold : BitVec 32 := 0
  quiet : BitVec 32 := 0
  deriving DecidableEq, Repr

/-- A port entry of the configuration image (R359). -/
structure PortCfg where
  expect : Word := 0
  asym : BitVec 32 := 0
  mode : BitVec 2 := 3
  width : BitVec 3 := 0
  fec : Bool := false
  enable : Bool := false
  appsel : BitVec 8 := 0
  faultMap : BitVec 16 := 0
  deriving DecidableEq, Repr

/-- The values a configuration image gives the device (R358, R363). Defaults are the spec's where it states one. -/
structure Image where
  counter : BitVec 10 := 0
  build : Word := 0
  fwMin : BitVec 32 := 0
  pos : Word := 0x8000000000000000
  coord : Word := 0
  powerDomain : BitVec 16 := 1
  sparePort : BitVec 8 := 8
  timeSource : BitVec 8 := 0
  fwMatch : Bool := false
  gateRegions : BitVec 8 := 0
  powerLimit : BitVec 16 := 1100
  patternSet : BitVec 32 := 0
  moduleReady : BitVec 16 := 120
  spillPeer0 : Word := 0
  spillPeer1 : Word := 0
  escResets : BitVec 8 := 4
  escMinutes : BitVec 16 := 60
  evict : BitVec 32 := 600
  wdFloor : BitVec 32 := 10
  wdMult : BitVec 8 := 4
  alcCfg0 : Word := 0x0000020000053219
  alcCfg1 : Word := 0x00000100320A000A
  mirCfg : Word := 0x00000000000303E8
  escCfg : Word := 0x00000010320A1940
  tstCfg0 : Word := 0x003C001800480004
  tstCfg1 : Word := 0x0000000100010002
  ports : Map PortCfg := []
  inputs : Map InputCfg := []
  roots : List Bytes := []
  deriving DecidableEq, Repr

/-- One NOR device's set (R357): the bytes of its image and of its firmware bundle. -/
structure NorSet where
  image : Bytes := []
  bundle : Bytes := []
  deriving DecidableEq, Repr

/-- RST_UPD_STATUS.STATE (R368). -/
inductive UpdState
  | idle | opened | busy | staged | armed | refused
  deriving DecidableEq, Repr

/-- The power and start-up condition of the package (R354, R364, R365, R426, R428, R429). -/
inductive PowerState
  /-- the pilot rail is off -/
  | off
  /-- a kindling runs -/
  | kindling
  /-- a kindling failed; the next starts 2 s later (R364) -/
  | retryWait
  /-- ember mode (R365) -/
  | ember
  /-- READY, rails on -/
  | ready
  /-- pilot-only (R429) -/
  | pilotOnly
  /-- rails being switched on after pilot-only -/
  | waking
  /-- a switched rail was lost; KIND 2 kindling after 1 s (R426) -/
  | railLost
  deriving DecidableEq, Repr

/-- The kindling and update registers and what stands behind them (R354–R368). -/
structure Kin where
  power : PowerState := .ready
  stage : BitVec 4 := 7
  reason : BitVec 8 := 0
  fails : BitVec 8 := 0
  device : Bool := false
  pending : Bool := false
  lastGood : Bool := false
  elapsed : BitVec 16 := 0
  img : Image := {}
  floor : BitVec 10 := 0
  fwCounter : BitVec 8 := 0
  fwFloor : BitVec 8 := 0
  fwVersion : BitVec 32 := 0
  norA : NorSet := {}
  norB : NorSet := {}
  cmd : BitVec 2 := 0
  cmdSeq : BitVec 16 := 0
  cmdActed : BitVec 16 := 0
  updCmd : BitVec 3 := 0
  updTarget : BitVec 3 := 0
  updSeq : BitVec 16 := 0
  updActed : BitVec 16 := 0
  updLength : BitVec 32 := 0
  updState : UpdState := .idle
  updCause : BitVec 8 := 0
  updCount : BitVec 32 := 0
  /-- TARGET and LENGTH latched by the last OPEN -/
  updOpenTarget : BitVec 3 := 0
  updOpenLength : BitVec 32 := 0
  /-- the object being staged -/
  updData : Bytes := []
  /-- a verified pattern pack in the NAND staging partition -/
  pack : Option Bytes := none
  /-- R22: times of failed package recoveries; time of the READY that ended the last one -/
  recovFails : List Word := []
  recovReady : Option Word := none
  inRecovery : Bool := false
  deriving DecidableEq, Repr

/-! ## Resets (16) -/

/-- The reset registers of the RST_ block (R386) and the lists behind them. -/
structure Rst where
  kind : BitVec 4 := 1
  recoveryCause : BitVec 8 := 0
  epoch : BitVec 32 := 1
  ctxCmdCtx : BitVec 4 := 0
  ctxCmd : BitVec 2 := 0
  ctxCmdSeq : BitVec 16 := 0
  ctxCmdActed : BitVec 16 := 0
  lastCtx : BitVec 4 := 0
  lastCause : BitVec 4 := 0
  lastCounted : Bool := false
  lastTime : Word := 0
  /-- corrected times of the last 16 counting resets, oldest first (R381) -/
  counting : List Word := []
  oos : Bool := false
  drained : Bool := false
  oosCause : BitVec 8 := 0
  oosCmd : BitVec 2 := 0
  oosSeq : BitVec 16 := 0
  oosActed : BitVec 16 := 0
  evictEnd : Word := 0
  hrtHearth : BitVec 7 := 0
  hrtCmd : BitVec 2 := 0
  hrtSeq : BitVec 16 := 0
  hrtActed : BitVec 16 := 0
  ctxResets : BitVec 32 := 0
  hearthResets : BitVec 32 := 0
  recoveries : BitVec 32 := 0
  mpdRestarts : BitVec 32 := 0
  /-- the management firmware is running; a watchdog window is suspended while it is not (R377) -/
  mpdUp : Bool := true
  /-- corrected time of the newest heartbeat; while the MPD restarts, of the restart's begin (R377) -/
  lastBeat : Option Word := none
  /-- corrected time at which the firmware last came back from an MPD restart: watchdog windows start there again (R377) -/
  mpdBack : Option Word := none
  deriving DecidableEq, Repr

/-! ## Power (18 R416, 19) -/

/-- PWR_ registers, enables, power-goods and the throttle step (R416, R425, R430). -/
structure Pwr where
  pgPilot : Bool := true
  pgCore : Bool := true
  pgSram : Bool := true
  pgSerdes : Bool := true
  pgHbm : Bool := true
  enCore : Bool := true
  enSram : Bool := true
  enSerdes : Bool := true
  enHbm : Bool := true
  vbatOk : Bool := true
  /-- an off sequence is running (R425) -/
  goingOff : Bool := false
  limit : BitVec 11 := 1100
  active : Bool := false
  cause : BitVec 2 := 0
  out : Bool := false
  entries : BitVec 32 := 0
  mw : BitVec 32 := 0
  junction : BitVec 16 := 0
  /-- rate work at half its ceilings; steps of 125 MHz taken off 2.0 GHz (R430) -/
  halved : Bool := false
  clockSteps : Nat := 0
  deriving DecidableEq, Repr

/-! ## The die: hearths, regions, stacks, supervisor (01, 10) -/

/-- The role of a hearth in its region (R14, R17, R18, R256). -/
inductive HearthRole
  | active
  | spare
  /-- the outgoing hearth of a handover (R256) -/
  | outgoing
  /-- a reset hearth that runs or awaits its structural test (R17) -/
  | resetting
  | failed
  deriving DecidableEq, Repr

/-- One hearth (R16–R18, R256–R258). -/
structure Hearth where
  role : HearthRole := .active
  /-- per unit: the operation whose detections are being counted, and how many in a row (R16) -/
  ops : Map (Word × Nat) := []
  gated : Bool := false
  /-- under in-field test (R256, R18) -/
  testing : Bool := false
  lastPass : Word := 0
  uncovered : Bool := false
  /-- failed a pattern test (TST_FAILED, R257) -/
  testFailed : Bool := false
  /-- when it last finished or dropped a run (R281) -/
  idleSince : Word := 0
  /-- detections of its units (R16): vector engine, Keccak core, ledger adder array, tile unit -/
  unitErrs : Map Nat := []
  deriving DecidableEq, Repr

/-- Region power (ALC_REGIONq.POWER, R285). -/
inductive RegionPower
  | on | gating | off | waking
  deriving DecidableEq, Repr

/-- PLL states of R281. -/
inductive PllState
  | running | warm | cold
  deriving DecidableEq, Repr

/-- One region (R14, R18, R19, R264, R285). -/
structure Region where
  power : RegionPower := .on
  pll : PllState := .running
  /-- TST_REGIONq (R264) -/
  testing : Bool := false
  outgoing : BitVec 7 := 0x7F
  passes : BitVec 32 := 0
  /-- start of the region's last hearth test (R256) -/
  lastStart : Word := 0
  /-- the set the running test began with (R255) -/
  testSet : BitVec 32 := 0
  /-- the hearth under test -/
  testHearth : BitVec 7 := 0x7F
  /-- corrected time at which the region was power-gated: that time counts toward no test limit (R258) -/
  gatedAt : Option Word := none
  deriving DecidableEq, Repr

/-- One HBM stack: its service state, pages per pool, scrub and retrain counts (R20, R265, R387–R391, R396). -/
structure HbmStack where
  failed : Bool := false
  cleanMirror : Nat := 27648
  cleanEscrow : Nat := 4096
  retiredPages : Nat := 0
  retrains : BitVec 32 := 0
  scrubDet : BitVec 16 := 0
  /-- times of the detections of the current hour (R389) -/
  detTimes : List Word := []
  /-- consecutive failed retrainings (R391) -/
  retrainFails : Nat := 0
  deriving DecidableEq, Repr

/-- The die beside its blocks: supervisor channels, MPD link, hearths, regions, stacks. -/
structure Die where
  sup : Map Bool := []          -- channel i out of service
  ucie0 : Bool := true
  ucie1 : Bool := true
  hearths : Map Hearth := []
  regions : Map Region := []
  hbms : Map HbmStack := []
  /-- scrub position: next physical page (R387) -/
  scrubPage : Nat := 0
  /-- stacks passed over while their region was gated, each with its next page: scrubbed before the region's work starts (R387) -/
  scrubMissed : List (Nat × Nat) := []
  /-- pages whose read-back failed, by stack and what each holds, that leave at the next step boundary (R389) -/
  retireDue : List (Nat × LineKind) := []
  /-- SerDes lanes 0–135: detections, and the operation whose detections are being counted with how many in a row (R16) -/
  laneErrs : Map Nat := []
  laneOps : Map (Word × Nat) := []
  deriving DecidableEq, Repr

/-! ## Allocation (11) -/

/-- Which partition a run of pages belongs to (R265). -/
inductive Part
  | mirror | escrow
  deriving DecidableEq, Repr

/-- A run of DIRTY pages in the wipe queue (R267): whose they were, their partition, stack and number. -/
structure DirtyRun where
  owner : Option (Fin 16)
  part : Part
  stack : Nat
  count : Nat
  /-- the RETIRING entry that gave them up -/
  entry : Option Nat := none
  deriving DecidableEq, Repr

/-- A context in WAIT_CLEAN (R270): pages held per stack, mirror and root-staging demand, the end of its window. -/
structure Waiter where
  ctx : Fin 16
  held : List (Nat × Nat)
  mirrorDemand : Nat
  rootDemand : Nat
  deadline : Word
  deriving DecidableEq, Repr

/-- A page kept at a spill peer (R275): the peer's position, the slot of its area, entry and page, and the page's digest. -/
structure ParkedPage where
  peer : Word
  slot : Nat
  entry : Nat
  page : Nat
  digest : Digest
  deriving DecidableEq, Repr

/-- What was measured while a step of a context ran (R273): 2.0 GHz cycles, HBM-level stall cycles per region, HBM traffic per
entry. -/
structure Load where
  cycles : Nat := 0
  stall : Map Nat := []
  traffic : Map Nat := []
  deriving DecidableEq, Repr

/-- The ALC_ registers and the page queues (R265–R285). -/
structure Alc where
  wipePct : BitVec 7 := 25
  wipeUrgent : BitVec 7 := 50
  migratePct : BitVec 7 := 5
  migratePages : BitVec 16 := 512
  wakeGuard : BitVec 10 := 10
  gateIdle : BitVec 8 := 10
  vcMaxPct : BitVec 7 := 50
  replaySpill : BitVec 16 := 256
  spillOffer : BitVec 16 := 0
  spillPeers : BitVec 2 := 0
  /-- DIRTY pages in the order they became so; the head's first page is the one being wiped, WIPING (R266, R267) -/
  dirty : List DirtyRun := []
  waiters : List Waiter := []
  actLastCtx : BitVec 4 := 0
  actLastCause : BitVec 8 := 0
  stall : Map Word := []
  missed : BitVec 32 := 0
  lateWakes : BitVec 32 := 0
  moved : BitVec 32 := 0
  stopped : BitVec 32 := 0
  spillIn : BitVec 32 := 0
  /-- content held opaque for spill peers, keyed by the peer's place in the image and a slot number (R275) -/
  spillArea : Map Bytes := []
  /-- this Azard's mirror pages that lie at spill peers -/
  parkedPages : List ParkedPage := []
  /-- next page-table index (MIRROR_BASE, R114) -/
  nextBase : Nat := 0
  /-- entries whose copy is being moved, and pages moved per context since its last release (R273, R274) -/
  moving : List Nat := []
  movedStep : Map Nat := []
  /-- per context: what has been measured since its last release, and during its last step (R273) -/
  load : Map Load := []
  lastLoad : Map Load := []
  /-- reserve and escrow pages that a failed stack took and no CLEAN mirror page has made up yet (R20) -/
  oweReserve : Nat := 0
  oweEscrow : Nat := 0
  deriving DecidableEq, Repr

/-! ## Links (12) -/

/-- LNK_STATE.STATE (R296, R306). -/
inductive LinkState
  | down | training | hello | quarantine | up | member
  deriving DecidableEq, Repr

/-- A verdict (R225, R227). -/
inductive Verdict
  | none | alive | silent | lost
  deriving DecidableEq, Repr

/-- A HELLO message as its receiver reads it (R298, R341). -/
structure Hello where
  osfel : BitVec 8
  role : BitVec 8
  portIdx : BitVec 8
  shape : BitVec 8
  pos : Word
  expect : Word
  coord : Word
  firmware : BitVec 32
  packageEpoch : BitVec 32
  topoDigest : Digest
  chain : Bytes
  ek : Bytes
  raw : Bytes
  /-- the end entity's key, once the chain has verified -/
  key : Bytes := []
  deriving DecidableEq, Repr

/-- A slot of a tray port's Yobel that Azard holds in use (R182): the entry it was written for, STATE and CLAIM as last written,
and whether the device there is fenced for the entry (R224). -/
structure SlotUse where
  slot : Nat
  entry : BitVec 16
  st : Nat
  claim : Word
  fenced : Bool
  deriving DecidableEq, Repr

/-- One port: the LNK_ registers of R306 and R227 and the link state behind them. -/
structure Port where
  mode : BitVec 2 := 3
  width : BitVec 3 := 0
  fec : Bool := false
  anchor : BitVec 5 := 0
  fwMatch : Bool := false
  enable : Bool := false
  state : LinkState := .down
  degraded : Bool := false
  qcause : BitVec 4 := 0
  lanes : BitVec 5 := 0
  /-- the lanes that carry the link, of those configured (R297) -/
  laneSet : BitVec 16 := 0
  peerOsfel : BitVec 4 := 0
  fwDiff : Bool := false
  rewired : Bool := false
  retrains : BitVec 32 := 0
  expect : Word := 0
  peerPos : Word := 0
  peerCoord : Word := 0
  peerFw : BitVec 32 := 0
  peerRole : BitVec 2 := 0
  corrected : BitVec 32 := 0
  uncorrected : BitVec 32 := 0
  crcFail : BitVec 32 := 0
  retries : BitVec 32 := 0
  rx : Word := 0
  qNow : BitVec 16 := 0
  qMax : BitVec 16 := 0
  rtt : BitVec 32 := 0
  gobacks : BitVec 32 := 0
  modPresent : Bool := false
  modState : BitVec 3 := 0
  modFault : Bool := false
  modTemp : BitVec 8 := 0
  appsel : BitVec 8 := 0
  /-- the module's data path is to be initialised anew (R303, R304) -/
  modRestart : Bool := false
  vcq : Map (BitVec 16) := []
  verdict : Verdict := .none
  evidence : BitVec 4 := 0
  changes : BitVec 32 := 0
  heard : Word := 0
  everUp : Bool := false
  /-- corrected time at which the link last left UP -/
  downSince : Option Word := .none
  /-- evidence EPOCH_CHANGED holds (R225) -/
  epochChanged : Bool := false
  /-- the neighbour announced that it is out of service -/
  peerOos : Bool := false
  /-- hello (R298, R341): identity SUBJECT and serial of the last peer admitted, and the hello in progress -/
  peerSubject : Digest := 0
  peerSerial : Word := 0
  peerEpoch : BitVec 32 := 0
  everPeer : Bool := false
  helloSent : Bytes := []
  helloGot : Option Hello := .none
  keyOut : Digest := 0
  keyIn : Digest := 0
  saltOut : BitVec 32 := 0
  saltIn : BitVec 32 := 0
  captureKey : Digest := 0
  keysSet : Bool := false
  finishSent : Bool := false
  finishGot : Bool := false
  nonceIn : Nat := 0
  /-- the peer that said hello is not the one before (R302) -/
  rewireDue : Bool := false
  /-- contexts for which the port is closed after a re-wiring (R302) -/
  closedFor : List Nat := []
  /-- link retry (R293): expected SEQ, last good SEQ, NACK to send, discarding until the resend -/
  rxSeq : BitVec 16 := 0
  lastGood : BitVec 16 := 0xFFFF
  nackDue : Bool := false
  discarding : Bool := false
  /-- the codeword resent last and how often in a row, and resends in the millisecond of device time `resendMs` -/
  resendSeq : BitVec 16 := 0
  resendTries : Nat := 0
  resendsInMs : Nat := 0
  resendMs : Nat := 0
  /-- Osfel-L (R303): next RSN expected in, GAP found, oldest RSN not acknowledged and how often it was resent -/
  rsnIn : BitVec 48 := 0
  gapDue : Bool := false
  rsnOut : BitVec 48 := 0
  rsnTries : Nat := 0
  /-- tray ports: YBL_ID as Azard learned it, conformance passed, slots Azard holds in use (R182, R191) -/
  conformed : Bool := false
  yblId : Word := 0
  slotsUsed : List SlotUse := []
  probeSeq : BitVec 16 := 0
  probeRunning : Bool := false
  probeDigest : Digest := 0
  probeFault : BitVec 4 := 0
  /-- a tray port: signal has been detected since kindling, so an accelerator is fitted (R30; log entry 83) -/
  fitted : Bool := false
  /-- training failed or hello timed out: a retry falls due after 1 s (R296) -/
  retryDue : Bool := false
  /-- faultMap of the image (R225) -/
  faultMap : BitVec 16 := 0
  /-- the lane that is recalibrated next (R390) -/
  nextLane : Nat := 0
  /-- LNK_CMD.RETRAIN: the retrain asked for is under way (R6, R306) -/
  retrainDue : Bool := false
  deriving DecidableEq, Repr

/-- A packet on its way out of a port (R291): its VC, whether it takes the upper class of a wrapping ring (R295), its
context when CTXV = 1, and its length with every part. -/
structure WirePkt where
  vc : BitVec 5
  upper : Bool
  ctx : Option (Fin 16)
  bytes : Nat
  deriving DecidableEq, Repr

/-- Coins that one packet holds at the far end of a link: class, reserved coins and shared coins (R282, R283, R295). -/
structure Coins where
  upper : Bool
  reserved : Nat
  shared : Nat
  deriving DecidableEq, Repr

/-- The sending side of one port: coins held there by VC, oldest first, the packets that wait, bytes sent and stall
cycles (R283, R295, R306); on an Osfel-L link the replay window and the next RSN (R303). -/
structure Egress where
  taken : Map (List Coins) := []
  waiting : List WirePkt := []
  tx : Word := 0
  stall : Word := 0
  /-- the retry buffer of an Osfel-T or Osfel-F link: codewords not acknowledged, with the packet each carries a part of, and
  the next SEQ (R293) -/
  retry : List (BitVec 16 × WirePkt) := []
  txSeq : BitVec 16 := 0
  /-- packets sent since the keys were set, those with an RSN apart: the counter of the next nonce (R342) -/
  nonce : Nat := 0
  window : List (BitVec 48 × WirePkt) := []
  rsnNext : BitVec 48 := 0
  /-- position word of the spill peer that holds the window's overflow (R277, R278) -/
  spillAt : Word := 0
  deriving DecidableEq, Repr

/-- The registers of the whole fabric (R307), the announcement table (R301) and the sequence of own announcements. -/
structure Fabric where
  selfPos : Word := 0x8000000000000000
  selfCoord : Word := 0
  topo : List Topo := []
  received : BitVec 32 := 0
  topoSeq : Nat := 0
  deriving DecidableEq, Repr

/-! ## Contexts: charter, state, receipts (14) -/

/-- CTX_STATE.STATE (R334, R335). -/
inductive CtxState
  | empty | chartered | waitClean | active | quiesced | evicting | wiping
  deriving DecidableEq, Repr

/-- A node table entry (R337). -/
structure NodeDef where
  pos : Word
  lnode : BitVec 16
  role : BitVec 8
  deriving DecidableEq, Repr

/-- A clearing group's definition (R82). -/
structure GroupDef where
  group : BitVec 8
  vc : BitVec 8
  shape : BitVec 2
  order : BitVec 3
  hopAllow : BitVec 16
  lhAllow : BitVec 16
  members : Nat
  list : List (BitVec 16)
  deriving DecidableEq, Repr

/-- A redundancy pair (R247). -/
structure PairDef where
  primary : BitVec 16
  shadow : BitVec 16
  referee : BitVec 16
  group : BitVec 5
  deriving DecidableEq, Repr

/-- A charter, read from its bytes (R337). -/
structure Charter where
  startStep : Word := 0
  entryFirst : Nat := 0
  entryCount : Nat := 0
  actTimeout : Nat := 1
  voteLag : BitVec 8 := 0
  flues : List (BitVec 16) := []
  ckptSteps : BitVec 32 := 0
  ckptSeconds : BitVec 32 := 0
  baseEvery : BitVec 8 := 0
  lineage : Digest := 0
  ledgerBase : Digest := 0
  nodes : List NodeDef := []
  endpoints : List (BitVec 16 × Digest) := []
  groups : List GroupDef := []
  pairs : List PairDef := []
  sigKey : Bytes := []
  kemKey : Bytes := []
  length : Nat := 0
  deriving DecidableEq, Repr

/-- The outcome of the last command of CTX_CMD, for repeats of its SEQ (R271, R335). -/
inductive CmdOutcome
  | ok
  | busy (cause : BitVec 8)
  deriving DecidableEq, Repr

/-- A VOTE_NOTE held at the step root (R344). -/
structure VoteNote where
  node : BitVec 16
  step : Word
  roots : List (Word × Digest)
  included : List (Word × Digest) := []
  deriving DecidableEq, Repr

/-- The life of a context: CTX_STATE, CTX_CMD, CTX_CHARTER, charter and key release (R334–R340), receipts (R344–R347). -/
structure Life where
  st : CtxState := .empty
  stepRoot : Bool := false
  quiescing : Bool := false
  resuming : Bool := false
  /-- an eviction notice waits for parked copies to come home (R276) -/
  evictDue : Bool := false
  cmd : BitVec 3 := 0
  seq : BitVec 16 := 0
  acted : BitVec 16 := 0
  outcome : CmdOutcome := .ok
  count : BitVec 24 := 0
  cause : BitVec 4 := 0
  relCause : BitVec 4 := 0
  relKeysN : BitVec 16 := 0
  bytes : Mem := []
  units : List Nat := []
  length : Option Nat := none
  digest : Digest := 0
  charter : Charter := {}
  relBytes : Mem := []
  relUnits : List Nat := []
  relSeq : Word := 0
  relKeys : List (BitVec 32 × Digest) := []
  /-- this Azard's logical node in the context -/
  self : BitVec 16 := 0xFFFF
  /-- charter digests that neighbours still have to answer (R339) -/
  checks : List (BitVec 16) := []
  /-- the request of an ACTIVATE that waits for those answers, or of a RESUME that waits for parked copies (R276) -/
  waitReq : Option Req := none
  /-- an activation holds its pages and waits for its program transfers (R164) -/
  activating : Bool := false
  /-- REQ_IDs of the program transfers that an activation or a RESUME waits for (R164) -/
  transfers : List (BitVec 32) := []
  receiptStep : Word := 0
  /-- the step before that of the next receipt (R344) -/
  issued : Word := 0
  receipts : Map Bytes := []
  lastReceipt : Digest := 0
  notes : List VoteNote := []
  /-- the next receipt is the first after activation, or after a restore of that sequence (R346) -/
  firstReceipt : Bool := true
  restoredSeq : Option (BitVec 32 × Digest) := none
  deriving DecidableEq, Repr

/-! ## Steps (02) -/

/-- CTX_STEP_PHASE.PHASE (R55). -/
inductive Phase
  | none | opened | released | updated | voted | voided
  deriving DecidableEq, Repr

/-- A latched record (R34): VOTE_LAG and CKPT_MODE of the control word, and bytes 0x08–0xBF. -/
structure Latched where
  voteLag : BitVec 4
  ckptMode : BitVec 2
  bytes : Bytes
  deriving DecidableEq, Repr

/-- One accepted attempt (R32, R36, R39). -/
structure Attempt where
  step : Word
  attempt : BitVec 16
  latched : Latched
  tag : Word
  lag : BitVec 4
  phase : Phase
  cause : BitVec 4
  origin : BitVec 16
  /-- this step's staging hearths (R91), fixed when it opened -/
  hearths : List Nat
  /-- when the deadline of the step's update, digests and vote passes, set at its release (R279) -/
  deadline : Word := 0
  deriving DecidableEq, Repr

/-- The step status of a context (R34–R56). -/
structure StepSt where
  window : Mem := []
  cur : Word := 0
  attempt : BitVec 16 := 0
  phase : Phase := .none
  lagWait : Bool := false
  voidCause : BitVec 4 := 0
  voteLag : BitVec 4 := 0
  refuse : BitVec 4 := 0
  voidOrigin : BitVec 16 := 0
  released : Word := 0
  voted : Word := 0
  tag : Word := 0
  voids : BitVec 32 := 0
  /-- accepted attempts of this activation, newest first -/
  accepted : List Attempt := []
  /-- the committed attempt's record (R240) -/
  committed : Option Attempt := none
  /-- steps RELEASED here and not yet UPDATED, and UPDATED and not yet VOTED -/
  updating : List Word := []
  voting : List Word := []
  /-- steps at which a shard of this node found no majority: they are never VOTED here (R39) -/
  stuck : List Word := []
  /-- committed step set at activation or by the newest accepted restore (R45) -/
  baseStep : Word := 0
  /-- lag clearances received: node and attempt; and the newest attempt for which this node's own stands (R45) -/
  clears : List (BitVec 16 × AttHdr) := []
  clearSent : Option AttHdr := none
  /-- step root: earliest divergent step (R46) -/
  divergent : Option Word := none
  /-- step root: reset notes already seen (node, epoch) (R378) -/
  resetNotes : List (BitVec 16 × BitVec 32) := []
  /-- restored cursor and random-stream records (R215) -/
  restored : Bytes := []
  deriving DecidableEq, Repr

/-! ## Clearing (03, 04) -/

/-- The tree of a group as this node sees it, and CLR_VCv (R90, R95, R106). -/
structure GroupTree where
  defn : GroupDef
  /-- the clearing nodes of the group -/
  nodes : List (BitVec 16)
  /-- this node is a clearing node of the group -/
  clearing : Bool
  transit : Bool
  parent : Option (BitVec 16)
  parentPort : BitVec 5
  children : List (BitVec 16)
  isRoot : Bool
  root : BitVec 16
  height : Nat
  /-- A(n), in µs -/
  allow : Nat
  /-- A of the group's root, and the allowance of its report's hop to the step root, in µs (R95) -/
  rootAllow : Nat
  reportAllow : Nat
  rootPages : Nat
  deriving DecidableEq, Repr

/-- An input an attempt awaits (R96, R437): a member's contribution to a segment, or a child's partial of a chunk. -/
inductive InputKey
  | member (seg : BitVec 12) (node : BitVec 16)
  | child (seg : BitVec 12) (chunk : Nat) (node : BitVec 16)
  deriving DecidableEq, Repr

/-- A released step's sums of one segment as they come down: the step and attempt, the window base and status they are
rounded under, blocks as received, rounded results, and the (member, chunk) pairs delivered (R94, R99, R100). -/
structure Round where
  step : Word
  attempt : BitVec 16
  e0 : BitVec 16
  maxexp : BitVec 16
  nonfinite : Bool
  range : Bool
  forced : Bool
  blocks : Map Bytes
  bytes : Mem
  delivered : List (BitVec 16 × Nat)
  deriving DecidableEq, Repr

/-- One segment of a context: descriptor and status (R85, R105), window base (R67, R68), staging of the newest
attempt (R91–R94), and the rounded result (R99). -/
structure Seg where
  elements : BitVec 32 := 0
  group : BitVec 5 := 0
  cfmt : BitVec 4 := 0
  rfmt : BitVec 4 := 0
  auto : Bool := false
  sr : Bool := false
  nonfinite : Bool := false
  winOvf : Bool := false
  range : Bool := false
  forced : Bool := false
  maxexp : BitVec 16 := 0x8000
  e0 : BitVec 16 := 0
  attempt : BitVec 16 := 0
  /-- INIT_E0 as written while CHARTERED -/
  initE0 : BitVec 16 := 0
  /-- maximum exponent and E0 of the newest committed attempt (R67); none before the first -/
  commMax : Option (BitVec 16) := none
  commE0 : BitVec 16 := 0
  /-- the repeat window of the step being tried (R68): the step it was forced in and its E0 -/
  forceFor : Option (Word × BitVec 16) := none
  /-- ledger staging: element ↦ exact partial sum -/
  sums : Map (BitVec 128) := []
  /-- elements that a non-finite, or an overflowing, contribution entered -/
  nf : List Nat := []
  ovfEl : List Nat := []
  /-- blocks an overflowing contribution entered -/
  ovfBlk : List Nat := []
  /-- contribution bytes accepted in this attempt, by node -/
  raw : Map Mem := []
  /-- units accepted in this attempt: (node, unit) -/
  units : List (BitVec 16 × Nat) := []
  /-- child blocks accumulated: (child, block) -/
  blocks : List (BitVec 16 × Nat) := []
  /-- upward blocks sent (block indices) -/
  sent : List Nat := []
  /-- MAXEXP per block of what entered it -/
  blkMax : Map (BitVec 16) := []
  /-- released steps whose sums come down or are delivered, newest first -/
  rounds : List Round := []
  /-- contribution digests of pairs (R248): node ↦ sum of H(u) -/
  pairDigest : Map Digest := []
  /-- chunks staged in hearth SRAM, and in HBM chunk slots, each with its region (R91) -/
  sramChunks : List (Nat × Nat) := []
  hbmChunks : List (Nat × Nat) := []
  deriving DecidableEq, Repr

/-- A block or report held for a later event (R99, R103). -/
structure HeldBlock where
  up : Bool
  seg : BitVec 12
  child : BitVec 16
  hdr : AttHdr
  data : Bytes
  stamp : Stamp
  deriving DecidableEq, Repr

/-- STATUS of a pair (TST_PAIR_TPk.STATUS, R250, R264). -/
inductive PairStatus
  | none | agreed | mismatch | refereeArmed | shadowOdd | refereeOdd | primaryOdd | undecided
  deriving DecidableEq, Repr

/-- A pair's outcome bookkeeping (R250). -/
structure PairSt where
  defn : PairDef
  status : PairStatus := .none
  armed : Bool := false
  /-- the step of the newest mismatch and how many attempts in a row mismatched -/
  missStep : Word := 0
  missRun : Nat := 0
  decided : Bool := false
  /-- the step in which PRIMARY_ODD was decided -/
  oddStep : Option Word := .none
  deriving DecidableEq, Repr

/-- The clearing state of a context. -/
structure ClrCtx where
  /-- root staging pages by stack (R94, R268) -/
  rootAlloc : List (Nat × Nat) := []
  segs : Map Seg := []
  groups : List GroupTree := []
  /-- arrival stamps of completed inputs of the open attempt (R96) -/
  arrived : List (InputKey × Stamp) := []
  held : List HeldBlock := []
  /-- step root: groups that reported for the open attempt, stamp of arrival, segments -/
  reports : List (BitVec 5 × Stamp × List SegReport) := []
  /-- reports and VOIDs for an attempt whose record is not accepted here yet -/
  heldReports : List (AttHdr × BitVec 5 × Stamp × List SegReport) := []
  heldVoids : List (AttHdr × BitVec 4 × BitVec 16 × BitVec 16 × List SegReport) := []
  /-- groups that passed their deadline judgement, and groups whose root reported from here (R96, R97) -/
  judged : List (BitVec 5) := []
  reported : List (BitVec 5) := []
  /-- groups whose RELEASE of the newest released step has gone down from here (R99) -/
  relGroups : List (BitVec 5) := []
  /-- the step root, the slice's Azards, those outside the step root's tree, those in no tree (R41, R45, R99) -/
  root : BitVec 16 := 0xFFFF
  azards : List (BitVec 16) := []
  direct : List (BitVec 16) := []
  idle : List (BitVec 16) := []
  pairs : List PairSt := []
  deriving DecidableEq, Repr

/-- The CLR_ registers of the whole Azard (R106). -/
structure Clr where
  blockErr : BitVec 32 := 0
  late : BitVec 32 := 0
  dup : BitVec 32 := 0
  stale : BitVec 32 := 0
  deriving DecidableEq, Repr

/-! ## Program store and step-program runs (06) -/

/-- A program slot's STATE (R161). -/
inductive SlotState
  | empty | loading | installed | refused
  deriving DecidableEq, Repr

/-- A program slot (R161). -/
structure Slot where
  st : SlotState := .empty
  cmd : BitVec 4 := 0
  cause : BitVec 8 := 0
  seq : BitVec 16 := 0
  acted : BitVec 16 := 0
  length : BitVec 32 := 0
  count : BitVec 32 := 0
  programId : BitVec 16 := 0
  digest : Digest := 0
  bytes : Mem := []
  units : List Nat := []
  deriving DecidableEq, Repr

/-- A context's program store and the outcome of its runs (R160–R167). -/
structure ProgCtx where
  slots : Map Slot := []
  hyper : Mem := []
  fault : BitVec 4 := 0
  section_ : BitVec 3 := 0
  abortCode : BitVec 16 := 0
  entry : BitVec 16 := 0
  index : BitVec 24 := 0
  step : Word := 0
  flags : BitVec 5 := 0
  faults : BitVec 32 := 0
  deriving DecidableEq, Repr

/-- An exact accumulator (R79): the 384-bit sum and whether a non-finite term entered. -/
structure Acc where
  sum : BitVec 384 := 0
  nan : Bool := false
  deriving DecidableEq, Repr

/-- The registers an instance starts from and carries (R141, R149). -/
structure Regs where
  v : Map (BitVec 16384) := []
  t : Map (BitVec 131072) := []
  s : Map Word := []
  acc : Map Acc := []
  vl : BitVec 12 := 0
  ftz : Bool := false
  estat : BitVec 5 := 0
  deriving DecidableEq, Repr

/-- The sections of a run, coded as SECTION (R143, R147). -/
inductive Section
  | pre | sweep | mid | body | post
  deriving DecidableEq, Repr

/-- Which copy a run updates. -/
inductive Copy
  | mirror (entry : BitVec 16)
  | yobel (port : Fin 9) (slot : BitVec 12)
  deriving DecidableEq, Repr

/-- An image's header as a run uses it (R163). -/
structure ProgHdr where
  programId : BitVec 16 := 0
  length : Nat := 0
  codeWords : Nat := 0
  scratch : Nat := 0
  hyperMin : Nat := 0
  insnLimit : Nat := 0
  entries : List Nat := []
  sweepGrain : Nat := 0
  bodyGrain : Nat := 0
  sweepCountAt : Nat := 0
  charterDigest : Digest := 0
  magic : BitVec 32 := 0
  format : BitVec 16 := 0
  reserved : Bool := true
  deriving DecidableEq, Repr

/-- One vector engine: the section instance it executes and the run that instance belongs to (R141–R153, R165). -/
structure Engine where
  running : Bool := false
  copy : Copy := .mirror 0
  ctx : Fin 16 := 0
  hdr : ProgHdr := {}
  code : List Word := []
  stepNo : Word := 0
  key : Word := 0
  segCount : Nat := 0
  /-- views (R146): state and gradient at the run's start, hyper bytes, scratch, lengths -/
  state : Mem := []
  stateLen : Nat := 0
  grad : Mem := []
  gradLen : Nat := 0
  hyper : Mem := []
  scratch : Mem := []
  /-- the section instance in progress -/
  sect : Section := .pre
  inst : Nat := 0
  /-- instances of this section that have ended -/
  done : List Nat := []
  pc : Nat := 0
  icount : Nat := 0
  regs : Regs := {}
  /-- buffered stores of the instance, newest first (tagged address, byte), and their number; pages loaded from -/
  stores : List (Nat × Byte) := []
  stored : Nat := 0
  touched : List Nat := []
  /-- a repair was installed on a page that the instance had touched; pages whose repair its rerun waits for (R169) -/
  stale : Bool := false
  awaits : List Nat := []
  /-- pages that ended instances of this run have stored to -/
  dirty : List Nat := []
  /-- the registers the instance started with, for its rerun (R17, R169) -/
  first : Regs := {}
  /-- what the preceding serial section left (R149) -/
  base : Regs := {}
  /-- sums of the instances' accumulators and OR of their ESTAT -/
  accSum : Map Acc := []
  estatOr : BitVec 5 := 0
  /-- the fault of the lowest-numbered faulting instance: (instance, code, section, abort code, index) -/
  faulted : Option (Nat × BitVec 4 × Section × BitVec 16 × Nat) := none
  /-- OR of the ESTAT of every section instance that ran -/
  finalFlags : BitVec 5 := 0
  finished : Bool := false
  deriving DecidableEq, Repr

/-! ## Binding (09) -/

/-- CTX_BIND_CMD, CTX_BIND_STATUS (R230) and the bindings of logical nodes to tray ports. -/
structure BindCtx where
  logical : BitVec 16 := 0
  port : BitVec 4 := 0
  seq : BitVec 16 := 0
  acted : BitVec 16 := 0
  st : BitVec 2 := 0
  cause : BitVec 8 := 0
  stSeq : BitVec 16 := 0
  stLogical : BitVec 16 := 0
  oldPort : BitVec 4 := 0xF
  /-- REQ_IDs of a bind's writes that are not acknowledged yet (R229) -/
  ids : List (BitVec 32) := []
  /-- node ↦ tray port now -/
  bound : List (BitVec 16 × BitVec 4) := []
  /-- nodes ever bound to a port of this Azard in the context -/
  ever : List (BitVec 16) := []
  deriving DecidableEq, Repr

/-! ## Escrow and checkpoints (08) -/

/-- A held page whose old content was copied into escrow (R201). -/
structure EscPage where
  entry : BitVec 16
  page : Nat
  version : BitVec 32
  bytes : Mem
  stack : Nat
  deriving DecidableEq, Repr

/-- A PUT outstanding: flue index, KIND of the object, entry and page (R206, R209). -/
structure PutOut where
  target : BitVec 8
  kind : Nat
  entry : Nat
  page : Nat
  deriving DecidableEq, Repr

/-- SHARD_DONE at the step root (R213), with the other sequences that the shard's page entries name. -/
structure ShardDone where
  shardId : Word
  claim : Word
  target : BitVec 8
  digest : Digest
  named : List (BitVec 32) := []
  deriving DecidableEq, Repr

/-- The ESC_ registers of a context and its checkpoint in progress (R197–R219). -/
structure EscCtx where
  steps : BitVec 32 := 0
  seconds : BitVec 17 := 0
  baseEvery : BitVec 8 := 0
  targets : BitVec 3 := 0
  curSeq : BitVec 32 := 0
  phase : BitVec 2 := 0
  base : Bool := false
  deferred : Bool := false
  ckptStep : Word := 0
  doneSeq : BitVec 32 := 0
  abandonCause : BitVec 8 := 0
  doneStep : Word := 0
  rstMax : BitVec 32 := 0
  rstCmd : BitVec 2 := 0
  rstSeqno : BitVec 16 := 0
  rstActed : BitVec 16 := 0
  rstState : BitVec 3 := 0
  rstCause : BitVec 8 := 0
  rstSeq : BitVec 32 := 0
  rstStep : Word := 0
  /-- checkpoint key of the snapshot (vault) -/
  key : Option Digest := none
  kemCt : Bytes := []
  wrap : Bytes := []
  /-- snapshot time, and the reference step and time of R197 -/
  snapTime : Word := 0
  refStep : Word := 0
  refTime : Word := 0
  /-- newest sequence given out, newest committed base and committed checkpoints after it (R200) -/
  lastSeq : BitVec 32 := 0
  baseSeq : BitVec 32 := 0
  sinceBase : Nat := 0
  /-- a snapshot was deferred and is still to be taken (R198) -/
  pendingSnap : Bool := false
  /-- entries the checkpoint includes here -/
  included : List (BitVec 16) := []
  /-- the snapshot's latched record bytes 0x40–0xBF and the windows of its segments: (segment, E0, MAXEXP) (R213) -/
  latched : Bytes := []
  windows : List (BitVec 12 × BitVec 16 × BitVec 16) := []
  /-- step root: shards of the checkpoint with their DIGEST_ROOTs, and the receipt's digest, once the receipt is issued (R344) -/
  shards : List (Word × Digest) := []
  head : Option Digest := none
  /-- step root: SHARD_DONE received; the manifest has been PUT; manifests awaiting acknowledgement -/
  doneList : List ShardDone := []
  manifestPut : Bool := false
  manifestsOut : Nat := 0
  /-- step root: keys of the committed checkpoints from the newest base on (R213) -/
  chain : List (BitVec 32 × Digest) := []
  /-- object bytes acknowledged for the checkpoint in progress (R214) -/
  drained : Nat := 0
  pages : List EscPage := []
  /-- PUTs outstanding at the flue targets (R206) -/
  puts : List PutOut := []
  /-- the restored manifest's key chain, for FILL RESTORE (R215, R216) -/
  rstKeys : List (BitVec 32 × Digest) := []
  deriving DecidableEq, Repr

/-- The ESC_ registers of the whole Azard (R219). -/
structure Esc where
  poolGib : BitVec 8 := 64
  lowWater : BitVec 7 := 25
  damperPct : BitVec 7 := 10
  fullPct : BitVec 7 := 100
  outstanding : BitVec 6 := 16
  damperOpen : Bool := false
  waiting : Bool := false
  cow : BitVec 32 := 0
  abandoned : BitVec 32 := 0
  sent : BitVec 32 := 0
  resent : BitVec 32 := 0
  bytes : Word := 0
  refetch : BitVec 32 := 0
  digestFail : BitVec 32 := 0
  deriving DecidableEq, Repr

/-! ## Shard ledger and mirrors (05) -/

/-- STATE of a shard ledger entry (R114). -/
inductive EntryState
  | free | defined | filling | live | fenced | divergent | retiring
  deriving DecidableEq, Repr

/-- A page's vote in progress at the local Azard (R125, R126): the digests in so far. -/
structure Vote where
  page : Nat
  version : BitVec 32
  step : Word
  y : Option Digest
  l : Option Digest
  p : Option Digest
  outcome : Option VoteOutcome
  digest : Digest
  deriving DecidableEq, Repr

/-- The copy a repair writes (R127). -/
inductive Target
  | accel | locl | partner
  deriving DecidableEq, Repr

/-- A repair in progress (R127, R128). -/
structure Repair where
  page : Nat
  target : Target
  version : BitVec 32
  tries : Nat
  /-- the accelerator holds the page at the version (R187) -/
  held : Bool
  /-- the page has been sent and its digest is awaited -/
  sent : Bool
  /-- the source's digest at the version, once known -/
  digest : Option Digest
  deriving DecidableEq, Repr

/-- What the vote in progress closes: nothing, a fill, a SEAL or a REMIRROR (R117, R131, R138). -/
inductive Closing
  | none | fill | seal | remirror
  deriving DecidableEq, Repr

/-- A mirror-window WR that awaits the acknowledgements of the other copies (R137). -/
structure WindowWrite where
  req : Req
  ids : List (BitVec 32)
  deriving DecidableEq, Repr

/-- A fill in progress (R120, R231–R236). -/
structure Fill where
  /-- sending has begun -/
  started : Bool := false
  fromPartner : Bool := false
  version : BitVec 32 := 0
  next : Nat := 0
  /-- pages outstanding, with tries -/
  out : List (Nat × Nat) := []
  confirmed : List Nat := []
  /-- the slot's fill words are being read, for the start page (R234) -/
  reading : Bool := false
  /-- RESTORE: the manifest's page entries: digest, SRC_SEQ, TARGET (R216); the entry's state before the request -/
  pages : List (Digest × BitVec 32 × BitVec 8) := []
  was : EntryState := .defined
  deriving DecidableEq, Repr

/-- A shard ledger entry: the fields of R114, its copy's pages and bytes, votes, repairs and fill. -/
structure Entry where
  st : EntryState := .free
  degradedL : Bool := false
  degradedP : Bool := false
  unrecoverable : Bool := false
  editOpen : Bool := false
  req : BitVec 4 := 0
  /-- FILL_SOURCE as last written, and the source of the fill accepted last -/
  fillField : BitVec 4 := 0
  fillSource : BitVec 4 := 0
  reqSeq : BitVec 16 := 0
  ctx : BitVec 4 := 0
  result : BitVec 8 := 0
  claim : Word := 0
  shardId : Word := 0
  length : BitVec 40 := 0
  pages : BitVec 32 := 0
  owner : BitVec 16 := 0
  partner : BitVec 16 := 0
  mirrorBase : BitVec 32 := 0
  windowBase : BitVec 19 := 0
  committed : Word := 0
  program : BitVec 16 := 0
  group : BitVec 5 := 0
  role : Bool := false
  version : BitVec 32 := 0
  digestRoot : Digest := 0
  fillDone : BitVec 32 := 0
  fillNext : BitVec 32 := 0
  votedStep : Word := 0
  repairs : BitVec 32 := 0
  partnerEntry : BitVec 16 := 0
  taintFrom : Word := 0
  hyper : Word := 0
  segFirst : BitVec 12 := 0
  segCount : BitVec 12 := 0
  stream : BitVec 32 := 0
  ckptStep : Word := 0
  ckptSeq : BitVec 32 := 0
  drainOwner : Bool := false
  ckptRoot : Digest := 0
  /-- the last REQ_SEQ accepted (R115); none since FREE -/
  seqActed : Option (BitVec 16) := none
  /-- when the request in progress was accepted (R279) -/
  reqAt : Word := 0
  /-- pages of this copy by stack (R265) -/
  alloc : List (Nat × Nat) := []
  /-- the copy's bytes -/
  mem : Mem := []
  /-- the image and hyper bytes received for the entry (R164) -/
  image : Bytes := []
  hyperBytes : Bytes := []
  /-- steps RELEASED whose update has not run on this copy -/
  queued : List Word := []
  votes : List Vote := []
  /-- newest step at which all three copies of a page agreed (R133) -/
  agreedAt : Map Word := []
  repairing : List Repair := []
  fill : Fill := {}
  /-- digests sent to the local Azard and not acknowledged (partner entry, R222) -/
  digestsOut : List (Nat × BitVec 32 × Digest) := []
  /-- a checkpoint in progress holds this copy at `snapVersion` (R200) -/
  frozen : Bool := false
  /-- DIGEST_ROOT of voted versions whose step this node has not brought to VOTED, by step (R344) -/
  rootsAt : List (Word × Digest) := []
  /-- pages written since the snapshot of CKPT_SEQ (R200) -/
  written : List Nat := []
  /-- pages written since the snapshot of the checkpoint in progress -/
  writtenNew : List Nat := []
  /-- pages held for the checkpoint in progress (R201), the drain set still to send, snapshot version -/
  heldPages : List Nat := []
  drainSet : List Nat := []
  snapVersion : BitVec 32 := 0
  /-- DIGEST_ROOT at the snapshot version (R214) -/
  snapRoot : Digest := 0
  /-- voted digests of the pages at the snapshot version (R206, R212) -/
  snapVoted : Map Digest := []
  /-- pages acknowledged in the current drain (R206), pages asked of the other mirror, whether the SHARD_MANIFEST has gone
  out, whether a takeover's LIST is unanswered, whether the target refused the drain claim (R211) -/
  acked : List Nat := []
  heldAsked : List Nat := []
  manifestSent : Bool := false
  listing : Bool := false
  drainStop : Bool := false
  /-- SRC_SEQ and TARGET of each page: the sequence whose PAGE object holds its bytes, and the flue index (R212) -/
  src : Map (BitVec 32 × BitVec 8) := []
  /-- parked at a spill peer (R276), and its pages still to come home -/
  parked : Bool := false
  parkedAt : Word := 0
  parkedLeft : List Nat := []
  /-- outstanding mirror-window writes (R137, R138) -/
  windowWrites : List WindowWrite := []
  /-- voted digests of the newest version whose vote concluded (R126) -/
  votedPages : Map Digest := []
  /-- the vote that closes a request, and the copies a REMIRROR rebuilds (R131) -/
  closing : Closing := .none
  rebuildL : Bool := false
  rebuildP : Bool := false
  /-- a SEAL waits for mirror-window writes or for escrow (R138, R203) -/
  sealDue : Bool := false
  /-- pages a REMIRROR has still to copy -/
  rebuildLeft : List Nat := []
  /-- newest version for which the accelerator, and the partner, delivered a digest -/
  seenY : BitVec 32 := 0
  seenP : BitVec 32 := 0
  /-- the accelerator votes again only from the version after this one (R237) -/
  rejoin : Option (BitVec 32) := none
  /-- a REMIRROR waits for the pending votes (R140) -/
  remirrorDue : Bool := false
  /-- lines of the copy that scrub has asked for again: page, line (R388) -/
  scrubLines : List (Nat × Nat) := []
  /-- the other Azard's entry of the shard is FREE again (R117) -/
  peerFree : Bool := false
  /-- logical node of the Azard that holds the other entry of the shard -/
  peer : BitVec 16 := 0
  /-- an update waits for escrow (R203): its step -/
  waitEscrow : Option Word := none
  deriving DecidableEq, Repr

/-- The MIR_ block (R139), the shard ledger's entries and its two table copies (R108, R113). -/
structure Mir where
  entries : Map Entry := []
  digestWait : BitVec 16 := 1000
  repairTries : BitVec 4 := 3
  crossSite : Bool := false
  agreed : Word := 0
  oddAccel : BitVec 32 := 0
  oddMirror : BitVec 32 := 0
  divergent : BitVec 32 := 0
  repairFail : BitVec 32 := 0
  suspect : Map (BitVec 32 × BitVec 32) := []
  suspectSelf : BitVec 32 := 0
  suspectSelfStep : BitVec 32 := 0
  stackA : BitVec 3 := 0
  stackB : BitVec 3 := 2
  rebuild : Bool := false
  twinRepairs : BitVec 32 := 0
  lastEntry : BitVec 16 := 0
  lastPage : BitVec 19 := 0
  lastOutcome : BitVec 3 := 0
  lastCtx : BitVec 4 := 0
  lastStep : Word := 0
  /-- entry cache misses (R112, R139) -/
  misses : BitVec 32 := 0
  /-- digest records kept (R185), with the context of each -/
  records : List (Nat × DigestRec) := []
  deriving DecidableEq, Repr

/-! ## Verification and test (10) -/

/-- An installed pattern set (R254, R255). -/
structure PatternSet where
  set : BitVec 32
  cls : BitVec 16
  counter : BitVec 32
  length : Nat
  testMs : BitVec 32
  patterns : BitVec 32
  deriving DecidableEq, Repr

/-- A failure signature (R261). -/
structure Signature where
  unit : UnitRef
  stream : Bytes
  time : Word
  deriving DecidableEq, Repr

/-- TST registers of one tray port (R264). -/
structure TstPort where
  capMismatch : BitVec 16 := 0
  pairOdd : BitVec 16 := 0
  suspect : Bool := false
  flagged : Bool := false
  overdue : Bool := false
  lastResult : BitVec 3 := 0
  cause : BitVec 4 := 0
  pairValid : Bool := false
  pairCtx : BitVec 4 := 0
  pairShadow : BitVec 16 := 0
  pairStatus : PairStatus := .none
  mismatches : BitVec 16 := 0
  transient : BitVec 16 := 0
  due : Word := 0
  /-- a fenced suspect device is being drained (R252) -/
  draining : Bool := false
  /-- by context, the step of the tag last written to the Yobel there (R178, R243) -/
  tagStep : Map Word := []
  /-- capture records accepted: (step, unit, position) (R243) -/
  capSeen : List (Word × BitVec 16 × BitVec 32) := []
  /-- SEQ of a grant not yet reported -/
  grantOpen : Option (BitVec 16) := none
  deriving DecidableEq, Repr

/-- The TST_ block (R264). -/
structure Tst where
  slack : BitVec 4 := 4
  deferH : BitVec 10 := 72
  accelH : BitVec 10 := 24
  rotateMin : BitVec 11 := 60
  oddPages : BitVec 16 := 2
  capLimit : BitVec 16 := 1
  pairLimit : BitVec 16 := 1
  records : BitVec 32 := 0
  mismatch : BitVec 32 := 0
  skipNonfinite : BitVec 32 := 0
  malformed : BitVec 16 := 0
  backlog : BitVec 16 := 0
  suspect : Bool := false
  /-- a DRAIN that has not drained Azard yet (R6, R253) -/
  draining : Bool := false
  flagged : Bool := false
  cause : BitVec 8 := 0
  uncovPorts : BitVec 9 := 0
  uncovCount : BitVec 32 := 0
  packCmd : BitVec 2 := 0
  packSet : BitVec 32 := 0
  packSeqno : BitVec 16 := 0
  packActed : BitVec 16 := 0
  packState : BitVec 2 := 0
  packCause : BitVec 8 := 0
  packStSet : BitVec 32 := 0
  active : BitVec 32 := 0
  sets : List PatternSet := []
  grantPort : BitVec 4 := 0
  grantSeq : BitVec 16 := 0
  grantActed : BitVec 16 := 0
  grantSet : BitVec 32 := 0
  grantStart : Word := 0
  grantEnd : Word := 0
  grantState : BitVec 2 := 0
  grantCause : BitVec 8 := 0
  grantResult : BitVec 3 := 0
  grantStSeq : BitVec 16 := 0
  grantStPort : BitVec 4 := 0
  sigCmd : BitVec 2 := 0
  sigClass : BitVec 8 := 0
  sigIndex : BitVec 8 := 0
  sigSeq : BitVec 16 := 0
  sigActed : BitVec 16 := 0
  sigState : BitVec 2 := 0
  sigStream : Bytes := []
  sigCursor : Nat := 0
  signatures : List Signature := []
  ports : Map TstPort := []
  /-- the capture queue (R245), oldest first: (port, record), and its bytes -/
  queue : List (Fin 9 × CaptureRec) := []
  queueBytes : Nat := 0
  deriving DecidableEq, Repr

/-! ## Event recorder, tallies, inputs, telemetry (17) -/

/-- An event record (R398). -/
structure Record where
  seq : BitVec 32
  cls : BitVec 8
  number : BitVec 16
  source : BitVec 32
  rpt : BitVec 16
  queued : Bool
  opSec : Word
  cycles : BitVec 32
  first : Word
  last : Word
  w0 : BitVec 32
  w1 : BitVec 32
  w2 : BitVec 32
  deriving DecidableEq, Repr

/-- A FAULT_IN input's conditioning (R397). -/
structure Input where
  asserted : Bool := false
  masked : Bool := false
  /-- the conditioned level, acted on or not -/
  level : Bool := false
  lastActed : Option Word := none
  stuck : BitVec 16 := 0
  fast : BitVec 16 := 0
  accepted : BitVec 16 := 0
  /-- start of the window of MIN_PERIOD in which FIN-003 was last recorded -/
  fastSince : Option Word := none
  /-- start of the conditioned level, or of the hold window that an unmasking restarts (R397) -/
  since : Word := 0
  deriving DecidableEq, Repr

/-- The EVR_ block (R400), the recorder's partition and queue, tallies (R393) and NAND (R392). -/
structure Evr where
  /-- closed records in the NAND, oldest first -/
  stored : List Record := []
  opened : Option Record := none
  queue : List Record := []
  nextSeq : BitVec 32 := 0
  cursor : BitVec 32 := 0
  freeze : Bool := false
  /-- when FREEZE was set, and LOST then (R400) -/
  freezeAt : Word := 0
  lostAtFreeze : BitVec 32 := 0
  lost : BitVec 32 := 0
  overwritten : BitVec 32 := 0
  tallySel : BitVec 8 := 0
  tallies : Map Word := []
  inputs : Map Input := []
  /-- newest valid tally journal record and its sequence number (R394) -/
  journal : Map Word := []
  journalSeq : Nat := 0
  journalDamaged : Bool := false
  journalPrev : Map Word := []
  /-- spare blocks used, and partitions whose writes have stopped: 0 pattern store, 1 pack staging, 2 event recorder,
  3 tally journal (R392) -/
  spareUsed : Nat := 0
  stopped : List Nat := []
  deriving DecidableEq, Repr

/-- The TEL_ block (R395, R396). -/
structure Tel where
  seq : Word := 0
  time : Word := 0
  hold : Bool := false
  /-- when HOLD was set (R396) -/
  holdAt : Word := 0
  skipped : BitVec 32 := 0
  periodH : BitVec 8 := 24
  passes : BitVec 32 := 0
  detected : BitVec 32 := 0
  /-- the snapshot area, offset ↦ 64-bit word (R395) -/
  snap : Map Word := []
  deriving DecidableEq, Repr

/-! ## Security (14) -/

/-- SEC_LC.STATE (R353). -/
inductive LifeCycle
  | blank | provisioned | owned | service | retired
  deriving DecidableEq, Repr

/-- The states of the test access port's controller (IEEE 1149.1; R422, R423). -/
inductive TapState
  | testLogicReset | runTest
  | selectDr | captureDr | shiftDr | exit1Dr | pauseDr | exit2Dr | updateDr
  | selectIr | captureIr | shiftIr | exit1Ir | pauseIr | exit2Ir | updateIr
  deriving DecidableEq, Repr

/-- The SEC_ block (R353) and the vault's device-wide keys (R331). -/
structure Sec where
  lc : LifeCycle := .owned
  selftest : BitVec 2 := 1
  error : Bool := false
  failed : BitVec 6 := 0
  jtag : Bool := false
  identity : Digest := 0
  identityKey : Bytes := []
  kemKey : Bytes := []
  identityChain : Bytes := []
  kemCert : Bytes := []
  opKey : Bytes := []
  opSubject : Digest := 0
  nonce : Word := 0
  lcSeq : BitVec 16 := 0
  lcActed : BitVec 16 := 0
  lcLength : BitVec 32 := 0
  lcState : BitVec 2 := 0
  lcCause : BitVec 8 := 0
  lcData : Bytes := []
  reseeds : BitVec 32 := 0
  healthFail : BitVec 32 := 0
  failTimes : List Word := []
  requests : Nat := 0
  sourceDrops : BitVec 32 := 0
  zeroCount : BitVec 32 := 0
  zeroLast : BitVec 4 := 0
  spillKey : Option Digest := none
  drbgValid : Bool := true
  /-- the test access port's controller; outside SERVICE it is held in Test-Logic-Reset (R423) -/
  tap : TapState := .testLogicReset
  deriving DecidableEq, Repr

/-! ## Watchdog (16 R380) -/

/-- RST_WDn and the release intervals behind it (R380, R386). -/
structure Wd where
  limit : BitVec 32 := 0
  median : BitVec 31 := 0
  armed : Bool := false
  /-- the last 16 release intervals, in ns -/
  intervals : List Nat := []
  lastRelease : Option Word := none
  /-- acceptance of the step record whose first contribution unit is still to come, and the last 16 intervals from an
  acceptance to that unit, in ns (R281) -/
  acceptedAt : Option Word := none
  firstGaps : List Nat := []
  deriving DecidableEq, Repr

/-- One context C*n*. -/
structure Ctx where
  life : Life := {}
  step : StepSt := {}
  clr : ClrCtx := {}
  prog : ProgCtx := {}
  bind : BindCtx := {}
  esc : EscCtx := {}
  wd : Wd := {}
  epoch : BitVec 16 := 1
  deriving DecidableEq, Repr

/-! ## Yobel (07) -/

/-- YBL_CTX_STATUS.STATE (R177). -/
inductive YCtxState
  | empty | joined | removing
  deriving DecidableEq, Repr

/-- A context's registers at a Yobel (R177). -/
structure YCtx where
  logical : BitVec 16 := 0
  azardNode : BitVec 16 := 0
  valid : Bool := false
  claim : Word := 0
  step : Word := 0
  attempt : BitVec 16 := 0
  tag : Word := 0
  /-- the open attempt, as latched by the write of TAG -/
  openAtt : Option AttHdr := none
  cmd : BitVec 2 := 0
  cmdSeq : BitVec 16 := 0
  cmdActed : BitVec 16 := 0
  st : YCtxState := .empty
  epoch : BitVec 16 := 0
  segsDone : BitVec 16 := 0
  dropped : BitVec 16 := 0
  tiles : BitVec 7 := 16
  windowLog2 : BitVec 5 := 16
  /-- contributions stopped: by NACK_CLAIM until a larger claim; for the open attempt (R179) -/
  claimStop : Bool := false
  stopped : Bool := false
  /-- segments every unit of which is answered OK in the open attempt -/
  segsOk : List (BitVec 12) := []
  /-- units answered OK in the open attempt, and units not yet answered -/
  done : List (BitVec 12 × Nat) := []
  inFlight : List (BitVec 12 × Nat) := []
  /-- tile numbering per unit (R189): step it belongs to and next number -/
  tileStep : Word := 0
  tileNext : Map Nat := []
  /-- capture records not yet accepted by Azard, and whether each stands sent (R190) -/
  captures : List (CaptureRec × Bool) := []
  deriving DecidableEq, Repr

/-- STATE of a Yobel slot (R182). -/
inductive YSlotState
  | free | defined | filling | live | fenced
  deriving DecidableEq, Repr

/-- A Yobel shard slot (R182, R187, R188). -/
structure YSlot where
  st : YSlotState := .free
  ctx : BitVec 4 := 0
  programId : BitVec 16 := 0
  group : BitVec 5 := 0
  claim : Word := 0
  shardId : Word := 0
  length : BitVec 40 := 0
  windowBase : BitVec 19 := 0
  segFirst : BitVec 12 := 0
  segCount : BitVec 12 := 0
  pages : BitVec 32 := 0
  version : BitVec 32 := 0
  committed : Word := 0
  releaseStep : Word := 0
  key : Word := 0
  /-- steps written to RELEASE_STEP and not yet applied, each with the KEY written before it (R182, R183) -/
  released : List (Word × Word) := []
  /-- pages that an install brought beyond VERSION, with their versions (R182) -/
  ahead : Map (BitVec 32) := []
  fillClaim : Word := 0
  fillDone : BitVec 32 := 0
  fillNext : BitVec 32 := 0
  lastFault : BitVec 4 := 0
  /-- pending holds: (page, v′) -/
  holds : List (Nat × BitVec 32) := []
  /-- confirmed pages (the fill map) -/
  map : List Nat := []
  /-- the slot went LIVE and has applied no step yet -/
  fresh : Bool := false
  deriving DecidableEq, Repr

/-- A program image at Yobel: its directory entry and bytes (R181). -/
structure YImage where
  length : BitVec 32 := 0
  programId : BitVec 16 := 0
  st : BitVec 8 := 0
  digest : Digest := 0
  units : List Nat := []
  bytes : Mem := []
  deriving DecidableEq, Repr

/-- A result window at Yobel (R180): the step it holds, units counted, bytes; and the step before it. -/
structure YResult where
  step : Word := 0
  units : List Nat := []
  bytes : Mem := []
  prevStep : Word := 0
  prevUnits : List Nat := []
  prevBytes : Mem := []
  /-- status table entry (R180): configuration half and status half -/
  config : Word := 0
  status : Word := 0
  deriving DecidableEq, Repr

/-- Yobel's end of the tray link (R172): the HELLOs, the keys and the FINISH messages, as seen from its side (R341). -/
structure YLink where
  /-- Azard's HELLO as received, and its own -/
  helloIn : Bytes := []
  helloOut : Bytes := []
  keyOut : Digest := 0
  keyIn : Digest := 0
  saltOut : BitVec 32 := 0
  saltIn : BitVec 32 := 0
  keysSet : Bool := false
  finishSent : Bool := false
  finishGot : Bool := false
  deriving DecidableEq, Repr

/-- One Yobel (07). -/
structure Yobel where
  link : YLink := {}
  revision : BitVec 8 := 3
  osfel : BitVec 8 := 3
  slotsN : BitVec 13 := 1024
  engines : BitVec 8 := 1
  units : BitVec 12 := 1
  capture : Bool := true
  epoch : BitVec 32 := 0
  ctx : Map YCtx := []
  slots : Map YSlot := []
  images : Map YImage := []
  hyper : Map Mem := []
  results : Map YResult := []
  /-- shards the accelerator has bound to its memory (R182), and that memory, by SHARD_ID -/
  boundShards : List Word := []
  memory : Map Mem := []
  probeSeq : BitVec 16 := 0
  probeStatus : BitVec 2 := 0
  probeFault : BitVec 4 := 0
  probeDigest : Digest := 0
  probeArea : Mem := []
  /-- the probe's run while it is in progress (R191) -/
  probeRun : Option Engine := none
  testStart : Word := 0
  testEnd : Word := 0
  testSeq : BitVec 16 := 0
  testActed : BitVec 16 := 0
  testSet : BitVec 32 := 0
  testing : Bool := false
  granted : Bool := false
  startedAt : Word := 0
  /-- the SYNC_REQ answered last and the transmit stamp of its answer (R315) -/
  syncPrev : BitVec 16 := 0
  syncT3 : Stamp := 0
  /-- an exchange has completed since the restart, and the time of the last one (R193) -/
  timeValid : Bool := false
  syncAt : Word := 0
  /-- offset of its time copy from its Azard's corrected time, in 2⁻¹⁶ ns (R193, R319) -/
  timeOff : BitVec 64 := 0
  captureKey : Digest := 0
  deriving DecidableEq, Repr

/-! ## Flue targets (08 R210, R211) -/

/-- A slot descriptor of a flue target (R210). -/
structure FlueSlot where
  op : BitVec 3 := 0
  status : BitVec 8 := 0
  seqno : BitVec 16 := 0
  length : Word := 0
  key : Bytes := []
  data : Bytes := []
  /-- a PUT under way: the units received and their bytes (R87, R210) -/
  units : List Nat := []
  bytes : Mem := []
  deriving DecidableEq, Repr

/-- A stored object: the key fields of its header and its bytes (R209, R210). -/
structure FlueObj where
  kind : BitVec 8
  lineage : Digest
  seq : BitVec 32
  shardId : Word
  page : BitVec 32
  claim : Word
  step : Word
  bytes : Bytes
  deriving DecidableEq, Repr

/-- A flue target: slots by requester and number, objects, highest claims accepted. -/
structure Flue where
  slots : Map FlueSlot := []
  objects : List FlueObj := []
  claims : List (Digest × Word × Word) := []
  deriving DecidableEq, Repr

/-! ## Messages sent, requests outstanding, answers kept (18), identity (18 R415) -/

/-- Where a message the device sends goes. -/
inductive Dest
  /-- the link peer on port p (CTXV = 0) -/
  | link (p : Fin 25)
  /-- a logical node of a context -/
  | node (ctx : Fin 16) (n : BitVec 16)
  /-- the Yobel of tray port k -/
  | yobel (k : Fin 9)
  /-- a spill peer, by the position word that names it (R275) -/
  | spillPeer (pos : Word)
  /-- the management firmware -/
  | firmware
  /-- the Azard of tray port k, from that port's Yobel -/
  | azardOf (k : Fin 9)
  deriving DecidableEq, Repr

/-- What a packet passed on in transit brought: its VC, SOURCE and length (R291, R295). -/
structure Transit where
  vc : BitVec 5
  source : BitVec 16
  bytes : Nat
  deriving DecidableEq, Repr

/-- A packet put on a wire by the newest command: its target, OP, message kind (R408), space and offset
([47:0] of the address), attempt header, the payload's fields in the order its rule lists them, and bytes. -/
structure Msg where
  dest : Dest
  op : OpCode
  kind : BitVec 8 := 0
  addr : Nat := 0
  hdr : Option AttHdr := none
  args : List Nat := []
  data : Bytes := []
  transit : Option Transit := none
  deriving DecidableEq, Repr

/-- A request that is not answered yet (R409, R411): REQ_ID, repeats so far and the wait in µs before the next. -/
structure Outstanding where
  id : BitVec 32
  msg : Msg
  tries : Nat := 0
  /-- the wait in µs, and when it began -/
  wait : Nat := 100
  since : Word := 0
  deriving DecidableEq, Repr

/-- A request of R412 that was answered, with its answer and the time of it. -/
structure KeptAnswer where
  path : Path
  source : BitVec 16
  reqId : BitVec 32
  address : Nat
  answer : Answer
  time : Word
  deriving DecidableEq, Repr

/-- The request engine (R409–R412) and the I3C path's last offset and RESULT (R414). -/
structure Ctl where
  nextId : BitVec 32 := 0
  out : List Outstanding := []
  /-- the EPOCH held for each responder that has told one, by responder and context, 16 for none (R372) -/
  held : List (Dest × Nat × BitVec 32) := []
  kept : List KeptAnswer := []
  i3cOffset : BitVec 32 := 0
  i3cResult : BitVec 8 := 0
  deriving DecidableEq, Repr

/-- The ID_ values fixed in manufacture (R415). -/
structure Ident where
  stepping : BitVec 8 := 0
  pkgRev : BitVec 8 := 0
  serial : Word := 0
  lot : BitVec 48 := 0
  dateCode : BitVec 16 := 0
  deriving DecidableEq, Repr

end Sys2Proof.Machine
end

