-- ==== Sys2Proof/Machine/State.lean ====
section
/-!
DEFINITION. Sys2Proof/Machine/State.lean: the machine's state, its reasons to stop, and the state after reset.
INVENTORY.md's "State" lists every register and buffer of spec/ with the field that holds it.
-/

namespace Sys2Proof.Machine

/-- Why the machine stops.  No rule of the spec stops the block: every refusal of the device is an answer that State
holds. -/
inductive Fault
  /-- raised by no command; it keeps the type inhabited.  Safe: it is never raised. -/
  | halted
  deriving DecidableEq, Repr

/-- Why a command has no meaning here. -/
inductive Refusal
  /-- raised by the arm of a command that has no meaning yet.  Safe: nothing can be proved of its effect. -/
  | notModelled (mnemonic : String)
  deriving DecidableEq, Repr

/-- The AZ8-1600, with the Yobels and flue targets it meets, and the commands that wait. -/
structure State where
  /-- TIM_ and the time base (13) -/
  tim : Tim
  /-- kindling, images and updates (15) -/
  kin : Kin
  /-- resets, epochs, out of service (16) -/
  rst : Rst
  /-- PWR_, rails and throttling (18 R416, 19) -/
  pwr : Pwr
  /-- regions, hearths, stacks, supervisor (01, 10, 17) -/
  die : Die
  /-- LNK_ ports 0–24 (12) -/
  ports : Map Port
  /-- the sending sides of the ports: coins, waiting packets, LNK_TX, LNK_STALL, replay windows (11, 12) -/
  egress : Map Egress
  /-- LNK_SELF_*, LNK_TOPO (12 R301, R307) -/
  fabric : Fabric
  /-- ALC_ and the page queues (11) -/
  alc : Alc
  /-- contexts C0–C15 -/
  ctxs : Map Ctx
  /-- CLR_ (04) -/
  clr : Clr
  /-- MIR_ and the shard ledger (05) -/
  mir : Mir
  /-- ESC_ of the whole device (08) -/
  esc : Esc
  /-- TST_ (10) -/
  tst : Tst
  /-- EVR_, tallies, inputs (17) -/
  evr : Evr
  /-- TEL_ (17) -/
  tel : Tel
  /-- SEC_ and the vault (14) -/
  sec : Sec
  /-- vector engines: hearths 0–67, and 68 + k for the Yobel of TPk (06) -/
  engines : Map Engine
  /-- the Yobels of TP0–TP8 (07) -/
  yobels : Map Yobel
  /-- flue targets by number (08 R210) -/
  flues : Map Flue
  /-- requests outstanding and answers kept (18) -/
  ctl : Ctl
  /-- ID_ (18 R415) -/
  ident : Ident
  /-- the answers that the newest command gave, in order -/
  answers : List Answer
  /-- the packets that the newest command handed to its ports, in order; `egress` says which have started -/
  sent : List Msg
  /-- the model's own field: counter of the free values taken so far (log entry 3) -/
  free : Nat
  /-- the commands that wait, first in first out -/
  pending : List Instr
  deriving DecidableEq, Repr

/-- The spare hearths at the end of kindling (R14). -/
def spareHearths : List Nat := [16, 33, 50, 67]

/-- The hearths at the end of kindling: sixteen active and one spare in each region (R14). -/
def Hearth.table : Map Hearth := spareHearths.map fun h => (h, { role := .spare })

/-- The machine right after a kindling that reached READY with the image's defaults (log entries 1 and 2). -/
def State.reset : State where
  tim := {}
  kin := {}
  rst := {}
  pwr := {}
  die := { hearths := Hearth.table }
  ports := []
  egress := []
  fabric := {}
  alc := {}
  ctxs := []
  clr := {}
  mir := {}
  esc := {}
  tst := {}
  evr := {}
  tel := {}
  sec := {}
  engines := []
  yobels := []
  flues := []
  ctl := {}
  ident := {}
  answers := []
  sent := []
  free := 0
  pending := []

end Sys2Proof.Machine
end

