-- ==== Sys2Proof/Machine/Parts.lean ====
section
/-!
DEFINITION. Sys2Proof/Machine/Parts.lean: sparse tables and byte memories, bit fields and counters, and the accessors of the
parts of State.
-/

namespace Sys2Proof.Machine

/-! ## Sparse tables and byte memories -/

/-- The value under key `k`; an unlisted key has the table's default. -/
def Map.get {α : Type} (d : α) (m : Map α) (k : Nat) : α :=
  match m with
  | [] => d
  | (j, v) :: r => if j = k then v else Map.get d r k

/-- The table without key `k`. -/
def Map.erase {α : Type} (m : Map α) (k : Nat) : Map α :=
  match m with
  | [] => []
  | (j, v) :: r => if j = k then Map.erase r k else (j, v) :: Map.erase r k

/-- The table with `v` under key `k`, keys kept rising. -/
def Map.put {α : Type} (m : Map α) (k : Nat) (v : α) : Map α :=
  match m with
  | [] => [(k, v)]
  | (j, w) :: r => if j < k then (j, w) :: Map.put r k v else if j = k then (k, v) :: r else (k, v) :: (j, w) :: r

/-- The table with `v` under key `k`, in canonical form: the default is not listed. -/
def Map.set {α : Type} [DecidableEq α] (d : α) (m : Map α) (k : Nat) (v : α) : Map α :=
  if v = d then Map.erase m k else Map.put m k v

/-- The canonical form: keys strictly rising, no value equal to the default. -/
def Map.wf {α : Type} [DecidableEq α] (d : α) : Map α → Bool
  | [] => true
  | [(_, v)] => v ≠ d
  | (j, v) :: (k, w) :: r => v ≠ d && decide (j < k) && Map.wf d ((k, w) :: r)

/-- One byte of a memory; an unlisted byte reads 0 (R266). -/
def Mem.byte (m : Mem) (a : Nat) : Byte := Map.get 0 m a

/-- A memory with one byte stored. -/
def Mem.setByte (m : Mem) (a : Nat) (b : Byte) : Mem := Map.set 0 m a b

/-- A memory's canonical form. -/
def Mem.wf (m : Mem) : Bool := Map.wf (0 : Byte) m

/-- The `n` bytes from address `a`. -/
def Mem.read (m : Mem) (a : Nat) : Nat → Bytes
  | 0 => []
  | n + 1 => Mem.byte m a :: Mem.read m (a + 1) n

/-- A memory with bytes stored from address `a` upward. -/
def Mem.write (m : Mem) (a : Nat) : Bytes → Mem
  | [] => m
  | b :: bs => Mem.write (Mem.setByte m a b) (a + 1) bs

/-- Bytes as a number, lowest address least significant (00, "Registers"). -/
def leNat : Bytes → Nat
  | [] => 0
  | b :: bs => b.toNat + 256 * leNat bs

/-- The `n` low bytes of a number, least significant first. -/
def natLe : Nat → Nat → Bytes
  | 0, _ => []
  | n + 1, x => BitVec.ofNat 8 x :: natLe n (x / 256)

/-- A number of `n` bytes read from a memory, little-endian. -/
def Mem.le (m : Mem) (a n : Nat) : Nat := leNat (Mem.read m a n)

/-- `n` bytes of a byte string from an offset; bytes past its end read 0. -/
def Bytes.at (b : Bytes) (off n : Nat) : Bytes :=
  let t := (b.drop off).take n
  t ++ List.replicate (n - t.length) 0

/-- A little-endian number of `n` bytes at an offset of a byte string. -/
def Bytes.le (b : Bytes) (off n : Nat) : Nat := leNat ((b.drop off).take n)

/-- A value put into a list sorted by `le`, before the first that does not precede it. -/
def insertBy {α : Type} (le : α → α → Bool) (x : α) : List α → List α
  | [] => [x]
  | y :: r => if le x y then x :: y :: r else y :: insertBy le x r

/-- A list sorted by `le`. -/
def sortBy {α : Type} (le : α → α → Bool) : List α → List α
  | [] => []
  | x :: r => insertBy le x (sortBy le r)

/-- The median of a list: the middle value, or the mean of the two middle ones. -/
def medianOf (l : List Nat) : Nat :=
  let sorted := sortBy (fun a b => decide (a ≤ b)) l
  let k := sorted.length
  if k = 0 then 0 else (sorted.getD ((k - 1) / 2) 0 + sorted.getD (k / 2) 0) / 2

/-- One more measured interval, of which the last 16 are kept (R281, R380). -/
def addGap (l : List Nat) (x : Nat) : List Nat := (l ++ [x]).drop (l.length + 1 - 16)

/-- The table with key `k` changed by `f`. -/
def Map.mod {α : Type} [DecidableEq α] (d : α) (m : Map α) (k : Nat) (f : α → α) : Map α :=
  Map.set d m k (f (Map.get d m k))

/-- Every listed value changed by `f`; a value that becomes the default is no longer listed. -/
def Map.mapVals {α : Type} [DecidableEq α] (d : α) (m : Map α) (f : Nat → α → α) : Map α :=
  (m.map fun x => (x.1, f x.1 x.2)).filter fun x => x.2 ≠ d

/-! ## Bit fields and counters -/

/-- The field of `n` bits from bit `lo` of a word. -/
def Word.field (w : Word) (lo n : Nat) : BitVec n := w.extractLsb' lo n

/-- Fields (low bit, value), gathered into a word. -/
def Word.pack : List (Nat × Nat) → Word
  | [] => 0
  | (lo, v) :: r => BitVec.ofNat 64 (v <<< lo) ||| Word.pack r

/-- A flag as a number. -/
def bit (b : Bool) : Nat := if b then 1 else 0

/-- A counter that stops at its greatest value. -/
def satInc {n : Nat} (x : BitVec n) : BitVec n := if x = BitVec.allOnes n then x else x + 1

/-- Saturating addition of a number to a counter. -/
def satAdd {n : Nat} (x : BitVec n) (k : Nat) : BitVec n :=
  if x.toNat + k < 2 ^ n then BitVec.ofNat n (x.toNat + k) else BitVec.allOnes n

/-- A value brought to the nearer end of a range. -/
def clampNat (lo hi x : Nat) : Nat := if x < lo then lo else if hi < x then hi else x

/-- Nanoseconds in a second. -/
def second : Nat := 1000000000

namespace State

/-! ## Parts of the state -/

/-- Port p, numbered as in the LNK_ block (R306). -/
def port (s : State) (p : Nat) : Port := Map.get {} s.ports p
def setPort (s : State) (p : Nat) (v : Port) : State := { s with ports := Map.set {} s.ports p v }
def modPort (s : State) (p : Nat) (f : Port → Port) : State := s.setPort p (f (s.port p))

/-- Context C*n*. -/
def ctx (s : State) (n : Nat) : Ctx := Map.get {} s.ctxs n
def setCtx (s : State) (n : Nat) (v : Ctx) : State := { s with ctxs := Map.set {} s.ctxs n v }
def modCtx (s : State) (n : Nat) (f : Ctx → Ctx) : State := s.setCtx n (f (s.ctx n))

/-- Hearth h. -/
def hearth (s : State) (h : Nat) : Hearth := Map.get {} s.die.hearths h
def setHearth (s : State) (h : Nat) (v : Hearth) : State := { s with die.hearths := Map.set {} s.die.hearths h v }
def modHearth (s : State) (h : Nat) (f : Hearth → Hearth) : State := s.setHearth h (f (s.hearth h))

/-- Region q. -/
def region (s : State) (q : Nat) : Region := Map.get {} s.die.regions q
def setRegion (s : State) (q : Nat) (v : Region) : State := { s with die.regions := Map.set {} s.die.regions q v }
def modRegion (s : State) (q : Nat) (f : Region → Region) : State := s.setRegion q (f (s.region q))

/-- HBM stack i. -/
def hbm (s : State) (i : Nat) : HbmStack := Map.get {} s.die.hbms i
def setHbm (s : State) (i : Nat) (v : HbmStack) : State := { s with die.hbms := Map.set {} s.die.hbms i v }
def modHbm (s : State) (i : Nat) (f : HbmStack → HbmStack) : State := s.setHbm i (f (s.hbm i))

/-- Shard ledger entry e. -/
def entry (s : State) (e : Nat) : Entry := Map.get {} s.mir.entries e
def setEntry (s : State) (e : Nat) (v : Entry) : State := { s with mir.entries := Map.set {} s.mir.entries e v }
def modEntry (s : State) (e : Nat) (f : Entry → Entry) : State := s.setEntry e (f (s.entry e))

/-- The vector engine of hearth h, or, for 68 + k, of the Yobel of TPk. -/
def engine (s : State) (h : Nat) : Engine := Map.get {} s.engines h
def setEngine (s : State) (h : Nat) (v : Engine) : State := { s with engines := Map.set {} s.engines h v }
def modEngine (s : State) (h : Nat) (f : Engine → Engine) : State := s.setEngine h (f (s.engine h))

/-- The Yobel of tray port k. -/
def yobel (s : State) (k : Nat) : Yobel := Map.get {} s.yobels k
def setYobel (s : State) (k : Nat) (v : Yobel) : State := { s with yobels := Map.set {} s.yobels k v }
def modYobel (s : State) (k : Nat) (f : Yobel → Yobel) : State := s.setYobel k (f (s.yobel k))
/-- The Yobel at the other end of a port's link, where the port is a tray port. -/
def modLinkEnd (s : State) (p : Nat) (f : Yobel → Yobel) : State := if p < 9 then s.modYobel p f else s

/-- The TST registers of tray port k. -/
def tstPort (s : State) (k : Nat) : TstPort := Map.get {} s.tst.ports k
def setTstPort (s : State) (k : Nat) (v : TstPort) : State := { s with tst.ports := Map.set {} s.tst.ports k v }
def modTstPort (s : State) (k : Nat) (f : TstPort → TstPort) : State := s.setTstPort k (f (s.tstPort k))

/-- FAULT_IN input i. -/
def input (s : State) (i : Nat) : Input := Map.get {} s.evr.inputs i
def setInput (s : State) (i : Nat) (v : Input) : State := { s with evr.inputs := Map.set {} s.evr.inputs i v }
def modInput (s : State) (i : Nat) (f : Input → Input) : State := s.setInput i (f (s.input i))

/-- Flue target i. -/
def flue (s : State) (i : Nat) : Flue := Map.get {} s.flues i
def setFlue (s : State) (i : Nat) (v : Flue) : State := { s with flues := Map.set {} s.flues i v }

/-- Corrected device time: the integer nanoseconds of the accumulator plus TIME_OFFSET (R310). -/
def now (s : State) : Word := s.tim.offset + s.tim.acc.extractLsb' 32 64

/-- A moment lies outside [t, t + d) (R47). -/
def outside (s : State) (t : Word) (d : Nat) : Bool :=
  decide (s.now.toNat < t.toNat) || decide (t.toNat + d ≤ s.now.toNat)

/-- A free value of `w` bits: the next of the values that the spec leaves open (log entry 3). -/
def freeBits (s : State) (w : Nat) : BitVec w := Config.freeValue w s.free
/-- The state after the free value is taken. -/
def useFree (s : State) : State := { s with free := s.free + 1 }
/-- A free value taken, with the state after. -/
def openValue (s : State) (w : Nat) : State × BitVec w := (s.useFree, s.freeBits w)

/-- Position words match in TRAY, RACK, ROW, HALL and SITE, bits [41:0] (R337). -/
def posEq (a b : Word) : Bool := a.extractLsb' 0 42 = b.extractLsb' 0 42

/-- Port p carries requests (R296). -/
def portUp (s : State) (p : Nat) : Bool := (s.port p).state = .up

end State

end Sys2Proof.Machine
end

