-- ==== Sys2Proof/Machine/Tree.lean ====
section
/-!
DEFINITION. Sys2Proof/Machine/Tree.lean: the slice as this Azard knows it, the clearing trees of R90, routes of R301 and
allowances of R95.
-/

namespace Sys2Proof.Machine

/-- An Azard of a slice: its logical node, position word and coordinate word (R298). -/
structure SNode where
  lnode : BitVec 16
  pos : Word
  co : Word
  deriving DecidableEq, Repr

namespace SNode

/-- Coordinate on axis 0 = X, 1 = Y, 2 = Z; the axis's length in the wiring; whether it wraps (R298). -/
def axis (n : SNode) (ax : Nat) : Nat := (n.co.extractLsb' (8 * ax) 8).toNat
def len (n : SNode) (ax : Nat) : Nat := (n.co.extractLsb' (24 + 8 * ax) 8).toNat
def wraps (n : SNode) (ax : Nat) : Bool := n.co.getLsbD (48 + ax)
def isTree (n : SNode) : Bool := n.co.getLsbD 51
def site (n : SNode) : Nat := (n.co.extractLsb' 52 2).toNat

end SNode

/-- The numbers of a list in rising order, each once. -/
def rising (l : List Nat) : List Nat :=
  (sortBy (fun a b => decide (a ≤ b)) l).eraseDups

/-- A run of coordinates on an axis (R301): its first coordinate and whether its ring is closed; none when the values are
no run. -/
def runOf (vals : List Nat) (d : Nat) (wraps : Bool) : Option (Nat × Bool) :=
  let v := rising vals
  if wraps && d ≠ 0 then
    if v.length = d then some (0, true)
    else
      match v.filter (fun x => !v.contains ((x + d - 1) % d)) with
      | [f] => some (f, false)
      | _ => none
  else
    match v with
    | [] => none
    | f :: _ => if v = (List.range v.length).map (f + ·) then some (f, false) else none

/-- Axis orders of a group entry (R82). -/
def axisOrder (o : Nat) : List Nat :=
  match o with
  | 0 => [0, 1, 2] | 1 => [0, 2, 1] | 2 => [1, 0, 2] | 3 => [1, 2, 0] | 4 => [2, 0, 1] | _ => [2, 1, 0]

namespace State

/-- The slice's Azards as the charter's node table and the announcement table give them (R90, R301); none when one of
them has announced nothing. -/
def slice (s : State) (n : Nat) : Option (List SNode) :=
  (((s.ctx n).life.charter.nodes.filter fun d => d.role = 0)).foldr (fun d acc =>
    match acc with
    | none => none
    | some l =>
      if posEq d.pos s.fabric.selfPos then some ({ lnode := d.lnode, pos := d.pos, co := s.fabric.selfCoord } :: l)
      else match s.fabric.topo.find? fun t => posEq t.pos d.pos with
        | some t => some ({ lnode := d.lnode, pos := d.pos, co := t.coord } :: l)
        | none => none) (some [])

/-- A fabric port that is UP to the Azard at a position. -/
def portTo (s : State) (pos : Word) : Option Nat :=
  ((List.range 16).map (· + 9)).find? fun p => s.portUp p && posEq (s.port p).peerPos pos

/-- The link between two Azards is UP, by this Azard's ports or by either's announcement. -/
def joined (s : State) (u v : SNode) : Bool :=
  if posEq u.pos s.fabric.selfPos then (s.portTo v.pos).isSome
  else if posEq v.pos s.fabric.selfPos then (s.portTo u.pos).isSome
  else s.fabric.topo.any fun t => posEq t.pos u.pos && t.links.any fun l => posEq l v.pos

/-- The coordinate next to x on an axis, upward or downward. -/
def stepCoord (d : Nat) (wraps up : Bool) (x : Nat) : Nat :=
  if up then (if wraps then (x + 1) % d else x + 1) else (if wraps then (x + d - 1) % d else x - 1)

/-- Distance from coordinate a to b along a run: upward steps from a. -/
def runIndex (f d : Nat) (wraps : Bool) (x : Nat) : Nat := if wraps then (x + d - f) % d else x - f

/-- The node of a slice at the coordinates of `u` but `x` on axis `ax`. -/
def neighbour (sl : List SNode) (u : SNode) (ax x : Nat) : Option SNode :=
  sl.find? fun v => v.site = u.site && v.axis ax = x &&
    [0, 1, 2].all fun a => a = ax || v.axis a = u.axis a

/-- The wiring parent of a node in tree wiring: the joined node of the slice one level up. -/
def treeUp (s : State) (sl : List SNode) (u : SNode) : Option SNode :=
  sl.find? fun v => v.site = u.site && v.axis 0 + 1 = u.axis 0 && s.joined u v

/-- A node and its wiring ancestors in tree wiring, upward. -/
def treePath (s : State) (sl : List SNode) : Nat → SNode → List SNode
  | 0, u => [u]
  | k + 1, u => match s.treeUp sl u with
    | some v => u :: s.treePath sl k v
    | none => [u]

/-- The next node on the route from u to v within one site (R301). -/
def hopInSite (s : State) (sl : List SNode) (u v : SNode) : Option SNode :=
  if u.isTree then
    let p := s.treePath sl 256 v
    match p.findIdx? (fun x => x.lnode = u.lnode) with
    | some (k + 1) => p[k]?
    | some 0 => none
    | none => s.treeUp sl u
  else
    match [0, 1, 2].find? fun ax => u.axis ax ≠ v.axis ax with
    | none => none
    | some ax =>
      let d := u.len ax
      let w := u.wraps ax && d ≠ 0
      match runOf ((sl.filter fun x => x.site = u.site).map fun x => x.axis ax) d w with
      | none => none
      | some (f, closed) =>
        let up := if closed then
            decide ((v.axis ax + d - u.axis ax) % d < (u.axis ax + d - v.axis ax) % d)
          else decide (runIndex f d w (u.axis ax) < runIndex f d w (v.axis ax))
        neighbour sl u ax (stepCoord d w up (u.axis ax))

/-- The route from u to v within one site. -/
def routeInSite (s : State) (sl : List SNode) : Nat → SNode → SNode → Option (List SNode)
  | 0, _, _ => none
  | k + 1, u, v =>
    if u.lnode = v.lnode then some [u]
    else match s.hopInSite sl u v with
      | none => none
      | some x => (s.routeInSite sl k x v).map (u :: ·)

/-- The coordinates of a node as one number, X first. -/
def coordKey (n : SNode) : Nat := n.axis 0 * 65536 + n.axis 1 * 256 + n.axis 2

/-- The least node under a key. -/
def leastBy (key : SNode → Nat) (l : List SNode) : Option SNode :=
  l.foldl (fun acc x => match acc with
    | none => some x
    | some y => if key x < key y then some x else some y) none

/-- The route from u to v (R301): within a site dimension-ordered; across sites by the nearest node of u's site with a
link to v's site, the one of lowest coordinates on a tie. -/
def route (s : State) (sl : List SNode) (u v : SNode) : Option (List SNode) :=
  if u.site = v.site then s.routeInSite sl 800 u v
  else
    let far (x : SNode) := sl.filter fun y => y.site = v.site && s.joined x y
    let gates := sl.filter fun x => x.site = u.site && far x ≠ []
    let dist (x : SNode) := ((s.routeInSite sl 800 u x).map List.length).getD 100000
    match leastBy (fun x => dist x * 16777216 + coordKey x) gates with
    | none => none
    | some g =>
      match leastBy coordKey (far g) with
      | none => none
      | some y =>
        match s.routeInSite sl 800 u g, s.routeInSite sl 800 y v with
        | some a, some b => some (a ++ b)
        | _, _ => none

/-! ## The slice test of R301 -/

/-- In tree wiring: one top at the site, and every other node's wiring path reaches it. -/
def treeSiteOk (s : State) (sn : List SNode) : Bool :=
  match rising (sn.map fun x => x.axis 0) with
  | [] => true
  | low :: _ =>
    match sn.filter fun x => x.axis 0 = low with
    | [top] => sn.all fun x => ((s.treePath sn 256 x).getLast?.map fun y => y.lnode) = some top.lnode
    | _ => false

/-- In mesh or ring wiring: a block of runs, joined between adjacent nodes. -/
def gridSiteOk (s : State) (sn : List SNode) : Bool :=
  match sn with
  | [] => true
  | o :: _ =>
    let run (ax : Nat) := runOf (sn.map fun x => x.axis ax) (o.len ax) (o.wraps ax)
    let count (ax : Nat) := (rising (sn.map fun x => x.axis ax)).length
    [0, 1, 2].all (fun ax => (run ax).isSome) &&
    count 0 * count 1 * count 2 = sn.length &&
    (rising (sn.map coordKey)).length = sn.length &&
    sn.all fun u => [0, 1, 2].all fun ax =>
      let w := o.wraps ax && o.len ax ≠ 0
      match neighbour sn u ax (stepCoord (o.len ax) w true (u.axis ax)) with
      | none => true
      | some v => v.lnode = u.lnode || s.joined u v

/-- Sites reached from those in `seen` by links between nodes of the slice, `k` rounds. -/
def sitesReached (s : State) (sl : List SNode) : Nat → List Nat → List Nat
  | 0, seen => seen
  | k + 1, seen =>
    sitesReached s sl k ((seen ++ (sl.filter fun x => sl.any fun y =>
      seen.contains y.site && (s.joined x y || s.joined y x)).map fun x => x.site).eraseDups)

/-- The slice meets the conditions of R301. -/
def sliceOk (s : State) (sl : List SNode) : Bool :=
  let sites := rising (sl.map fun x => x.site)
  (sites.all fun k =>
    let sn := sl.filter fun x => x.site = k
    if sn.any fun x => x.isTree then s.treeSiteOk sn else s.gridSiteOk sn) &&
  match sites with
  | [] => true
  | a :: _ => sites.all fun k => (s.sitesReached sl 4 [a]).contains k

/-! ## build_tree (R90) -/

/-- The shape of a group at a site: 1 torus, 2 mesh, 3 tree; AUTO takes it from the wiring. -/
def shapeOf (shape : Nat) (sn : List SNode) : Nat :=
  if shape ≠ 0 then shape
  else if sn.any fun x => x.isTree then 3
  else if [0, 1, 2].all fun ax =>
      decide ((rising (sn.map fun x => x.axis ax)).length ≤ 1) || sn.all fun x => x.wraps ax then 1
  else 2

/-- One line of live nodes on axis `ax`: the parents it gives, and the node kept.  `ring` is the length of the axis where parents
are taken the shorter way round, counted in wiring hops; equal ways go toward decreasing index. -/
def buildLine (g ax : Nat) (ring : Option Nat) (row : List SNode) : List (BitVec 16 × BitVec 16) × List SNode :=
  let n := row.length
  let r := g % n
  let at_ (p : Nat) : Nat := (row[p]?.map fun x => x.axis ax).getD 0
  let up (p : Nat) : Nat := match ring with
    | some d => if (at_ r + d - at_ p) % d < (at_ p + d - at_ r) % d then (p + 1) % n else (p + n - 1) % n
    | none => if p < r then p + 1 else p - 1
  let ps := (List.range n).filterMap fun p =>
    if p = r then none
    else match row[p]?, row[up p]? with
      | some a, some b => some (a.lnode, b.lnode)
      | _, _ => none
  (ps, (row[r]?).toList)

/-- Axis by axis, every line of live nodes reduces to one (R90). -/
def buildAxes (g : Nat) (torus : Bool) (sn : List SNode) :
    List Nat → List SNode → List (BitVec 16 × BitVec 16) × List SNode
  | [], live => ([], live)
  | ax :: rest, live =>
    let d := (sn.head?.map fun x => x.len ax).getD 0
    let w := (sn.head?.map fun x => x.wraps ax).getD false && d ≠ 0
    let (f, closed) := (runOf (sn.map fun x => x.axis ax) d w).getD (0, false)
    let key (x : SNode) := if ax = 0 then x.axis 1 * 256 + x.axis 2 else if ax = 1 then x.axis 0 * 256 + x.axis 2
      else x.axis 0 * 256 + x.axis 1
    let out := (rising (live.map key)).map fun k =>
      buildLine g ax (if torus && closed then some d else none)
        (sortBy (fun a b => decide (runIndex f d w (a.axis ax) ≤ runIndex f d w (b.axis ax))) (live.filter fun x => key x = k))
    let (ps, top) := buildAxes g torus sn rest (out.flatMap Prod.snd)
    (out.flatMap Prod.fst ++ ps, top)

/-- The parents at one site and the site's root; none where SHAPE asks for a tree on other wiring, or for another shape on tree
wiring: R90 has no tree for it (the model's choice, log entry 93). -/
def buildSite (s : State) (g shape order : Nat) (sn cl : List SNode) :
    List (BitVec 16 × BitVec 16) × Option (BitVec 16) :=
  if (shapeOf shape sn = 3) != sn.any (fun x => x.isTree) then ([], none)
  else if shapeOf shape sn = 3 then
    let depth (x : SNode) := (s.treePath sn 256 x).length
    match leastBy (fun x => depth x * 65536 + x.lnode.toNat) cl with
    | none => ([], none)
    | some root =>
      let isCl (x : SNode) := cl.any fun y => y.lnode = x.lnode
      let ps := (cl.filter fun x => x.lnode ≠ root.lnode).map fun x =>
        (x.lnode, (((s.treePath sn 256 x).drop 1).find? isCl).map (fun y => y.lnode) |>.getD root.lnode)
      (ps, some root.lnode)
  else
    let (ps, top) := buildAxes g (shapeOf shape sn = 1) sn (axisOrder order) cl
    (ps, top.head?.map fun x => x.lnode)

/-- A group's tree: parents and the group's root (R90). -/
def buildTree (s : State) (gd : GroupDef) (sl : List SNode) (nodes : List (BitVec 16)) :
    Option (List (BitVec 16 × BitVec 16) × BitVec 16) :=
  let cl := sl.filter fun x => nodes.contains x.lnode
  let sites := rising (cl.map fun x => x.site)
  let parts := sites.map fun k => s.buildSite gd.group.toNat gd.shape.toNat gd.order.toNat
    (sl.filter fun x => x.site = k) (cl.filter fun x => x.site = k)
  let roots := parts.filterMap Prod.snd
  if roots.length ≠ sites.length then none
  else match roots[gd.group.toNat % sites.length]? with
    | none => none
    | some r => some (parts.flatMap Prod.fst ++ (roots.filter (· ≠ r)).map fun x => (x, r), r)

/-- The children of a node under a list of parents, in ascending logical node. -/
def childrenOf (ps : List (BitVec 16 × BitVec 16)) (n : BitVec 16) : List (BitVec 16) :=
  (rising ((ps.filter fun x => x.2 = n).map fun x => x.1.toNat)).map fun k => BitVec.ofNat 16 k

/-- Height of a node (R90); more than `k` when the tree is higher. -/
def heightOf (ps : List (BitVec 16 × BitVec 16)) : Nat → BitVec 16 → Nat
  | 0, _ => 1
  | k + 1, n => ((childrenOf ps n).map fun c => 1 + heightOf ps k c).foldl max 0

/-- h(c) of R95 in µs: the hop's allowance, with the long-haul addition when its ends lie at different sites. -/
def hopAllow (gd : GroupDef) (sl : List SNode) (a b : BitVec 16) : Nat :=
  let siteOf (n : BitVec 16) := ((sl.find? fun x => x.lnode = n).map fun x => x.site).getD 0
  let hop := if gd.hopAllow = 0 then 50 else gd.hopAllow.toNat
  let lh := if gd.lhAllow = 0 then 400 else gd.lhAllow.toNat
  if siteOf a = siteOf b then hop else hop + lh

/-- A(n) of R95, in µs. -/
def allowOf (gd : GroupDef) (sl : List SNode) (ps : List (BitVec 16 × BitVec 16)) : Nat → BitVec 16 → Nat
  | 0, _ => 0
  | k + 1, n => ((childrenOf ps n).map fun c => allowOf gd sl ps k c + hopAllow gd sl c n).foldl max 0

/-! ## The clearing definition at activation (R82–R84, R89, R90) -/

/-- The Azard of the slice whose tray holds an accelerator node of the charter. -/
def hostOf (s : State) (n : Nat) (sl : List SNode) (m : BitVec 16) : Option (BitVec 16) :=
  match (s.ctx n).life.charter.nodes.find? fun d => d.lnode = m && d.role = 1 with
  | none => none
  | some d => (sl.find? fun x => posEq x.pos d.pos).map fun x => x.lnode

/-- The accelerator nodes of the charter that lie on this Azard's tray, with the tray port the node table gives. -/
def localNodes (s : State) (n : Nat) : List (BitVec 16 × BitVec 4) :=
  ((s.ctx n).life.charter.nodes.filter fun d => d.role = 1 && posEq d.pos s.fabric.selfPos).map fun d =>
    (d.lnode, BitVec.ofNat 4 (d.pos.extractLsb' 42 5).toNat)

/-- The clearing nodes of a group (R82): hosts of members, and partners that this Azard's shard ledger names for the
group's shards; none when a member's host is not in the slice. -/
def clearingNodes (s : State) (n : Nat) (sl : List SNode) (gd : GroupDef) : Option (List (BitVec 16)) :=
  let hosts := gd.list.map (s.hostOf n sl)
  if hosts.any Option.isNone then none
  else
    let mine := s.mir.entries.filter fun e => e.2.st ≠ .free && e.2.ctx.toNat = n && e.2.group = gd.group.setWidth 5
    let partners := mine.map fun e => if e.2.role then (s.ctx n).life.self else e.2.partner
    some ((rising ((hosts.filterMap id ++ partners).map BitVec.toNat)).map (BitVec.ofNat 16))

/-- Segments of a context that are defined (ELEMENTS ≠ 0). -/
def segsOf (s : State) (n : Nat) : List (Nat × Seg) := (s.ctx n).clr.segs.filter fun x => x.2.elements ≠ 0

/-- 2 MiB pages a group's root reserves for its full sum (R94). -/
def rootPagesOf (s : State) (n : Nat) (g : BitVec 5) : Nat :=
  let blocks := (((s.segsOf n).filter fun x => x.2.group = g).map fun x => (x.2.elements.toNat + 63) / 64).sum
  (blocks * 1040 + 2097151) / 2097152

/-- What one group's tree is at this Azard; none when the tree cannot be built (TOPOLOGY). -/
def groupTree (s : State) (n : Nat) (sl : List SNode) (gd : GroupDef) : Option GroupTree :=
  let self := (s.ctx n).life.self
  match s.clearingNodes n sl gd with
  | none => none
  | some nodes =>
    match s.buildTree gd sl nodes with
    | none => none
    | some (ps, root) =>
      let node (k : BitVec 16) := sl.find? fun x => x.lnode = k
      let hops := ps.map fun p => match node p.1, node p.2 with
        | some a, some b => s.route sl a b
        | _, _ => none
      if hops.any Option.isNone || 63 < heightOf ps 64 root then none
      else
        let parent := (ps.find? fun p => p.1 = self).map Prod.snd
        let on := hops.filterMap fun r => match r with
          | some l => match l.findIdx? (fun x => x.lnode = self) with
            | some k => l[k + 1]?
            | none => none
          | none => none
        let own := match parent, node self with
          | some p, some a => match node p with
            | some b => ((s.route sl a b).bind fun l => l[1]?)
            | none => none
          | _, _ => none
        let clearing := nodes.contains self
        let next := if clearing then own else on.head?
        some {
          defn := gd
          nodes := nodes
          clearing := clearing
          transit := !clearing && on ≠ []
          parent := parent
          parentPort := match next.bind (fun x => s.portTo x.pos) with
            | some p => BitVec.ofNat 5 p
            | none => 0x1F
          children := childrenOf ps self
          isRoot := clearing && root = self
          root := root
          height := heightOf ps 64 self
          allow := allowOf gd sl ps 64 self
          rootAllow := allowOf gd sl ps 64 root
          reportAllow := 0
          rootPages := if clearing && root = self then s.rootPagesOf n (gd.group.setWidth 5) else 0 }

/-- Activation refusals that a clearing definition meets before it is built (R89); VC_IN_USE and STAGING are judged after
(R269). -/
inductive DefnFault
  | segFormat | groupFormat | portAbsent | topology
  deriving DecidableEq, Repr

/-- SEG_FORMAT (R89). -/
def segBad (gs : List GroupDef) (x : Seg) : Bool :=
  decide (67108864 < x.elements.toNat) || !gs.any (fun g => g.group.setWidth 5 = x.group) || decide (7 < x.cfmt.toNat) ||
  decide (4 < x.rfmt.toNat) || (decide (5 ≤ x.cfmt.toNat) && x.elements.toNat % 32 ≠ 0)

/-- A list of nodes in strictly ascending order. -/
def ascending : List (BitVec 16) → Bool
  | a :: b :: r => decide (a.toNat < b.toNat) && ascending (b :: r)
  | _ => true

/-- GROUP_FORMAT (R89) of one group, given the groups before it. -/
def groupBad (c : Charter) (before : List GroupDef) (g : GroupDef) : Bool :=
  decide (27 < g.group.toNat) || decide (g.vc.toNat < 4) || decide (31 < g.vc.toNat) ||
  before.any (fun b => b.group = g.group || b.vc = g.vc) || decide (5 < g.order.toNat) || g.members = 0 ||
  decide (65536 < g.members) || decide (1000 < g.hopAllow.toNat) || decide (10000 < g.lhAllow.toNat) ||
  !ascending g.list || g.list.any fun m => !c.nodes.any fun d => d.lnode = m && d.role = 1

/-- GROUP_FORMAT over a charter's groups. -/
def groupsBad (c : Charter) : List GroupDef → List GroupDef → Bool
  | _, [] => false
  | before, g :: r => groupBad c before g || groupsBad c (before ++ [g]) r

/-- A VC in use at this Azard by an active group (R83). -/
def vcBusy (s : State) (v : BitVec 8) (but : Nat) : Bool :=
  (List.range 16).any fun k => k ≠ but && (s.ctx k).clr.groups.any fun g => g.defn.vc = v && (g.clearing || g.transit)

/-- The clearing definition checked and the trees built (R89, R90, R41): the context's clearing state, or the refusal. -/
def clearingDefn (s : State) (n : Nat) : Except DefnFault ClrCtx :=
  let c := s.ctx n
  let ch := c.life.charter
  if (s.segsOf n).any fun x => segBad ch.groups x.2 then .error .segFormat
  else if groupsBad ch [] ch.groups then .error .groupFormat
  else if (s.localNodes n).any fun x => ch.groups.any (fun g => g.list.contains x.1) &&
      !(s.port x.2.toNat).fitted then .error .portAbsent
  else match s.slice n with
    | none => .error .topology
    | some sl =>
      let sorted := sortBy (fun (a b : GroupDef) => decide (a.group.toNat ≤ b.group.toNat)) ch.groups
      let trees := sorted.map (s.groupTree n sl)
      if !s.sliceOk sl || trees.any Option.isNone then .error .topology
      else
        match trees.filterMap id with
        | [] => .error .groupFormat
        | first :: rest =>
          let ts := first :: rest
          let gs := ts.map fun g => { g with reportAllow := if g.root = first.root then 0 else hopAllow g.defn sl g.root first.root }
          let az := sl.map fun x => x.lnode
          let inTree (g : GroupTree) := (s.clearingNodes n sl g.defn).getD []
          .ok { c.clr with
            groups := gs, root := first.root, azards := az
            direct := az.filter fun x => !(inTree first).contains x
            idle := az.filter fun x => !gs.any fun g => (inTree g).contains x }

end State

end Sys2Proof.Machine
end

