-- ==== Sys2Proof/Machine/Wires.lean ====
section
/-!
DEFINITION. Sys2Proof/Machine/Wires.lean: how packets leave the ports: the virtual channel of every packet (R83, R175, R294,
R408), the port of its first hop (R301), the coins it takes at the far end (R282, R283), the classes of a ring that wraps
(R295) and the replay window of an Osfel-L link (R277, R303).
-/

namespace Sys2Proof.Machine

/-- Coordinate and axis length in a coordinate word (R298). -/
def coAxis (w : Word) (a : Nat) : Nat := (w.extractLsb' (8 * a) 8).toNat
def coLen (w : Word) (a : Nat) : Nat := (w.extractLsb' (24 + 8 * a) 8).toNat

/-- Coins of a packet: its bytes rounded up to 256 (R283). -/
def packetCoins (b : Nat) : Nat := (b + 255) / 256

namespace State

/-- The sending side of port p. -/
def out (s : State) (p : Nat) : Egress := Map.get {} s.egress p

/-! ## Virtual channels (R83, R175, R294, R408) -/

/-- The VC of a clearing group of a context, VC0 where the context has no such group. -/
def groupVc (s : State) (n : Nat) (g : BitVec 5) : BitVec 5 :=
  match (s.ctx n).clr.groups.find? fun t => t.defn.group.setWidth 5 = g with
  | some t => t.defn.vc.setWidth 5
  | none => 0

/-- The VC of a segment's group. -/
def segVc (s : State) (n k : Nat) : BitVec 5 := s.groupVc n (Map.get {} (s.ctx n).clr.segs k).group

/-- The VC of a message between neighbours of a tree: the group's, of the group given or else of the first in which the node
is this node's parent or child; VC0 outside the trees, between group roots and the step root (R83). -/
def treeVc (s : State) (n : Nat) (node : BitVec 16) (g : Option (BitVec 5)) : BitVec 5 :=
  match (s.ctx n).clr.groups.find? fun t =>
      (t.children.contains node || t.parent = some node) && (g.all fun x => t.defn.group.setWidth 5 = x) with
  | some t => t.defn.vc.setWidth 5
  | none => 0

/-- The VC of a message kind, group VCs apart (R408). -/
def kindVc (kind : BitVec 8) : BitVec 5 :=
  match kind.toNat with
  | 5 | 6 | 7 | 8 | 9 => 3
  | 0x20 | 0x21 | 0x22 | 0x23 | 0x24 | 0x25 => 1
  | _ => 0

/-- The VC of a request to an address of a Yobel (R175): time, test and probe commands VC3; state port, install records and
program copies VC1; results the group's; other registers VC0. -/
def trayVc (s : State) (addr : Nat) : BitVec 5 :=
  let space := addr / 17592186044416
  let off := addr % 17592186044416
  if space = 0 then (if 0x600 ≤ off && off < 0x800 then 3 else if 0x1000 ≤ off && off < 0x2000 then 1 else 0)
  else if space = 2 then
    let seg := off / 2 ^ 28 % 4096
    s.segVc (off / 2 ^ 40) (if seg = 0xFFF then off % 2 ^ 28 / 16 else seg)
  else if space = 4 && off / 4294967296 % 256 = 15 then 3
  else 1

/-- The VC that a packet of this Azard travels on. -/
def vcOf (s : State) (m : Msg) : BitVec 5 :=
  match m.transit with
  | some t => t.vc
  | none =>
    match m.dest with
    | .yobel _ => if m.op = .msg then kindVc m.kind else s.trayVc m.addr
    | .spillPeer _ => 1
    | .azardOf _ =>
      -- what a Yobel sends: contributions on the group's VC, digest records on VC1, the rest on VC3 (R175, R185, R190, R192)
      if m.op = .msg then kindVc m.kind
      else if m.addr / 2 ^ 44 = 2 then s.segVc (m.addr / 2 ^ 40 % 16) (m.addr / 2 ^ 28 % 4096)
      else if m.addr / 2 ^ 32 % 16 = 0 then 1
      else 3
    | .node c n =>
      if m.op ≠ .msg then 2
      else match m.kind.toNat, m.args with
        | 0x10, k :: _ => s.segVc c k
        | 0x15, k :: _ => s.segVc c k
        | 0x11, g :: _ => s.treeVc c n (some (BitVec.ofNat 5 g))
        | 0x12, _ => s.treeVc c n none
        | 0x13, _ => s.treeVc c n none
        | _, _ => kindVc m.kind
    | _ => kindVc m.kind

/-! ## The first hop (R301) -/

/-- Positions that an announcement shows linked to one of those given. -/
def linkedTo (s : State) (ps : List Word) : List Word :=
  (s.fabric.topo.filter fun t => t.links.any fun l => ps.any fun x => posEq l x).map fun t => t.pos

/-- The lowest fabric port on a shortest path of the announcement table to one of the positions (log entry 79). -/
def pathPort (s : State) : Nat → List Word → Option Nat
  | 0, _ => none
  | k + 1, ps =>
    match ((List.range 16).map (· + 9)).find? fun p => s.portUp p && ps.any fun x => posEq (s.port p).peerPos x with
    | some p => some p
    | none => s.pathPort k (ps ++ (s.linkedTo ps).filter fun x => !ps.contains x)

/-- The slice's node that stands for a logical node: an Azard itself, or the Azard of an accelerator's tray. -/
def sliceNode (s : State) (n : Nat) (sl : List SNode) (x : BitVec 16) : Option SNode :=
  match sl.find? fun v => v.lnode = x with
  | some v => some v
  | none => (s.hostOf n sl x).bind fun h => sl.find? fun v => v.lnode = h

/-- The route of a context's packet from one node to another, in this Azard's view. -/
def ctxRoute (s : State) (n : Nat) (a b : BitVec 16) : Option (List SNode) :=
  (s.slice n).bind fun sl =>
    (s.sliceNode n sl a).bind fun u => (s.sliceNode n sl b).bind fun v => s.route sl u v

/-- The port through which a packet to a node of a context leaves, and the nodes of its route up to the next hop, newest
first: within the slice by R301's routes, to a flue target by a shortest path. -/
def nodeHop (s : State) (n : Nat) (src dst : BitVec 16) : Option (Nat × List SNode) :=
  let self := (s.ctx n).life.self
  if (s.ctx n).life.charter.flues.contains dst then
    match (s.ctx n).life.charter.nodes.find? fun d => d.lnode = dst with
    | some d => (s.pathPort 64 [d.pos]).map fun p => (p, [])
    | none => none
  else
    let from_ (a : BitVec 16) := (s.ctxRoute n a dst).bind fun l =>
      (l.findIdx? fun x => x.lnode = self).bind fun k => (l[k + 1]?).bind fun x =>
        (s.portTo x.pos).map fun p => (p, (l.take (k + 2)).reverse)
    match from_ src with
    | some r => some r
    | none => from_ self

/-- The axis on which two neighbours differ. -/
def hopAxis (a b : SNode) : Option Nat := [0, 1, 2].find? fun ax => a.axis ax ≠ b.axis ax

/-- The hop between two nodes crosses the dateline of an axis: the link between d − 1 and 0 of a ring that wraps (R295). -/
def dateline (a b : SNode) (ax : Nat) : Bool :=
  a.wraps ax && a.len ax ≠ 0 && decide (min (a.axis ax) (b.axis ax) = 0) && decide (max (a.axis ax) (b.axis ax) = a.len ax - 1)

/-- A packet takes the upper class: on the axis of its next hop its way so far, newest node first, has crossed the dateline. -/
def upperClass (ax : Nat) : List SNode → Bool
  | b :: a :: r => hopAxis a b = some ax && (dateline a b ax || upperClass ax (a :: r))
  | _ => false

/-- Port p's link lies on a ring that wraps: the axis on which its ends differ (R295, R298). -/
def onRing (s : State) (p : Nat) : Bool :=
  let a := s.fabric.selfCoord
  let b := (s.port p).peerCoord
  decide (9 ≤ p) && !a.getLsbD 51 &&
    [0, 1, 2].any fun ax => coAxis a ax ≠ coAxis b ax && a.getLsbD (48 + ax) && coLen a ax ≠ 0

/-! ## Coins (R282, R283, R295) -/

/-- Coins of a port crossing, and those of them that are shared: 32 reserved for VC0 and VC3 each, 20 for every other VC and
for the internal class (R282). -/
def portPool : Nat := 4096
def sharedPool : Nat := 3412
def vcReserve (vc : Nat) : Nat := if vc = 0 ∨ vc = 3 then 32 else 20

/-- Coins that a packet of `n` coins takes at the far end of port p: reserved ones of its class first, then shared ones as far
as VC_MAX_PCT lets its VC go; none when it must wait (R283, R295). -/
def coinsFor (s : State) (p : Nat) (e : Egress) (x : WirePkt) : Option Coins :=
  let mine := Map.get [] e.taken x.vc.toNat
  let own := if s.onRing p then vcReserve x.vc.toNat / 2 else vcReserve x.vc.toNat
  let used := ((mine.filter fun c => !s.onRing p || c.upper = x.upper).map fun c => c.reserved).sum
  let n := packetCoins x.bytes
  let r := min n (own - used)
  let all := (e.taken.map fun v => (v.2.map fun c => c.shared).sum).sum
  let vcShared := (mine.map fun c => c.shared).sum
  if n = r || (decide (all + (n - r) ≤ sharedPool) && decide (vcShared + (n - r) ≤ sharedPool * s.alc.vcMaxPct.toNat / 100)) then
    some { upper := x.upper, reserved := r, shared := n - r }
  else none

/-- Coins that come back, to the pool they came from: the oldest held of the VC first (R283; log entry 80). -/
def giveBack : Nat → List Coins → List Coins
  | 0, l => l
  | _, [] => []
  | n + 1, c :: r =>
    if c.reserved ≠ 0 then
      if c.reserved = 1 ∧ c.shared = 0 then giveBack n r else giveBack n ({ c with reserved := c.reserved - 1 } :: r)
    else if c.shared ≤ 1 then giveBack n r
    else giveBack n ({ c with shared := c.shared - 1 } :: r)

/-! ## Replay windows (R277, R303) -/

/-- Fabric ports that a link of a width code occupies (R287). -/
def portsOf (w : BitVec 3) : Nat := match w.toNat with | 3 => 2 | 4 => 4 | _ => 1

/-- Bytes of system reserve for the replay window of port p (R303), and bytes that a window holds. -/
def windowRoom (s : State) (p : Nat) : Nat := 134217728 * portsOf (s.port p).width
def windowUsed (e : Egress) : Nat := (e.window.map fun x => x.2.bytes).sum

/-- 2 MiB spill pages that a window takes beyond the reserve (R277). -/
def windowSpill (s : State) (p : Nat) (e : Egress) : Nat := (windowUsed e - s.windowRoom p + 2097151) / 2097152

/-- A spill peer stands behind a fabric port that is UP; at Osfel revision 2 none does (R275, R300). -/
def spillPort (s : State) (pos : Word) : Option Nat :=
  (s.portTo pos).filter fun p => (s.port p).peerOsfel ≠ 2

/-- The spill peers that the image names and that stand behind a port, in the image's order (R275). -/
def spillPeers (s : State) : List Word :=
  [s.kin.img.spillPeer0, s.kin.img.spillPeer1].filter fun w => w.getLsbD 63 && (s.spillPort w).isSome

/-- The replay window has room for a packet, in the reserve or in REPLAY_SPILL pages at a spill peer; beyond that, coins are
withheld (R277).  Time exchange and replay acknowledgements, on VC3, are not kept (R303). -/
def windowTakes (s : State) (p : Nat) (e : Egress) (x : WirePkt) : Bool :=
  (s.port p).mode ≠ 2 || x.vc = 3 ||
    (let e2 := { e with window := e.window ++ [(0, x)] }
     decide (windowUsed e2 ≤ s.windowRoom p) ||
       (s.spillPeers ≠ [] && decide (s.windowSpill p e2 ≤ s.alc.replaySpill.toNat)))

/-! ## Sending (R295, R302) -/

/-- Codewords that a packet of `n` bytes fills, 630 bytes of packet stream each (R288; log entry 32). -/
def codewordsOf (n : Nat) : Nat := (n + 629) / 630

/-- The retry buffer of port p has room for a packet's codewords: 192 per lane (R293).  An Osfel-L link has none (R303). -/
def retryTakes (s : State) (p : Nat) (e : Egress) (x : WirePkt) : Bool :=
  (s.port p).mode = 2 || decide (e.retry.length + codewordsOf x.bytes ≤ 192 * (s.port p).lanes.toNat)

/-- Port p carries a packet in its state: a port in HELLO or QUARANTINE link-local traffic only (R296), a re-wired one nothing
of the contexts it is closed for (R302). -/
def portCarries (s : State) (p : Nat) (x : WirePkt) : Bool :=
  match (s.port p).state with
  | .up => match x.ctx with
    | some c => !(s.port p).closedFor.contains c.val
    | none => true
  | .hello | .quarantine => x.ctx.isNone
  | _ => false

/-- The spill peer of a window: the first that stands when the window outgrows the reserve, as long as it does (R277). -/
def placeSpill (s : State) (p : Nat) (e : Egress) : Egress :=
  { e with spillAt := if s.windowSpill p e = 0 then 0 else if e.spillAt = 0 then s.spillPeers.headD 0 else e.spillAt }

/-- A packet starts on the link: its coins are taken and its bytes counted; on an Osfel-L link it enters the window under the
next RSN; on others its codewords enter the retry buffer (R293, R295, R303, R306). -/
def startPacket (s : State) (p : Nat) (e : Egress) (x : WirePkt) (c : Coins) : Egress :=
  let e := { e with taken := Map.set [] e.taken x.vc.toNat (Map.get [] e.taken x.vc.toNat ++ [c]), tx := satAdd e.tx x.bytes
                    nonce := if (s.port p).keysSet && !((s.port p).mode = 2 && x.vc ≠ 3) then e.nonce + 1 else e.nonce }
  if (s.port p).mode = 2 && x.vc ≠ 3 then
    s.placeSpill p { e with window := e.window ++ [(e.rsnNext, x)], rsnNext := e.rsnNext + 1 }
  else if (s.port p).mode = 2 then e
  else
    let k := codewordsOf x.bytes
    { e with retry := e.retry ++ (List.range k).map fun i => (e.txSeq + BitVec.ofNat 16 i, x), txSeq := e.txSeq + BitVec.ofNat 16 k }

/-- The waiting packets in order: one starts when the port carries it, no older packet of its VC waits, and the coins and the
replay window have room for the whole of it (R295). -/
def pumpList (s : State) (p : Nat) : Egress → List WirePkt → Egress
  | e, [] => e
  | e, x :: r =>
    if !s.portCarries p x || e.waiting.any (fun y => y.vc = x.vc && y.upper = x.upper) || !s.windowTakes p e x ||
        !s.retryTakes p e x then
      pumpList s p { e with waiting := e.waiting ++ [x] } r
    else match s.coinsFor p e x with
      | some c => pumpList s p (s.startPacket p e x c) r
      | none => pumpList s p { e with waiting := e.waiting ++ [x] } r

/-- Port p sends what it can. -/
def pumpPort (s : State) (p : Nat) : State :=
  let e := s.out p
  { s with egress := Map.set {} s.egress p (s.pumpList p { e with waiting := [] } e.waiting) }

/-- Packets put on port p behind those that wait (R295). -/
def enqueue (s : State) (p : Nat) (xs : List WirePkt) : Map Egress :=
  let e := s.out p
  Map.set {} s.egress p (s.pumpList p { e with waiting := [] } (e.waiting ++ xs))

/-- Lengths of the packets that carry `n` payload bytes, at most 2,048 each; `ext` adds the attempt extension and `long` the
replay word (R291). -/
def packetLens (n : Nat) (ext long : Bool) : List Nat :=
  (List.range (max 1 ((n + 2047) / 2048))).map fun k =>
    min 2048 (n - 2048 * k) + 52 + (if ext then 32 else 0) + (if long then 8 else 0)

/-- Payload bytes of a message: its bytes, and its fields where it has some, whose layout the spec leaves open (log entry 81). -/
def payloadLen (m : Msg) : Nat :=
  m.data.length + (if m.op = .msg && m.args ≠ [] then Config.fieldBytes m.kind m.args.length else 0)

/-- The packets of a message through port p. -/
def packetsOf (s : State) (p : Nat) (upper : Bool) (m : Msg) : List WirePkt :=
  let vc := s.vcOf m
  let c := match m.dest with | .node c _ => some c | _ => none
  match m.transit with
  | some t => [{ vc := vc, upper := upper, ctx := c, bytes := t.bytes }]
  | none =>
    let ext := decide (p < 9) && (m.hdr.isSome || decide (vc = 1))
    (packetLens (payloadLen m) ext ((s.port p).mode = 2 && vc ≠ 3)).map fun b =>
      { vc := vc, upper := upper, ctx := c, bytes := b }

/-- The port that a message leaves by, and whether it goes by the upper class of its group's channel (R295). -/
def hopOf (s : State) (m : Msg) : Option (Nat × Bool) :=
  match m.dest with
  | .link p => some (p, false)
  | .yobel k => some (k, false)
  | .spillPeer pos => (s.spillPort pos).map fun p => (p, false)
  | .node c n =>
    if n = (s.ctx c).life.self then none
    else
      let src := match m.transit with | some t => t.source | none => (s.ctx c).life.self
      (s.nodeHop c src n).map fun (p, way) => (p, match way with
        | b :: a :: _ => ((hopAxis a b).map fun ax => upperClass ax way).getD false
        | _ => false)
  | .firmware | .azardOf _ => none

/-- The ports' sending sides after a message is handed to the port of its first hop; one for this node itself, or for the
firmware, or that no route leads to, takes none. -/
def launch (s : State) (m : Msg) : Map Egress :=
  match s.hopOf m with
  | some (p, up) => s.enqueue p (s.packetsOf p up m)
  | none => s.egress

/-- The first timeout of a request, in µs: 100, and over an Osfel-L link twice its measured round trip and 400 (R411). -/
def firstWait (s : State) (m : Msg) : Nat :=
  match s.hopOf m with
  | some (p, _) => if (s.port p).mode = 2 then 2 * (s.port p).rtt.toNat / 1000 + 400 else 100
  | none => 100

/-- The ports' sending sides after a response to a request: it travels on the request's VC to the requester (R291). -/
def respondOn (s : State) (rq : Req) (data : Bytes) : Map Egress :=
  match rq.path with
  | .port p =>
    let q := if rq.ctxv then ((s.nodeHop rq.ctx (s.ctx rq.ctx).life.self rq.source).map Prod.fst).getD p.val else p.val
    s.enqueue q ((packetLens data.length false ((s.port q).mode = 2 && rq.vc ≠ 3)).map fun b =>
      { vc := rq.vc, upper := false, ctx := if rq.ctxv then some rq.ctx else none, bytes := b })
  | _ => s.egress

/-- Coins come back on port p (R283, R289). -/
def returnCoins (s : State) (p : Nat) (vc : BitVec 5) (n : Nat) : State :=
  let e := s.out p
  let e := { e with taken := Map.set [] e.taken vc.toNat (giveBack n (Map.get [] e.taken vc.toNat)) }
  { s with egress := Map.set {} s.egress p e }.pumpPort p

/-- Codewords up to an acknowledged SEQ leave the retry buffer (R289, R293). -/
def ackRetry (s : State) (p : Nat) (seq : BitVec 16) : State :=
  let e := s.out p
  if e.retry.any fun x => x.1 = seq then
    let left := (e.retry.dropWhile fun (x : BitVec 16 × WirePkt) => x.1 ≠ seq).drop 1
    { s with egress := Map.set {} s.egress p { e with retry := left } }.pumpPort p
  else s

/-- An Osfel-L window freed up to an acknowledged RSN (R303). -/
def ackWindow (s : State) (p : Nat) (rsn : BitVec 48) : State :=
  let e := s.out p
  let e := s.placeSpill p { e with window := e.window.filter fun x => decide (rsn.toNat < x.1.toNat) }
  { s with egress := Map.set {} s.egress p e }.pumpPort p

/-- The link has left its state: what was in flight is lost, the receive room is empty again, and an Osfel-L window is
renumbered from RSN 0 (R302, R303). -/
def resetEgress (s : State) (p : Nat) : State :=
  let e := s.out p
  let w := e.window.zipIdx.map fun x => (BitVec.ofNat 48 x.2, x.1.2)
  { s with egress := Map.set {} s.egress p { e with
    taken := [], retry := [], txSeq := 0, nonce := 0, window := w, rsnNext := BitVec.ofNat 48 w.length } }

/-- Port p's link is closed for contexts: packets of theirs that wait are dropped (R302). -/
def dropClosed (s : State) (p : Nat) : State :=
  let e := s.out p
  let keep (x : WirePkt) : Bool := match x.ctx with | some c => !(s.port p).closedFor.contains c.val | none => true
  { s with egress := Map.set {} s.egress p { e with waiting := e.waiting.filter keep, window := e.window.filter fun x => keep x.2 } }

/-- The packets of a window that the reserve holds: the overflow is lost with the spill peer that held it (R278). -/
def reserveOnly (room : Nat) : Nat → List (BitVec 48 × WirePkt) → List (BitVec 48 × WirePkt)
  | _, [] => []
  | used, x :: r => if used + x.2.bytes ≤ room then x :: reserveOnly room (used + x.2.bytes) r else []

/-- Osfel-L ports whose window has overflow at the spill peer of a position. -/
def spilledPorts (s : State) (pos : Word) : List Nat :=
  (s.egress.filter fun x => x.2.spillAt ≠ 0 && posEq x.2.spillAt pos).map Prod.fst

/-- Replay content at a lost spill peer is lost (R278). -/
def loseSpilled (s : State) (p : Nat) : State :=
  let e := s.out p
  { s with egress := Map.set {} s.egress p { e with window := reserveOnly (s.windowRoom p) 0 e.window, spillAt := 0 } }

/-! ## Stamps (R313, R314) -/

/-- The path corrections of R314, in 2⁻³² ns: what is added to a transmit stamp and taken from a receive stamp, by the peer's
revision and the link's FEC mode. -/
def txCorrection (q : Port) : Nat := (if q.peerOsfel = 2 then 150 else 115) * 536870912
def rxCorrection (q : Port) : Nat :=
  (if q.peerOsfel = 2 then (if q.fec then 850 else 460) else if q.fec then 710 else 390) * 536870912

/-- A transmit or receive stamp of port p, from what is taken at the MAC reference point under the increment in force (R313,
R314, R325). -/
def txStamp (s : State) (p : Nat) (t : MacStamp) : Stamp := t.read s.tim.inc + txCorrection (s.port p)
def rxStamp (s : State) (p : Nat) (t : MacStamp) : Stamp := t.read s.tim.inc - rxCorrection (s.port p)

/-- The ingress stamp of a request that came through a port. -/
def ingress (s : State) (rq : Req) (t : MacStamp) : Stamp :=
  match rq.path with
  | .port p => s.rxStamp p t
  | _ => t.read s.tim.inc

end State

end Sys2Proof.Machine
end

