-- ==== Sys2Proof/Machine/Ops.lean ====
section
/-!
DEFINITION. Sys2Proof/Machine/Ops.lean: the named operations over State that the commands share: the event recorder and
tallies, answers and messages, epochs, and the judging of a request.
-/

namespace Sys2Proof.Machine

namespace State

/-! ## Tallies, the event recorder (R393, R398–R400, R436) -/

/-- Tally i (R393). -/
def tally (s : State) (i : Nat) : Word := Map.get 0 s.evr.tallies i
def setTally (s : State) (i : Nat) (v : Word) : State := { s with evr.tallies := Map.set 0 s.evr.tallies i v }
/-- A tally raised by 1, saturating. -/
def bumpTally (s : State) (i : Nat) : State := s.setTally i (satInc (s.tally i))
/-- A tally raised by n, saturating. -/
def addTally (s : State) (i n : Nat) : State := s.setTally i (satAdd (s.tally i) n)

end State

/-- SOURCE of an event record (R398, R436): kind, index and, for kind 5, the shard ledger entry. -/
def evSource (kind index : Nat) (ent : Nat := 0) : BitVec 32 :=
  BitVec.ofNat 32 (kind + index * 256 + ent * 65536)

/-- A signed value as a DETAIL word: saturated to 32 bits (R436). -/
def detailInt (x : Int) : BitVec 32 :=
  if x < -2147483648 then 0x80000000 else if 2147483647 < x then 0x7FFFFFFF else BitVec.ofInt 32 x

/-- The event recorder partition's capacity in 64-byte records: 64 MiB (R392, R398). -/
def recorderRecords : Nat := 1048576

namespace Evr

/-- The same event again: CLASS, NUMBER, SOURCE and DETAIL all equal (R399). -/
def sameEvent (a b : Record) : Bool :=
  a.cls = b.cls && a.number = b.number && a.source = b.source && a.w0 = b.w0 && a.w1 = b.w1 && a.w2 = b.w2

/-- A record whose event happened again at `t`. -/
def again (r : Record) (t : Word) : Record := { r with rpt := satInc r.rpt, last := t }

/-- A closed record written to the NAND; a full partition loses its oldest block (R399), a stopped one counts the
record in LOST (R392). -/
def store (e : Evr) (r : Record) : Evr :=
  if e.stopped.contains 2 then { e with lost := satInc e.lost }
  else if e.stored.length < recorderRecords then { e with stored := e.stored ++ [r] }
  else
    let n := Config.recorderBlock.val + 1
    { e with stored := e.stored.drop n ++ [r], overwritten := satAdd e.overwritten (min n e.stored.length) }

/-- SEQ of the newest record held, the open one (R400). -/
def newest (e : Evr) : BitVec 32 := e.nextSeq - 1

/-- SEQ of the oldest record held. -/
def oldest (e : Evr) : BitVec 32 :=
  match e.stored ++ e.queue ++ e.opened.toList with
  | [] => e.nextSeq
  | r :: _ => r.seq

/-- A record put into the holding queue of 256; a full queue loses the event (R400). -/
def hold (e : Evr) (r : Record) : Evr :=
  if e.queue.length < 256 then { e with queue := e.queue ++ [{ r with queued := true }] }
  else { e with lost := satInc e.lost }

/-- An event enters the recorder (R399, R400). -/
def add (e : Evr) (r : Record) : Evr :=
  if e.freeze then
    match e.queue.getLast? with
    | some l =>
      if sameEvent l r then { e with queue := e.queue.dropLast ++ [again l r.last] }
      else Evr.hold { e with nextSeq := if e.queue.length < 256 then e.nextSeq + 1 else e.nextSeq } r
    | none =>
      match e.opened with
      | some o =>
        if sameEvent o r then { e with opened := some (again o r.last) }
        else Evr.hold (Evr.hold { e with opened := none, nextSeq := e.nextSeq + 1 } o) r
      | none => Evr.hold { e with nextSeq := e.nextSeq + 1 } r
  else
    match e.opened with
    | some o =>
      if sameEvent o r then { e with opened := some (again o r.last) }
      else Evr.store { e with opened := some r, nextSeq := e.nextSeq + 1 } o
    | none => { e with opened := some r, nextSeq := e.nextSeq + 1 }

/-- The holding queue written in order when the partition may be written again; its last record is the open one
(R400). -/
def flush (e : Evr) : Evr :=
  match e.queue.getLast? with
  | none => e
  | some l =>
    let e1 := (e.opened.toList ++ e.queue.dropLast).foldl Evr.store { e with queue := [], opened := none }
    { e1 with opened := some l }

end Evr

namespace State

/-- An event recorded with its SOURCE and DETAIL words (R399, R436). -/
def record (s : State) (cls number : Nat) (source w0 w1 w2 : BitVec 32) : State :=
  let r : Record :=
    { seq := s.evr.nextSeq, cls := BitVec.ofNat 8 cls, number := BitVec.ofNat 16 number, source := source, rpt := 1,
      queued := false, opSec := s.tally 1, cycles := (s.tally 0).setWidth 32, first := s.now, last := s.now,
      w0 := w0, w1 := w1, w2 := w2 }
  { s with evr := Evr.add s.evr r }

/-- An event with no code and no further value. -/
def event (s : State) (cls number : Nat) (source : BitVec 32) : State := s.record cls number source 0 0 0

/-- An event whose word 0 is a code. -/
def eventCode (s : State) (cls number : Nat) (source : BitVec 32) (code : Nat) : State :=
  s.record cls number source (BitVec.ofNat 32 code) 0 0

/-- A tally journal record written to the NAND (R394), the one before it kept where it is not damaged; a stopped partition
takes none (R392). -/
def journalWrite (s : State) : State :=
  if s.evr.stopped.contains 3 then s
  else { s with evr.journalPrev := if s.evr.journalDamaged then s.evr.journalPrev else s.evr.journal
                evr.journal := s.evr.tallies, evr.journalSeq := s.evr.journalSeq + 1, evr.journalDamaged := false }

/-- A flag for replacement: the newest of the sixteen (R393) with the device's serial number and its port, 0xFF and
serial 0 for this package; the tally rises and the journal is written (R394). -/
def flagReplace (s : State) (serial : Word) (port : Nat) : State :=
  let k := (s.tally 26).toNat % 16
  let v : Word := BitVec.ofNat 64 (port + 256 * s.tim.rtcSec.toNat)
  (((s.bumpTally 26).setTally (32 + 2 * k) serial).setTally (33 + 2 * k) v).journalWrite

/-! ## Answers and messages -/

/-- The EPOCH field that Azard's packets carry (R370): the package epoch's low half over the context's. -/
def epochOf (s : State) (ctxv : Bool) (n : Nat) : BitVec 32 :=
  s.rst.epoch.setWidth 16 ++ (if ctxv then (s.ctx n).epoch else 0)

/-- The newest command's answers and packets are its own. -/
def begin (s : State) : State := { s with answers := [], sent := [] }

/-- One answer given to a request. -/
def answer (s : State) (rq : Req) (r : Result) (cause : BitVec 8 := 0) (data : Bytes := []) : State :=
  { s with
    answers := s.answers ++ [{ result := r, cause := cause, epoch := s.epochOf rq.ctxv rq.ctx, data := data }]
    egress := s.respondOn rq data }

/-- RESULT OK without a payload (R404). -/
def ok (s : State) (rq : Req) : State := s.answer rq .ok
/-- NACK_BUSY with a cause (R407). -/
def busy (s : State) (rq : Req) (cause : Nat) : State := s.answer rq .nackBusy (BitVec.ofNat 8 cause)
def nackAccess (s : State) (rq : Req) : State := s.answer rq .nackAccess
def nackAddress (s : State) (rq : Req) : State := s.answer rq .nackAddress
def nackClaim (s : State) (rq : Req) : State := s.answer rq .nackClaim
def nackRetry (s : State) (rq : Req) : State := s.answer rq .nackRetry

/-- A packet put on a wire that is never answered or repeated. -/
def send (s : State) (m : Msg) : State := { s with sent := s.sent ++ [m], egress := s.launch m }

/-- A request sent: it stays outstanding under a REQ_ID of its own until its answer ends it (R409, R411). -/
def request (s : State) (m : Msg) : State :=
  let o : Outstanding := { id := s.ctl.nextId, msg := m, wait := s.firstWait m, since := s.now }
  { s with sent := s.sent ++ [m], egress := s.launch m, ctl.out := s.ctl.out ++ [o], ctl.nextId := s.ctl.nextId + 1 }

/-- A request of one message kind to a node of a context (the messages that R408 marks as acked). -/
def note (s : State) (c : Fin 16) (n : BitVec 16) (kind : Nat) (hdr : Option AttHdr) (args : List Nat)
    (data : Bytes := []) : State :=
  s.request { dest := .node c n, op := .msg, kind := BitVec.ofNat 8 kind, hdr := hdr, args := args, data := data }

/-- The same note to each of several nodes. -/
def notes (s : State) (c : Fin 16) (ns : List (BitVec 16)) (kind : Nat) (hdr : Option AttHdr) (args : List Nat)
    (data : Bytes := []) : State :=
  ns.foldl (fun t n => t.note c n kind hdr args data) s

/-- A WR to an address of the Yobel of tray port k. -/
def yobelWr (s : State) (k : Fin 9) (addr : Nat) (data : Bytes) (hdr : Option AttHdr := none) : State :=
  s.request { dest := .yobel k, op := .wr, addr := addr, hdr := hdr, data := data }

/-! ## Judging a request -/

/-- SEC_ACCESS.SOURCE counts a packet discarded under R338, with event SEC-010. -/
def sourceDrop (s : State) (p : Nat) : State :=
  { s with sec.sourceDrops := satInc s.sec.sourceDrops }.event 17 10 (evSource 1 p)

/-- The SOURCE of a packet with CTXV = 1 is a node that the charter binds to the peer (R338): any source from an Azard;
a bound accelerator node; an endpoint whose SUBJECT is the peer's; a flue target at the peer's position. -/
def sourceOk (s : State) (p : Nat) (rq : Req) : Bool :=
  let q := s.port p
  let c := s.ctx rq.ctx
  q.peerRole = 0 ||
  c.bind.bound.any (fun b => b.1 = rq.source && b.2.toNat = p) ||
  c.life.charter.endpoints.any (fun e => e.1 = rq.source && e.2 = q.peerSubject) ||
  (c.life.charter.flues.contains rq.source &&
    c.life.charter.nodes.any (fun n => n.lnode = rq.source && posEq n.pos q.peerPos))

/-- The requester is a charter endpoint of CONTEXT (R343). -/
def endpoint (s : State) (rq : Req) : Bool :=
  rq.ctxv && (match rq.path with | .port _ => true | _ => false) &&
    (s.ctx rq.ctx).life.charter.endpoints.any (fun e => e.1 = rq.source)

/-- The requester uses a management path (R343). -/
def management (rq : Req) : Bool := match rq.path with | .port _ => false | _ => true

/-- What a management path reaches in each power state: nothing while the pilot rail is off or a rail loss stops every
answer (R426); while the core rails are off, the registers of R365 only. -/
def admitPower (s : State) (rq : Req) (ember : Bool) (k : State → State) : State :=
  match s.kin.power with
  | .off | .railLost => s
  | .ready | .pilotOnly | .waking => k s
  | _ => if ember then k s else s.nackAddress rq

/-- The requests accepted and not answered yet: mirror-window writes, and commands that wait (R137, R339). -/
def unanswered (s : State) : List Req :=
  (s.mir.entries.flatMap fun e => e.2.windowWrites.map fun w => w.req) ++ (s.ctxs.flatMap fun c => c.2.life.waitReq.toList)

/-- As many requests of port p are unanswered as are held for a port: 1,024 (R409; log entry 103). -/
def queueFull (s : State) (p : Fin 25) : Bool := decide (1024 ≤ (s.unanswered.filter fun r => r.path = .port p).length)

/-- A request is judged before its own rule is: the power state (R365, R426), the port, the node (R402), its SOURCE
where `src` asks for it (R338) and its EPOCH (R371).  `ember`: the register answers in ember mode and during a kindling
(R365).  What passes goes on as `k`. -/
def admitWith (src : Bool) (s : State) (rq : Req) (ember : Bool) (k : State → State) : State :=
  match rq.path with
  | .port p =>
    if s.kin.power = .ready then
      -- a drained Azard carries only hello, time exchange and VC2 transit (R382)
      if !s.portUp p || s.rst.drained then s
      else if rq.ctxv then
        if (s.port p).closedFor.contains rq.ctx then s
        else if src && !s.sourceOk p rq then s.sourceDrop p
        else if rq.epoch ≠ s.epochOf true rq.ctx then s.nackRetry rq
        else if s.queueFull p then s.busy rq 0x16
        else k s
      else if rq.node ≠ 0xFFFF then s.nackAddress rq
      else if rq.epoch ≠ s.epochOf false rq.ctx then s.nackRetry rq
      else if s.queueFull p then s.busy rq 0x16
      else k s
    else if s.kin.inRecovery then s.nackRetry rq
    else s
  | .i3c => s.admitPower rq ember k
  | .sgmii =>
    if !s.rst.mpdUp || rq.ctxv then s
    else if rq.node ≠ 0xFFFF then s.admitPower rq true fun s => s.nackAddress rq
    else if rq.epoch ≠ s.epochOf false rq.ctx then s.admitPower rq true fun s => s.nackRetry rq
    else s.admitPower rq ember k

/-- The judgement of an ordinary request, its SOURCE included. -/
def judge (s : State) (rq : Req) (ember : Bool) (k : State → State) : State := s.admitWith true rq ember k

/-- Who may use a register or command of control space (R343, R413). -/
inductive Who
  /-- a management path or a charter endpoint -/
  | both
  /-- a management path only -/
  | mgmt
  /-- a charter endpoint only -/
  | charter

/-- The requester is one that may make the request (R343). -/
def mayUse (s : State) (rq : Req) : Who → Bool
  | .both => management rq || s.endpoint rq
  | .mgmt => management rq
  | .charter => s.endpoint rq

/-- A request to control space by a requester that may make it; another answers NACK_ACCESS (R343). -/
def control (s : State) (rq : Req) (ember : Bool) (who : Who) (k : State → State) : State :=
  s.judge rq ember fun s => if s.mayUse rq who then k s else s.nackAccess rq

/-- The kept answer of a request of R412, when one matches path, SOURCE, REQ_ID and ADDRESS. -/
def keptAnswer (s : State) (rq : Req) (address : Nat) : Option KeptAnswer :=
  s.ctl.kept.find? fun a => a.path = rq.path && a.source = rq.source && a.reqId = rq.reqId && a.address = address &&
    !s.outside a.time second

/-- The newest answer kept for a request of R412, among the path's newest 1,024. -/
def keepAnswer (t : State) (rq : Req) (address : Nat) : State :=
  match t.answers.getLast? with
  | none => t
  | some a =>
    let mine := t.ctl.kept.filter fun x => x.path = rq.path
    let full := if mine.length < 1024 then t.ctl.kept
      else match mine.head? with
        | some o => t.ctl.kept.erase o
        | none => t.ctl.kept
    { t with ctl.kept := full ++ [{ path := rq.path, source := rq.source, reqId := rq.reqId, address := address,
                                    answer := a, time := t.now }] }

/-- A kept answer is given again. -/
def again (s : State) (rq : Req) (a : Answer) : State :=
  { s with answers := s.answers ++ [a], egress := s.respondOn rq a.data }

/-- An access whose repeat would double its effect (R412): a repeat gets the kept answer; a new one acts, and its answer
is kept. -/
def once (s : State) (rq : Req) (address : Nat) (k : State → State) : State :=
  match s.keptAnswer rq address with
  | some a => s.again rq a.answer
  | none => (k s).keepAnswer rq address

/-- A message addressed to this Azard: judged, acted on, and answered OK (R408 "Acked"). -/
def message (s : State) (rq : Req) (k : State → State) : State := s.begin.judge rq false fun s => (k s).ok rq

/-- A message that is never answered (R408); no receiver judges its EPOCH (R371). -/
def messageQuiet (s : State) (rq : Req) (k : State → State) : State :=
  match rq.path with
  | .port p =>
    let s := s.begin
    if s.kin.power ≠ .ready || !s.portUp p then s
    else if rq.ctxv then
      if (s.port p).closedFor.contains rq.ctx then s
      else if s.sourceOk p rq then k s
      else s.sourceDrop p
    else k s
  | _ => s.begin

/-- A request by Osfel to a space that no management path reaches (R414). -/
def osfel (s : State) (rq : Req) (k : State → State) : State :=
  match rq.path with
  | .port _ => s.begin.judge rq false k
  | _ => s.begin

/-! ## Contexts and shared state changes -/

/-- The contexts' numbers. -/
def ctxNums : List (Fin 16) := List.finRange 16

/-- Every context is EMPTY (R334). -/
def allEmpty (s : State) : Bool := ctxNums.all fun n => (s.ctx n).life.st = .empty

/-- A context's epoch raised by 1 (R370). -/
def raiseEpoch (s : State) (n : Nat) : State := s.modCtx n fun c => { c with epoch := c.epoch + 1 }

/-- A zeroisation of a scope has completed (R350): SEC_ZERO and SEC-040. -/
def zeroised (s : State) (scope : Nat) : State :=
  { s with sec.zeroCount := satInc s.sec.zeroCount, sec.zeroLast := BitVec.ofNat 4 scope }.eventCode 17 40 0 scope

/-- The out-of-service state with its cause, held in the tally journal (R381, R393 index 30, R394). -/
def setOos (s : State) (cause : Nat) : State :=
  ({ s with rst.oos := true, rst.oosCause := BitVec.ofNat 8 cause }.setTally 30 (BitVec.ofNat 64 cause)).journalWrite

/-- Out of service with every context EMPTY, Azard is drained: a flag for replacement, RST-031, TST_SELF.FLAGGED
(R382). -/
def drainIfEmpty (s : State) : State :=
  if s.rst.oos && !s.rst.drained && s.allEmpty then
    let t := { s with rst.drained := true, tst.flagged := true, tst.draining := false }
    ((t.setTally 30 (s.tally 30 ||| 0x100)).flagReplace 0 0xFF).event 19 31 0
  else s

end State

end Sys2Proof.Machine
end

