-- ==== Sys2Proof/Machine/Flags.lean ====
section
/-!
DEFINITION. Sys2Proof/Machine/Flags.lean: the number formats (03 R59–R62), rounding and the sticky flags of
floating-point operations (03 R75–R80, 06 R154), conversion into the ledger (R63) and final rounding (R69–R71).
-/

namespace Sys2Proof.Machine

/-- Exponent bits, mantissa bits and bias of the formats of codes 0–4 (R59); other codes as code 0. -/
structure Fmt where
  exp : Nat
  man : Nat
  bias : Nat
  deriving DecidableEq, Repr

/-- The format of a code (R59). -/
def fmt (code : Nat) : Fmt :=
  match code with
  | 1 => ⟨8, 7, 127⟩
  | 2 => ⟨5, 10, 15⟩
  | 3 => ⟨4, 3, 7⟩
  | 4 => ⟨5, 2, 15⟩
  | _ => ⟨8, 23, 127⟩

/-- Width in bits of a format code 0–4. -/
def fmtWidth (code : Nat) : Nat :=
  match code with
  | 0 => 32
  | 1 => 16
  | 2 => 16
  | _ => 8

/-- The canonical NaN of a code (R59). -/
def canonicalNaN (code : Nat) : Nat :=
  match code with
  | 0 => 0x7FC00000
  | 1 => 0x7FC0
  | 2 => 0x7E00
  | 3 => 0x7F
  | _ => 0x7E

/-- What a bit pattern stands for: NaN, an infinity, or ±m × 2^q (a zero has m = 0). -/
inductive FVal
  | nan
  | inf (neg : Bool)
  | num (neg : Bool) (m : Nat) (q : Int)
  deriving DecidableEq, Repr

/-- Bits needed to write a number. -/
def bitLength (n : Nat) : Nat := if n = 0 then 0 else Nat.log2 n + 1

/-- The value of a pattern in a format (R59). -/
def decodeF (code : Nat) (bits : Nat) : FVal :=
  let f := fmt code
  let neg := (bits >>> (f.exp + f.man)) % 2 = 1
  let e := (bits >>> f.man) % 2 ^ f.exp
  let m := bits % 2 ^ f.man
  let top := 2 ^ f.exp - 1
  if code = 3 then
    if e = top && m = 7 then .nan
    else if e = 0 then .num neg m (1 - (f.bias : Int) - f.man) else .num neg (m + 2 ^ f.man) ((e : Int) - f.bias - f.man)
  else if e = top then (if m = 0 then .inf neg else .nan)
  else if e = 0 then .num neg m (1 - (f.bias : Int) - f.man)
  else .num neg (m + 2 ^ f.man) ((e : Int) - f.bias - f.man)

/-- A pattern is subnormal and not zero. -/
def isSubnormal (code bits : Nat) : Bool :=
  let f := fmt code
  (bits >>> f.man) % 2 ^ f.exp = 0 && bits % 2 ^ f.man ≠ 0

/-- An operand as read: under flush-to-zero a subnormal reads as zero of its sign (R78). -/
def readF (ftz : Bool) (code bits : Nat) : FVal :=
  match decodeF code bits with
  | .num n m q => if ftz && isSubnormal code bits then .num n 0 0 else .num n m q
  | v => v

/-- The flags IV, DZ, OF, UF, NX in the order of ESTAT (R143). -/
abbrev FFlags := BitVec 5
def flagIV : FFlags := 1
def flagDZ : FFlags := 2
def flagOF : FFlags := 4
def flagUF : FFlags := 8
def flagNX : FFlags := 16

/-- A result pattern with the flags that its operation raises. -/
abbrev FRes := Nat × FFlags

/-- The sign bit of a format at its place. -/
def signBits (code : Nat) (neg : Bool) : Nat := if neg then 2 ^ (fmtWidth code - 1) else 0

/-- A signed zero. -/
def zeroF (code : Nat) (neg : Bool) : Nat := signBits code neg

/-- A signed infinity; in E4M3 an exact infinity is the canonical NaN (R75). -/
def infF (code : Nat) (neg : Bool) : Nat :=
  if code = 3 then canonicalNaN 3
  else signBits code neg + (2 ^ (fmt code).exp - 1) * 2 ^ (fmt code).man

/-- The largest finite magnitude's pattern: in E4M3 448, which overflow delivers (R70, R75). -/
def maxF (code : Nat) : Nat :=
  if code = 3 then 0x7E else (2 ^ (fmt code).exp - 1) * 2 ^ (fmt code).man - 1

/-- The exponent of the smallest normal number. -/
def emin (code : Nat) : Int := 1 - ((fmt code).bias : Int)

/-- m × 2^q cut at weight 2^t: quotient, remainder and divisor; exact when t ≤ q. -/
def cutAt (m : Nat) (q t : Int) : Nat × Nat × Nat :=
  if t ≤ q then (m <<< (q - t).toNat, 0, 1)
  else (m >>> (t - q).toNat, m % 2 ^ (t - q).toNat, 2 ^ (t - q).toNat)

/-- roundTiesToEven at weight 2^t; `sticky`: the exact magnitude lies above m × 2^q and below (m + 1) × 2^q.
Answers the rounded quotient and whether it is inexact. -/
def rneAt (m : Nat) (q t : Int) (sticky : Bool) : Nat × Bool :=
  let (d, r, u) := cutAt m q t
  let up := if u = 1 then false
    else decide (u < 2 * r) || (decide (2 * r = u) && (sticky || d % 2 = 1))
  (if up then d + 1 else d, r ≠ 0 || sticky)

/-- The pattern of magnitude d × 2^t, which the format holds or which lies beyond its largest exponent. -/
def packF (code : Nat) (d : Nat) (t : Int) : Nat :=
  let f := fmt code
  let (d, t) := if 2 ^ (f.man + 1) ≤ d then (d / 2, t + 1) else (d, t)
  if d < 2 ^ f.man then d
  else ((t - (emin code - f.man)).toNat + 1) * 2 ^ f.man + (d - 2 ^ f.man)

/-- The magnitude d × 2^t exceeds the format's largest finite one. -/
def beyond (code : Nat) (d : Nat) (t : Int) : Bool := decide (maxF code < packF code d t)

/-- A finite result rounded once to a format (R75, R154; tininess after rounding, R60): ±m × 2^q, `sticky` as in
`rneAt`.  With FTZ a subnormal result that is not zero is replaced by zero (R78). -/
def roundF (code : Nat) (ftz neg : Bool) (m : Nat) (q : Int) (sticky : Bool) : FRes :=
  if m = 0 && !sticky then (zeroF code neg, 0)
  else
    let f := fmt code
    let e : Int := q + bitLength m - 1
    let tn := e - f.man
    let t := max tn (emin code - f.man)
    let (d, nx) := rneAt m q t sticky
    if beyond code d t then
      (if code = 3 then signBits 3 neg + maxF 3 else infF code neg, flagOF ||| flagNX)
    else
      let (du, _) := rneAt m q tn sticky
      let tiny := decide (e < emin code) && !(decide (e = emin code - 1) && decide (du = 2 ^ (f.man + 1)))
      let bits := signBits code neg + packF code d t
      let fl := (if nx then flagNX else 0) ||| (if nx && tiny then flagUF else 0)
      if ftz && d ≠ 0 && decide (d < 2 ^ f.man) && decide (t = emin code - f.man) then
        (zeroF code neg, fl ||| flagUF ||| flagNX)
      else (bits, fl)

/-- The canonical NaN without a flag, and with IV. -/
def nanF (code : Nat) : FRes := (canonicalNaN code, 0)
def invalidF (code : Nat) : FRes := (canonicalNaN code, flagIV)

/-- The sum of two finite values as ±m × 2^q; an exact zero is −0 only when both are negative zeros (IEEE 754). -/
def addNum (n1 : Bool) (m1 : Nat) (q1 : Int) (n2 : Bool) (m2 : Nat) (q2 : Int) : Bool × Nat × Int :=
  let q := min q1 q2
  let a : Int := (m1 <<< (q1 - q).toNat : Nat)
  let b : Int := (m2 <<< (q2 - q).toNat : Nat)
  let x := (if n1 then -a else a) + (if n2 then -b else b)
  (if x = 0 then (if m1 = 0 && m2 = 0 then n1 && n2 else false) else decide (x < 0), x.natAbs, q)

/-- A + B of values, rounded once. -/
def addV (code : Nat) (ftz : Bool) (x y : FVal) : FRes :=
  match x, y with
  | .nan, _ => nanF code
  | _, .nan => nanF code
  | .inf a, .inf b => if a = b then (infF code a, 0) else invalidF code
  | .inf a, _ => (infF code a, 0)
  | _, .inf b => (infF code b, 0)
  | .num n1 m1 q1, .num n2 m2 q2 =>
    let r := addNum n1 m1 q1 n2 m2 q2
    roundF code ftz r.1 r.2.1 r.2.2 false

/-- The negative of a value. -/
def negV : FVal → FVal
  | .nan => .nan
  | .inf n => .inf !n
  | .num n m q => .num (!n) m q

/-- The exact product of two values; `none` for 0 × ∞. -/
def mulV (x y : FVal) : Option FVal :=
  match x, y with
  | .nan, _ => some .nan
  | _, .nan => some .nan
  | .inf a, .inf b => some (.inf (a != b))
  | .inf a, .num b m _ => if m = 0 then none else some (.inf (a != b))
  | .num a m _, .inf b => if m = 0 then none else some (.inf (a != b))
  | .num a m q, .num b n r => some (.num (a != b) (m * n) (q + r))

/-- A value delivered to a format, rounded once (R75): a NaN is canonical; an infinity is itself, or NaN in E4M3. -/
def deliverV (code : Nat) (ftz : Bool) (v : FVal) : FRes :=
  match v with
  | .nan => nanF code
  | .inf n => (infF code n, 0)
  | .num n m q => roundF code ftz n m q false

/-- A × B (R75). -/
def mulF (code : Nat) (ftz : Bool) (x y : FVal) : FRes :=
  match mulV x y with
  | none => invalidF code
  | some v => deliverV code ftz v

/-- A × B + C with one rounding; 0 × ∞ is invalid whatever the addend (R154). -/
def fmaF (code : Nat) (ftz : Bool) (x y z : FVal) : FRes :=
  match mulV x y with
  | none => invalidF code
  | some v => addV code ftz v z

/-- A / B, correctly rounded (R75, R154). -/
def divF (code : Nat) (ftz : Bool) (x y : FVal) : FRes :=
  match x, y with
  | .nan, _ => nanF code
  | _, .nan => nanF code
  | .inf _, .inf _ => invalidF code
  | .inf a, .num b _ _ => (infF code (a != b), 0)
  | .num a _ _, .inf b => (zeroF code (a != b), 0)
  | .num a m q, .num b n r =>
    if n = 0 then (if m = 0 then invalidF code else (infF code (a != b), flagDZ))
    else if m = 0 then (zeroF code (a != b), 0)
    else
      let k := bitLength n + 64
      roundF code ftz (a != b) ((m <<< k) / n) (q - r - k) ((m <<< k) % n ≠ 0)

/-- The integer square root by bits: the largest r of at most `k` bits with r² ≤ n. -/
def isqrtBits (n : Nat) : Nat → Nat → Nat
  | 0, r => r
  | k + 1, r => let c := r + 2 ^ k; isqrtBits n k (if c * c ≤ n then c else r)

/-- The integer square root. -/
def isqrt (n : Nat) : Nat := isqrtBits n (bitLength n / 2 + 1) 0

/-- √A, correctly rounded; the root of a number below −0 is invalid (R154). -/
def sqrtF (code : Nat) (ftz : Bool) (x : FVal) : FRes :=
  match x with
  | .nan => nanF code
  | .inf n => if n then invalidF code else (infF code false, 0)
  | .num n m q =>
    if m = 0 then (zeroF code n, 0)
    else if n then invalidF code
    else
      let k : Nat := if q % 2 = 0 then 64 else 65
      let a := m <<< k
      let r := isqrt a
      roundF code ftz false r ((q - k) / 2) (r * r ≠ a)

/-- 1 / √A, correctly rounded; of ±0 it is ±∞ with DZ (R75, R154). -/
def rsqrtF (code : Nat) (ftz : Bool) (x : FVal) : FRes :=
  match x with
  | .nan => nanF code
  | .inf n => if n then invalidF code else (zeroF code false, 0)
  | .num n m q =>
    if m = 0 then (infF code n, flagDZ)
    else if n then invalidF code
    else
      -- 1 / √(m × 2^q) = √(2^k / m) × 2^(−(q + k) / 2), with q + k even
      let k0 : Nat := 2 * bitLength m + 128
      let k : Nat := if (q + k0) % 2 = 0 then k0 else k0 + 1
      let a := 2 ^ k / m
      let r := isqrt a
      roundF code ftz false r (-((q + k) / 2)) (r * r * m ≠ 2 ^ k)

/-- The total order of minimumNumber and maximumNumber: −0 below +0 (R76). -/
def lessNum (x y : FVal) : Bool :=
  let key (v : FVal) : Int × Int := match v with
    | .nan => (0, 0)
    | .inf n => (if n then (-1, 0) else (1, 0))
    | .num n m q => (0, let a : Int := (m <<< (q + 1200).toNat : Nat); if n then -a else a)
  let a := key x
  let b := key y
  if a.1 ≠ b.1 then decide (a.1 < b.1) else decide (a.2 < b.2)

/-- A zero's sign puts −0 below +0. -/
def negZero (v : FVal) : Bool := match v with | .num n m _ => n && m = 0 | _ => false

/-- minimumNumber or maximumNumber (R76): a NaN operand yields the other operand. -/
def minmaxF (code : Nat) (ftz maximum : Bool) (x y : FVal) : FRes :=
  match x, y with
  | .nan, .nan => nanF code
  | .nan, v => deliverV code ftz v
  | v, .nan => deliverV code ftz v
  | v, w =>
    let below := lessNum v w || (!lessNum w v && negZero v)
    deliverV code ftz (if below != maximum then v else w)

/-- Conversion between formats (R75, R154): ∞ or NaN to E4M3 is invalid. -/
def cvtF (dst : Nat) (ftz : Bool) (v : FVal) : FRes :=
  match v with
  | .nan => if dst = 3 then invalidF 3 else nanF dst
  | .inf n => if dst = 3 then invalidF 3 else (infF dst n, 0)
  | .num n m q => roundF dst ftz n m q false

/-- A = B, A < B, A ≤ B of values: NaN is unequal and unordered, +0 = −0 (R159). -/
def eqV (x y : FVal) : Bool := x ≠ .nan && y ≠ .nan && !lessNum x y && !lessNum y x
def ltV (x y : FVal) : Bool := x ≠ .nan && y ≠ .nan && lessNum x y
def leV (x y : FVal) : Bool := x ≠ .nan && y ≠ .nan && !lessNum y x

/-! ## Exact accumulators (R79) -/

/-- A term added exactly: the accumulator's least bit weighs 2⁻¹⁹². -/
def Acc.add (a : Acc) (v : FVal) : Acc :=
  match v with
  | .num n m q =>
    let x : Int := (m <<< (q + 192).toNat : Nat)
    { a with sum := a.sum + BitVec.ofInt 384 (if n then -x else x) }
  | _ => { a with nan := true }

/-- An accumulator rounded once to a format. -/
def Acc.round (a : Acc) (code : Nat) (ftz : Bool) : FRes :=
  if a.nan then nanF code
  else
    let x := a.sum.toInt
    roundF code ftz (decide (x < 0)) x.natAbs (-192) false

/-- The exact sum of two accumulators. -/
def Acc.plus (a b : Acc) : Acc := { sum := a.sum + b.sum, nan := a.nan || b.nan }

/-! ## The ledger (R57–R71) -/

/-- What a contribution element converts to (R63). -/
inductive Conv
  | nonfinite
  | overflow (e : Int)
  | value (l : BitVec 128) (e : Option Int)
  deriving DecidableEq, Repr

/-- A contribution element's value: codes 0–4 as R59, MX elements with their scale byte (R61, R62). -/
def contribValue (code : Nat) (scale elem : Nat) : FVal :=
  match code with
  | 5 | 6 =>
    if scale = 255 then .nan
    else match decodeF (code - 2) elem with
      | .num n m q => .num n m (q + scale - 127)
      | v => v
  | 7 =>
    if scale = 255 then .nan
    else
      let neg := (elem / 8) % 2 = 1
      let e := (elem / 2) % 4
      let m := elem % 2
      if e = 0 then .num neg m (-1 + scale - 127) else .num neg (m + 2) ((e : Int) - 1 - 1 + scale - 127)
  | _ => decodeF code elem

/-- convert(x, e0) of R63. -/
def convert (v : FVal) (e0 : Int) : Conv :=
  match v with
  | .num n m q =>
    if m = 0 then .value 0 none
    else
      let e : Int := q + bitLength m - 1
      if e0 + 111 ≤ e then .overflow e
      else
        let l : Nat := if e0 ≤ q then m <<< (q - e0).toNat else m >>> (e0 - q).toNat
        .value (BitVec.ofInt 128 (if n then -(l : Int) else l)) (some e)
  | _ => .nonfinite

/-- Final rounding of a released sum under RNE (R69, R70): the result pattern and whether RESULT_RANGE is set. -/
def finalRne (code : Nat) (l : BitVec 128) (e0 : Int) : Nat × Bool :=
  let x := l.toInt
  let r := roundF code false (decide (x < 0)) x.natAbs e0 false
  (if x = 0 then 0 else r.1, r.2 &&& flagOF ≠ 0)

/-- Final rounding under SR with the random word u (R70, R71). -/
def finalSr (code : Nat) (l : BitVec 128) (e0 : Int) (u : Nat) : Nat × Bool :=
  let x := l.toInt
  let neg := decide (x < 0)
  let m := x.natAbs
  if m = 0 then (0, false)
  else
    let f := fmt code
    let e : Int := e0 + bitLength m - 1
    let t := max (e - f.man) (emin code - f.man)
    let (d, r, w) := cutAt m e0 t
    let past := decide (maxF code < packF code d t) || (decide (packF code d t = maxF code) && r ≠ 0)
    if past then (if code = 3 then signBits 3 neg + maxF 3 else infF code neg, true)
    else
      let d' := if r ≠ 0 && u < 2 ^ 32 * r / w then d + 1 else d
      (signBits code neg + packF code d' t, false)

end Sys2Proof.Machine
end

