-- ==== Sys2Proof/Machine/Shake.lean ====
section
/-!
DEFINITION. Sys2Proof/Machine/Shake.lean: SHAKE256 (FIPS 202, the one digest function of the spec, 14 R328), by which
page digests, record tags, random words and roots are formed.
-/

namespace Sys2Proof.Machine

/-- The walk over the lanes that rho and pi share (FIPS 202, 3.2.2): from lane (x, y) to lane (y, 2x + 3y), the t-th lane of
the walk turned by the t-th triangular number; lanes are numbered x + 5y. -/
def rhoWalk (steps : Nat) : List (Nat × Nat) :=
  ((List.range steps).foldl (fun (w : List (Nat × Nat) × Nat × Nat) t =>
    (((w.2.1 + 5 * w.2.2), ((t + 1) * (t + 2) / 2) % 64) :: w.1, w.2.2, (2 * w.2.1 + 3 * w.2.2) % 5)) ([], 1, 0)).1

/-- How far each lane is turned: lane 0 stays. -/
def keccakTurns : List Nat :=
  let w := rhoWalk 24
  (List.range 25).map fun i => (w.lookup i).getD 0

/-- The bits of the round constants (FIPS 202, 3.2.5): n steps of the shift register x⁸ + x⁶ + x⁵ + x⁴ + 1, seven bits to a
round. -/
def rcBits : Nat → Nat → List Bool
  | 0, _ => []
  | n + 1, r => decide (r % 2 = 1) :: rcBits n (if 128 ≤ r then (2 * r) ^^^ 0x171 else 2 * r)

/-- A round's seven bits stand at the places one below a power of two. -/
def rcWord (bs : List Bool) : Word :=
  bs.zipIdx.foldl (fun w b => if b.1 then w ||| ((1 : Word) <<< (2 ^ b.2 - 1)) else w) 0

/-- The constants of the 24 rounds. -/
def keccakRc : List Word :=
  let bs := rcBits 168 1
  (List.range 24).map fun k => rcWord ((bs.drop (7 * k)).take 7)

/-- Lane i of a Keccak state. -/
def lane (a : List Word) (i : Nat) : Word := a.getD i 0

/-- Theta: every lane takes the parity of the column before it and the turned parity of the column after it. -/
def keccakTheta (a : List Word) : List Word :=
  let parity (x : Nat) : Word := (List.range 5).foldl (fun p y => p ^^^ lane a (x % 5 + 5 * y)) 0
  let cols := (List.range 5).map parity
  a.zipIdx.map fun l => l.1 ^^^ lane cols ((l.2 + 4) % 5) ^^^ (lane cols ((l.2 + 1) % 5)).rotateLeft 1

/-- Rho and pi: the lane that comes to (x, y) stood at (x + 3y, x) and is turned by its own offset. -/
def keccakMove (a : List Word) : List Word :=
  (List.range 25).map fun i =>
    let src := (i % 5 + 3 * (i / 5)) % 5 + 5 * (i % 5)
    (lane a src).rotateLeft (keccakTurns.getD src 0)

/-- Chi: each lane against the next two of its row. -/
def keccakChi (a : List Word) : List Word :=
  a.zipIdx.map fun l =>
    let next (k : Nat) : Word := lane a (l.2 / 5 * 5 + (l.2 % 5 + k) % 5)
    l.1 ^^^ (next 2 &&& ~~~next 1)

/-- One round; iota puts the round's constant into lane 0. -/
def keccakRound (a : List Word) (rc : Word) : List Word :=
  (keccakChi (keccakMove (keccakTheta a))).modifyHead (rc ^^^ ·)

/-- Keccak-f[1600]. -/
def keccakF (a : List Word) : List Word := keccakRc.foldl keccakRound a

/-- Consecutive groups of `n` bytes, at most `k` of them. -/
def chunks (n : Nat) : Nat → Bytes → List Bytes
  | 0, _ => []
  | k + 1, b => b.take n :: chunks n k (b.drop n)

/-- One block of 136 bytes absorbed. -/
def absorb (a : List Word) (blk : Bytes) : List Word :=
  let ws := (chunks 8 17 blk).map fun c => BitVec.ofNat 64 (leNat c)
  keccakF ((List.range 25).map fun i => lane a i ^^^ lane ws i)

/-- The message with the SHAKE suffix and padding to whole blocks. -/
def shakePad (m : Bytes) : Bytes :=
  let z := 135 - m.length % 136
  if z = 0 then m ++ [0x9F] else m ++ [0x1F] ++ List.replicate (z - 1) 0 ++ [0x80]

/-- Blocks of output, 136 bytes each. -/
def squeeze : Nat → List Word → Bytes
  | 0, _ => []
  | k + 1, a => ((a.take 17).flatMap fun w => natLe 8 w.toNat) ++ squeeze k (keccakF a)

/-- The first `n` bytes of SHAKE256 output over a message. -/
def shake256 (m : Bytes) (n : Nat) : Bytes :=
  let p := shakePad m
  let a := (chunks 136 (p.length / 136) p).foldl absorb (List.replicate 25 0)
  (squeeze ((n + 135) / 136) a).take n

/-- The first 32 bytes of SHAKE256 over a message, byte 0 in bits [7:0]. -/
def hash256 (m : Bytes) : Digest := BitVec.ofNat 256 (leNat (shake256 m 32))

/-- A digest's 32 bytes. -/
def digestBytes (d : Digest) : Bytes := natLe 32 d.toNat

end Sys2Proof.Machine
end

