-- ==== Sys2Proof/Machine/Blocks.lean ====
section
/-!
DEFINITION. Sys2Proof/Machine/Blocks.lean: ledger blocks on the wire (03 R72–R74), the packing of contributions (R62, R86)
and the random words of stochastic rounding (R71).
-/

namespace Sys2Proof.Machine

/-! ## Contributions -/

/-- Bytes that the first `n` elements of a contribution occupy (R62, R86). -/
def contribBytes (cfmt n : Nat) : Nat :=
  match cfmt with
  | 0 => 4 * n
  | 1 | 2 => 2 * n
  | 3 | 4 => n
  | 5 | 6 => 33 * n / 32
  | _ => 17 * n / 32

/-- The byte offsets an element is read from (R62). -/
def elemBytes (cfmt i : Nat) : List Nat :=
  match cfmt with
  | 0 => [4 * i, 4 * i + 1, 4 * i + 2, 4 * i + 3]
  | 1 | 2 => [2 * i, 2 * i + 1]
  | 3 | 4 => [i]
  | 5 | 6 => [33 * (i / 32), 33 * (i / 32) + 1 + i % 32]
  | _ => [17 * (i / 32), 17 * (i / 32) + 1 + i % 32 / 2]

/-- The elements that may lie in `len` bytes from offset `off` (R62). -/
def elemsNear (cfmt elements off len : Nat) : List Nat :=
  let (a, b) := match cfmt with
    | 0 => (off / 4, (off + len + 3) / 4)
    | 1 | 2 => (off / 2, (off + len + 1) / 2)
    | 3 | 4 => (off, off + len)
    | 5 | 6 => (32 * (off / 33), 32 * ((off + len + 32) / 33))
    | _ => (32 * (off / 17), 32 * ((off + len + 16) / 17))
  (List.range (min b elements - a)).map (a + ·)

/-- An element's value read from a contribution's bytes (R59, R61, R62). -/
def elemValue (cfmt : Nat) (m : Mem) (i : Nat) : FVal :=
  match cfmt with
  | 0 => contribValue 0 0 (m.le (4 * i) 4)
  | 1 => contribValue 1 0 (m.le (2 * i) 2)
  | 2 => contribValue 2 0 (m.le (2 * i) 2)
  | 3 | 4 => contribValue cfmt 0 (m.byte i).toNat
  | 5 | 6 => contribValue cfmt (m.byte (33 * (i / 32))).toNat (m.byte (33 * (i / 32) + 1 + i % 32)).toNat
  | _ =>
    let b := (m.byte (17 * (i / 32) + 1 + i % 32 / 2)).toNat
    contribValue 7 (m.byte (17 * (i / 32))).toNat (if i % 2 = 0 then b % 16 else b / 16)

/-! ## Ledger blocks (R72–R74) -/

/-- A signed 16-bit maximum exponent; 0x8000 means none (R72). -/
def maxExp (a b : BitVec 16) : BitVec 16 :=
  if a = 0x8000 then b else if b = 0x8000 then a else if a.toInt < b.toInt then b else a

/-- The least number of bytes, from `k` on, in which a signed integer fits. -/
def bytesOf (x : Int) : Nat → Nat → Nat
  | 0, k => k
  | f + 1, k => if -(2 ^ (8 * k - 1) : Int) ≤ x ∧ x < (2 ^ (8 * k - 1) : Int) then k else bytesOf x f (k + 1)

/-- A ledger block in the wire form of R72, R73: block index, elements, marks (sent as 0 and not counted in W), the
non-finite marks, OVF and MAXEXP. -/
def encodeBlock (b : Nat) (vals : List (BitVec 128)) (marked nf : List Bool) (ovf : Bool) (mx : BitVec 16) : Bytes :=
  let kept := (vals.zip marked).map fun x => if x.2 then 0 else x.1
  let w := (kept.map fun x => bytesOf x.toInt 15 1).foldl max 1
  let nfm := nf.any id
  let mask := ((List.range nf.length).map fun j => if nf.getD j false then 2 ^ j else 0).sum
  let body := kept.flatMap fun x => natLe w x.toNat
  let head := natLe 1 ((w - 1) + 16 * bit nfm + 32 * bit ovf) ++ natLe 1 (vals.length - 1) ++ natLe 2 mx.toNat ++ natLe 4 b
  let raw := head ++ (if nfm then natLe 8 mask else []) ++ body
  raw ++ List.replicate ((8 - raw.length % 8) % 8) 0

/-- A ledger block as a receiver reads it. -/
structure BlockIn where
  block : Nat
  ovf : Bool
  maxexp : BitVec 16
  nfmask : Nat
  vals : List (BitVec 128)
  deriving DecidableEq, Repr

/-- A ledger block read, with each element sign-extended; none when it is in error for a segment of `elements` elements
(R74). -/
def decodeBlock (elements : Nat) (d : Bytes) : Option BlockIn :=
  if d.length < 8 then none
  else
    let f := Bytes.le d 0 1
    let w := f % 16 + 1
    let nfm := f / 16 % 2
    let count := Bytes.le d 1 1 % 64 + 1
    let b := Bytes.le d 4 4
    let here := min 64 (elements - 64 * b)
    if d.length ≠ 8 + 8 * nfm + 8 * ((count * w * 8 + 63) / 64) || decide ((elements + 63) / 64 ≤ b) || count ≠ here then none
    else some {
      block := b
      ovf := f / 32 % 2 = 1
      maxexp := BitVec.ofNat 16 (Bytes.le d 2 2)
      nfmask := if nfm = 1 then Bytes.le d 8 8 else 0
      vals := (List.range count).map fun j =>
        let x := Bytes.le d (8 + 8 * nfm + w * j) w
        BitVec.ofInt 128 (if x < 2 ^ (8 * w - 1) then (x : Int) else (x : Int) - 2 ^ (8 * w)) }

/-! ## Stochastic rounding (R71) -/

/-- The 256 bytes of random words for block `b`. -/
def srBytes (charter : Digest) (st : Word) (seg b : Nat) : Bytes :=
  shake256 ([0x41, 0x5A, 0x53, 0x52] ++ digestBytes charter ++ natLe 8 st.toNat ++ natLe 4 seg ++ natLe 8 b) 256

/-- One released element rounded to its result format (R66, R69–R71): the pattern and RESULT_RANGE. -/
def roundElem (rfmt : Nat) (sr : Bool) (words : Bytes) (j : Nat) (nonfinite : Bool) (l : BitVec 128) (e0 : Int) :
    Nat × Bool :=
  if nonfinite then (canonicalNaN rfmt, false)
  else if sr then finalSr rfmt l e0 (Bytes.le words (4 * j) 4)
  else finalRne rfmt l e0

/-- Bytes of one result element (R180). -/
def resultBytes (rfmt : Nat) : Nat := match rfmt with | 0 => 4 | 1 | 2 => 2 | _ => 1

end Sys2Proof.Machine
end

