-- ==== Sys2Proof/Machine/Operands.lean ====
section
/-!
DEFINITION. Sys2Proof/Machine/Operands.lean: the operand forms of engine instructions (06 R141–R146, R156, R158): register
fields, vector elements, tile cells, view accesses through the instance's store buffer, and the faults of each form.
-/

namespace Sys2Proof.Machine

/-- The faults of R153. -/
inductive EFault
  | illegal
  | vlRange
  | address
  | align
  | limit
  | abort (code : BitVec 16)
  | storeLimit
  deriving DecidableEq, Repr

/-- The fault's code (R153). -/
def EFault.code : EFault → BitVec 4
  | .illegal => 1
  | .vlRange => 2
  | .address => 3
  | .align => 4
  | .limit => 5
  | .abort _ => 6
  | .storeLimit => 7

/-- The ABORT code of a fault, 0 for the others. -/
def EFault.abortCode : EFault → BitVec 16
  | .abort c => c
  | _ => 0

/-- What one instruction does to an engine: its effect, or its fault. -/
abbrev EStep := Engine → Except EFault Engine

/-! ## Registers -/

/-- A scalar register; s0 reads 0 (R141). -/
def Regs.sc (r : Regs) (i : BitVec 5) : Word := if i = 0 then 0 else Map.get 0 r.s i.toNat

/-- A scalar register written; writes to s0 are discarded (R141). -/
def Regs.setSc (r : Regs) (i : BitVec 5) (v : Word) : Regs :=
  if i = 0 then r else { r with s := Map.set 0 r.s i.toNat v }

/-- A vector register. -/
def Regs.vec (r : Regs) (i : BitVec 5) : BitVec 16384 := Map.get 0 r.v i.toNat
def Regs.setVec (r : Regs) (i : BitVec 5) (x : BitVec 16384) : Regs := { r with v := Map.set 0 r.v i.toNat x }

/-- A tile register. -/
def Regs.tile (r : Regs) (i : BitVec 5) : BitVec 131072 := Map.get 0 r.t i.toNat
def Regs.setTile (r : Regs) (i : BitVec 5) (x : BitVec 131072) : Regs := { r with t := Map.set 0 r.t i.toNat x }

/-- An accumulator. -/
def Regs.accum (r : Regs) (i : BitVec 5) : Acc := Map.get {} r.acc i.toNat
def Regs.setAccum (r : Regs) (i : BitVec 5) (a : Acc) : Regs := { r with acc := Map.set {} r.acc i.toNat a }

/-- Flags raised: they stay set (R154). -/
def Regs.raise (r : Regs) (f : FFlags) : Regs := { r with estat := r.estat ||| f }

/-- The number written in the low `n` fields of `w` bits, element 0 lowest. -/
def packElems (w : Nat) : List Nat → Nat
  | [] => 0
  | e :: r => e % 2 ^ w + 2 ^ w * packElems w r

/-- The first `n` elements of `w` bits of a number. -/
def elems (w x : Nat) : Nat → List Nat
  | 0 => []
  | n + 1 => x % 2 ^ w :: elems w (x >>> w) n

/-- A number of `total` bits whose low elements are replaced; those beyond keep their values (R144). -/
def putElems (total w : Nat) (old : BitVec total) (l : List Nat) : BitVec total :=
  let k := l.length * w
  BitVec.ofNat total (((old.toNat >>> k) <<< k) + packElems w l)

/-- VLMAX of a width (R144). -/
def vlMax (w : Nat) : Nat := 16384 / w

/-! ## Field checks (R158) -/

/-- Which operands a format R instruction uses. -/
structure RUse where
  d : Bool := false
  a : Bool := false
  b : Bool := false
  c : Bool := false
  axis : Bool := false

/-- Reserved bits and unused fields of format R hold 0. -/
def rFieldsOk (f : RFields) (u : RUse) : Bool :=
  f.res4 = 0 && f.res27 = 0 && (u.axis || !f.axis) && (u.d || f.d = 0) && (u.a || f.a = 0) && (u.b || f.b = 0) &&
  (u.c || f.c = 0)

/-- Reserved bits and unused fields of format I hold 0. -/
def iFieldsOk (f : IFields) (d a b : Bool) : Bool :=
  f.res4 = 0 && !f.res32 && (d || f.d = 0) && (a || f.a = 0) && (b || f.b = 0)

/-- TYPE 0–4. -/
def typeOk (t : BitVec 4) : Bool := decide (t.toNat ≤ 4)

/-- A tile or accumulator number. -/
def lowReg (i : BitVec 5) : Bool := decide (i.toNat ≤ 7)

/-- The condition of a fault. -/
def check (ok : Bool) (f : EFault) (k : Except EFault Engine) : Except EFault Engine :=
  if ok then k else .error f

/-! ## Views (R146) -/

/-- The sections of R147 that run once. -/
def Section.serial : Section → Bool
  | .sweep | .body => false
  | _ => true

/-- SECTION as CSRR reads it (R143). -/
def Section.num : Section → Nat
  | .pre => 0
  | .sweep => 1
  | .mid => 2
  | .body => 3
  | .post => 4

/-- Length in bytes of the view of an address tag; none for a tag that names no view. -/
def viewLen (e : Engine) (tag : Nat) : Option Nat :=
  match tag with
  | 1 => some e.stateLen
  | 2 => some e.gradLen
  | 3 => some e.hdr.hyperMin
  | 4 => some e.hdr.scratch
  | _ => none

/-- An access of `n` bytes at an engine address lies within its view. -/
def viewOk (e : Engine) (a : Word) (n : Nat) : Bool :=
  match viewLen e (a.toNat >>> 60) with
  | some len => decide (a.toNat % 2 ^ 60 + n ≤ len)
  | none => false

/-- A view that may be written in the section in progress. -/
def viewWritable (e : Engine) (a : Word) : Bool :=
  match a.toNat >>> 60 with
  | 1 => true
  | 4 => e.sect.serial
  | _ => false

/-- The byte at an engine address as the copy holds it. -/
def viewByte (e : Engine) (a : Nat) : Byte :=
  let o := a % 2 ^ 60
  match a >>> 60 with
  | 1 => Mem.byte e.state o
  | 2 => Mem.byte e.grad o
  | 3 => Mem.byte e.hyper o
  | _ => Mem.byte e.scratch o

/-- A load sees every earlier store of its instance (R146). -/
def loadByte (e : Engine) (a : Nat) : Byte :=
  match e.stores.find? (fun x => x.1 = a) with
  | some x => x.2
  | none => viewByte e a

/-- `n` bytes from an engine address, as a little-endian number. -/
def loadLe (e : Engine) (a : Nat) : Nat → Nat
  | 0 => 0
  | n + 1 => (loadByte e a).toNat + 256 * loadLe e (a + 1) n

/-- The pages of the copy that accesses to the state view touch. -/
def pagesOf (l : List (Word × Nat)) : List Nat :=
  l.flatMap fun x =>
    if x.1.toNat >>> 60 = 1 && x.2 ≠ 0 then
      let o := x.1.toNat % 2 ^ 60
      [o / 2097152, (o + x.2 - 1) / 2097152].eraseDups
    else []

/-- The pages loaded from are kept, for R169. -/
def touch (e : Engine) (l : List (Word × Nat)) : Engine :=
  { e with touched := (e.touched ++ pagesOf l).eraseDups }

/-- Bytes pushed into the store buffer in ascending order from an address. -/
def pushBytes (st : List (Nat × Byte)) (a : Nat) : Bytes → List (Nat × Byte)
  | [] => st
  | b :: r => pushBytes ((a, b) :: st) (a + 1) r

/-- Stores (address, bytes) entered into the instance's buffer, in order (R150). -/
def bufferStores (e : Engine) (l : List (Word × Bytes)) : Engine :=
  { e with stores := l.foldl (fun st x => pushBytes st x.1.toNat x.2) e.stores,
           stored := e.stored + (l.map (fun x => x.2.length)).sum }

/-- The buffer holds 1 MiB of stored element bytes (R150). -/
def storeRoom (e : Engine) (n : Nat) : Bool := decide (e.stored + n ≤ 1048576)

/-- The addresses A + IMM + i × B × size of n elements (R145). -/
def strided (a b : Word) (imm : BitVec 32) (size n : Nat) : List Word :=
  (List.range n).map fun i => a + imm.signExtend 64 + BitVec.ofNat 64 i * b * BitVec.ofNat 64 size

end Sys2Proof.Machine
end

