-- ==== Sys2Proof/Machine/Engine.lean ====
section
/-!
DEFINITION. Sys2Proof/Machine/Engine.lean: the vector engine (06): every instruction's effect, the sections of a run, faults,
and the run of a whole program by decoded words.
-/

namespace Sys2Proof.Machine

/-! ## Encoding (R158) -/

/-- The word of a format R instruction. -/
def encR (op : Nat) (f : RFields) : Word :=
  BitVec.ofNat 8 op ++ f.ty ++ f.res4 ++ f.d ++ f.a ++ f.b ++ f.c ++ BitVec.ofBool f.axis ++ f.res27

/-- The word of a format I instruction. -/
def encI (op : Nat) (f : IFields) : Word :=
  BitVec.ofNat 8 op ++ f.ty ++ f.res4 ++ f.d ++ f.a ++ f.b ++ BitVec.ofBool f.res32 ++ f.imm

/-- The fields of a word read as format R. -/
def decR (w : Word) : RFields :=
  { ty := w.extractLsb' 52 4, res4 := w.extractLsb' 48 4, d := w.extractLsb' 43 5, a := w.extractLsb' 38 5,
    b := w.extractLsb' 33 5, c := w.extractLsb' 28 5, axis := w.getLsbD 27, res27 := w.extractLsb' 0 27 }

/-- The fields of a word read as format I. -/
def decI (w : Word) : IFields :=
  { ty := w.extractLsb' 52 4, res4 := w.extractLsb' 48 4, d := w.extractLsb' 43 5, a := w.extractLsb' 38 5,
    b := w.extractLsb' 33 5, res32 := w.getLsbD 32, imm := w.extractLsb' 0 32 }

/-! ## Control flow and scalars -/

namespace Engine

/-- The next instruction. -/
def advance (e : Engine) : Engine := { e with pc := e.pc + 1 }

/-- A jump to pc + IMM, counted in instructions (R158). -/
def jump (e : Engine) (imm : BitVec 32) : Engine :=
  { e with pc := (BitVec.ofNat 64 e.pc + imm.signExtend 64).toNat }

/-- A scalar result. -/
def putSc (e : Engine) (d : BitVec 5) (v : Word) : Engine := { e with regs := e.regs.setSc d v }.advance

end Engine

/-- A format R scalar instruction D ← g A B with TYPE 0. -/
def scalarR (f : RFields) (g : Word → Word → Word) : EStep := fun e =>
  check (rFieldsOk f { d := true, a := true, b := true } && f.ty = 0) .illegal <|
    .ok (e.putSc f.d (g (e.regs.sc f.a) (e.regs.sc f.b)))

/-- A branch taken when g A B. -/
def branchI (f : IFields) (g : Word → Word → Bool) : EStep := fun e =>
  check (iFieldsOk f false true true && f.ty = 0) .illegal <|
    .ok (if g (e.regs.sc f.a) (e.regs.sc f.b) then e.jump f.imm else e.advance)

def xNop (f : RFields) : EStep := fun e => check (rFieldsOk f {} && f.ty = 0) .illegal <| .ok e.advance

/-- HALT and NEXT check their fields; what they end stands in `Engine.finishWith`. -/
def xEnd (f : RFields) : EStep := fun e => check (rFieldsOk f {} && f.ty = 0) .illegal <| .ok e

def xAbort (f : IFields) : EStep := fun _ =>
  check (iFieldsOk f false false false && f.ty = 0) .illegal <| .error (.abort (f.imm.setWidth 16))

def xJmp (f : IFields) : EStep := fun e =>
  check (iFieldsOk f false false false && f.ty = 0) .illegal <| .ok (e.jump f.imm)

def xBeq (f : IFields) : EStep := branchI f fun a b => a = b
def xBne (f : IFields) : EStep := branchI f fun a b => a ≠ b
def xBlt (f : IFields) : EStep := branchI f fun a b => a.slt b
def xBge (f : IFields) : EStep := branchI f fun a b => !a.slt b

/-- An engine control register's value (R143). -/
def csrValue (e : Engine) (n : Nat) : Option Word :=
  match n with
  | 0 => some (if e.regs.ftz then 1 else 0)
  | 1 => some (e.regs.estat.setWidth 64)
  | 2 => some (e.regs.vl.setWidth 64)
  | 3 => some (BitVec.ofNat 64 e.icount)
  | 4 => some (BitVec.ofNat 64 e.sect.num)
  | _ => none

def xCsrr (f : IFields) : EStep := fun e =>
  check (iFieldsOk f true false false && f.ty = 0) .illegal <|
    match csrValue e f.imm.toNat with
    | some v => .ok (e.putSc f.d v)
    | none => .error .illegal

def xCsrw (f : IFields) : EStep := fun e =>
  check (iFieldsOk f false true false && f.ty = 0) .illegal <|
    let v := e.regs.sc f.a
    match f.imm.toNat with
    | 0 => .ok { e with regs.ftz := v.getLsbD 0 }.advance
    | 1 => .ok { e with regs.estat := v.setWidth 5 }.advance
    | _ => .error .illegal

def xLi (f : IFields) : EStep := fun e =>
  check (iFieldsOk f true false false && f.ty = 0) .illegal <| .ok (e.putSc f.d (f.imm.signExtend 64))

def xLui (f : IFields) : EStep := fun e =>
  check (iFieldsOk f true false false && f.ty = 0) .illegal <|
    .ok (e.putSc f.d (f.imm ++ (e.regs.sc f.d).setWidth 32))

def xSadd (f : RFields) : EStep := scalarR f fun a b => a + b
def xSsub (f : RFields) : EStep := scalarR f fun a b => a - b
def xSmul (f : RFields) : EStep := scalarR f fun a b => a * b
def xSand (f : RFields) : EStep := scalarR f fun a b => a &&& b
def xSor (f : RFields) : EStep := scalarR f fun a b => a ||| b
def xSxor (f : RFields) : EStep := scalarR f fun a b => a ^^^ b
def xSmin (f : RFields) : EStep := scalarR f fun a b => if a.slt b then a else b

/-- A format I scalar instruction D ← g A IMM. -/
def scalarI (f : IFields) (g : Word → BitVec 32 → Word) : EStep := fun e =>
  check (iFieldsOk f true true false && f.ty = 0) .illegal <| .ok (e.putSc f.d (g (e.regs.sc f.a) f.imm))

def xSaddi (f : IFields) : EStep := scalarI f fun a i => a + i.signExtend 64
def xSshli (f : IFields) : EStep := scalarI f fun a i => a <<< (i.toNat % 64)
def xSshri (f : IFields) : EStep := scalarI f fun a i => a >>> (i.toNat % 64)

/-! ## Memory (R144–R146) -/

def xSld (f : IFields) : EStep := fun e =>
  let a := e.regs.sc f.a + f.imm.signExtend 64
  check (iFieldsOk f true true false && f.ty = 0) .illegal <| check (viewOk e a 8) .address <|
  check (a.toNat % 8 = 0) .align <|
    .ok ((touch e [(a, 8)]).putSc f.d (BitVec.ofNat 64 (loadLe e a.toNat 8)))

def xSst (f : IFields) : EStep := fun e =>
  let a := e.regs.sc f.a + f.imm.signExtend 64
  check (iFieldsOk f false true true && f.ty = 0) .illegal <|
  check (viewOk e a 8 && viewWritable e a) .address <| check (a.toNat % 8 = 0) .align <|
  check (storeRoom e 8) .storeLimit <|
    .ok (bufferStores e [(a, natLe 8 (e.regs.sc f.b).toNat)]).advance

def xSetvl (f : RFields) : EStep := fun e =>
  check (rFieldsOk f { d := true, a := true } && typeOk f.ty) .illegal <|
    let n := min (e.regs.sc f.a).toNat (vlMax (fmtWidth f.ty.toNat))
    .ok ({ e with regs.vl := BitVec.ofNat 12 n }.putSc f.d (BitVec.ofNat 64 n))

/-- vl as a number. -/
def Engine.vlN (e : Engine) : Nat := e.regs.vl.toNat

/-- The vl of an instruction at a width: VL_RANGE beyond VLMAX (R144). -/
def vlOk (e : Engine) (w : Nat) : Bool := decide (e.vlN ≤ vlMax w)

def xVld (f : IFields) : EStep := fun e =>
  let w := fmtWidth f.ty.toNat
  check (iFieldsOk f true true true && typeOk f.ty) .illegal <| check (vlOk e w) .vlRange <|
    let as := strided (e.regs.sc f.a) (e.regs.sc f.b) f.imm (w / 8) e.vlN
    check (as.all fun a => viewOk e a (w / 8)) .address <|
      let vals := as.map fun a => loadLe e a.toNat (w / 8)
      let e' := touch e (as.map fun a => (a, w / 8))
      .ok { e' with regs := e'.regs.setVec f.d (putElems 16384 w (e'.regs.vec f.d) vals) }.advance

def xVst (f : IFields) : EStep := fun e =>
  let w := fmtWidth f.ty.toNat
  check (iFieldsOk f true true true && typeOk f.ty) .illegal <| check (vlOk e w) .vlRange <|
    let as := strided (e.regs.sc f.a) (e.regs.sc f.b) f.imm (w / 8) e.vlN
    check (as.all fun a => viewOk e a (w / 8) && viewWritable e a) .address <|
    check (storeRoom e (e.vlN * (w / 8))) .storeLimit <|
      let vals := elems w (e.regs.vec f.d).toNat e.vlN
      .ok (bufferStores e (as.zip (vals.map fun x => natLe (w / 8) x))).advance

/-! ## Vector instructions -/

/-- A vector result: elements below vl written, flags raised; with vl = 0 no effect but the next pc (R144). -/
def Engine.putVec (e : Engine) (d : BitVec 5) (w : Nat) (l : List FRes) : Engine :=
  let fl := l.foldl (fun a x => a ||| x.2) 0
  { e with regs := (e.regs.setVec d (putElems 16384 w (e.regs.vec d) (l.map Prod.fst))).raise fl }.advance

/-- The elements below vl of a vector register at a width. -/
def Engine.getVec (e : Engine) (i : BitVec 5) (w : Nat) : List Nat := elems w (e.regs.vec i).toNat e.vlN

/-- An element-wise instruction of one, two or three operands at the width of TYPE. -/
def vec1 (f : RFields) (g : Engine → Nat → FRes) : EStep := fun e =>
  let w := fmtWidth f.ty.toNat
  check (rFieldsOk f { d := true, a := true } && typeOk f.ty) .illegal <| check (vlOk e w) .vlRange <|
    .ok (e.putVec f.d w ((e.getVec f.a w).map (g e)))

def vec2 (f : RFields) (g : Engine → Nat → Nat → FRes) : EStep := fun e =>
  let w := fmtWidth f.ty.toNat
  check (rFieldsOk f { d := true, a := true, b := true } && typeOk f.ty) .illegal <| check (vlOk e w) .vlRange <|
    .ok (e.putVec f.d w (((e.getVec f.a w).zip (e.getVec f.b w)).map fun x => g e x.1 x.2))

def vec3 (f : RFields) (g : Engine → Nat → Nat → Nat → FRes) : EStep := fun e =>
  let w := fmtWidth f.ty.toNat
  check (rFieldsOk f { d := true, a := true, b := true, c := true } && typeOk f.ty) .illegal <|
  check (vlOk e w) .vlRange <|
    .ok (e.putVec f.d w (((e.getVec f.a w).zip ((e.getVec f.b w).zip (e.getVec f.c w))).map
      fun x => g e x.1 x.2.1 x.2.2))

/-- An operand element as a value under the engine's FTZ. -/
def Engine.rd (e : Engine) (code x : Nat) : FVal := readF e.regs.ftz code x

def xVadd (f : RFields) : EStep := vec2 f fun e a b =>
  let c := f.ty.toNat; addV c e.regs.ftz (e.rd c a) (e.rd c b)
def xVsub (f : RFields) : EStep := vec2 f fun e a b =>
  let c := f.ty.toNat; addV c e.regs.ftz (e.rd c a) (negV (e.rd c b))
def xVmul (f : RFields) : EStep := vec2 f fun e a b =>
  let c := f.ty.toNat; mulF c e.regs.ftz (e.rd c a) (e.rd c b)
def xVdiv (f : RFields) : EStep := vec2 f fun e a b =>
  let c := f.ty.toNat; divF c e.regs.ftz (e.rd c a) (e.rd c b)
def xVfma (f : RFields) : EStep := vec3 f fun e a b z =>
  let c := f.ty.toNat; fmaF c e.regs.ftz (e.rd c a) (e.rd c b) (e.rd c z)
def xVfms (f : RFields) : EStep := vec3 f fun e a b z =>
  let c := f.ty.toNat; fmaF c e.regs.ftz (e.rd c a) (e.rd c b) (negV (e.rd c z))
def xVfnma (f : RFields) : EStep := vec3 f fun e a b z =>
  let c := f.ty.toNat; fmaF c e.regs.ftz (negV (e.rd c a)) (e.rd c b) (e.rd c z)
def xVsqrt (f : RFields) : EStep := vec1 f fun e a =>
  let c := f.ty.toNat; sqrtF c e.regs.ftz (e.rd c a)
def xVrsqrt (f : RFields) : EStep := vec1 f fun e a =>
  let c := f.ty.toNat; rsqrtF c e.regs.ftz (e.rd c a)
def xVmin (f : RFields) : EStep := vec2 f fun e a b =>
  let c := f.ty.toNat; minmaxF c e.regs.ftz false (e.rd c a) (e.rd c b)
def xVmax (f : RFields) : EStep := vec2 f fun e a b =>
  let c := f.ty.toNat; minmaxF c e.regs.ftz true (e.rd c a) (e.rd c b)

/-- A value without its sign. -/
def absV (v : FVal) : FVal :=
  match v with
  | .nan => .nan
  | .inf _ => .inf false
  | .num _ m q => .num false m q

def xVabs (f : RFields) : EStep := vec1 f fun e a =>
  let c := f.ty.toNat; deliverV c e.regs.ftz (absV (e.rd c a))
def xVneg (f : RFields) : EStep := vec1 f fun e a =>
  let c := f.ty.toNat; deliverV c e.regs.ftz (negV (e.rd c a))

/-- VCVT: the source format is C[3:0]; both widths are checked (R144, R158). -/
def xVcvt (f : RFields) : EStep := fun e =>
  let w := fmtWidth f.ty.toNat
  let c := f.c.toNat % 16
  let ws := fmtWidth c
  check (rFieldsOk f { d := true, a := true, c := true } && typeOk f.ty && decide (c ≤ 4)) .illegal <|
  check (vlOk e w && vlOk e ws) .vlRange <|
    .ok (e.putVec f.d w ((e.getVec f.a ws).map fun x => cvtF f.ty.toNat e.regs.ftz (e.rd c x)))

/-- An all-ones or all-zeros mask element. -/
def maskElem (w : Nat) (b : Bool) : FRes := (if b then 2 ^ w - 1 else 0, 0)

def xVceq (f : RFields) : EStep := vec2 f fun e a b =>
  let c := f.ty.toNat; maskElem (fmtWidth c) (eqV (e.rd c a) (e.rd c b))
def xVclt (f : RFields) : EStep := vec2 f fun e a b =>
  let c := f.ty.toNat; maskElem (fmtWidth c) (ltV (e.rd c a) (e.rd c b))
def xVcle (f : RFields) : EStep := vec2 f fun e a b =>
  let c := f.ty.toNat; maskElem (fmtWidth c) (leV (e.rd c a) (e.rd c b))
def xVnf (f : RFields) : EStep := vec1 f fun _ a =>
  let c := f.ty.toNat
  maskElem (fmtWidth c) (match decodeF c a with | .num _ _ _ => false | _ => true)

def xVand (f : RFields) : EStep := vec2 f fun _ a b => (a &&& b, 0)
def xVor (f : RFields) : EStep := vec2 f fun _ a b => (a ||| b, 0)
def xVxor (f : RFields) : EStep := vec2 f fun _ a b => (a ^^^ b, 0)
def xVsel (f : RFields) : EStep := vec3 f fun _ a b c => (if c ≠ 0 then a else b, 0)
def xViadd (f : RFields) : EStep := vec2 f fun _ a b => ((a + b) % 2 ^ fmtWidth f.ty.toNat, 0)

/-- VIOTA: the base A is a scalar register (R145). -/
def xViota (f : RFields) : EStep := fun e =>
  let w := fmtWidth f.ty.toNat
  check (rFieldsOk f { d := true, a := true } && typeOk f.ty) .illegal <| check (vlOk e w) .vlRange <|
    .ok (e.putVec f.d w ((List.range e.vlN).map fun i => (((e.regs.sc f.a).toNat + i) % 2 ^ w, 0)))

/-- VANY: with vl = 0 it has no effect (R144). -/
def xVany (f : RFields) : EStep := fun e =>
  let w := fmtWidth f.ty.toNat
  check (rFieldsOk f { d := true, a := true } && typeOk f.ty) .illegal <| check (vlOk e w) .vlRange <|
    .ok (if e.vlN = 0 then e.advance
      else e.putSc f.d (if (e.getVec f.a w).any (fun x => x ≠ 0) then 1 else 0))

/-- The random word of index n under a key (R157). -/
def vrandWord (key : Word) (n : Nat) : Nat :=
  let out := shake256 ([0x41, 0x5A, 0x56, 0x52] ++ natLe 8 key.toNat ++ natLe 8 (n / 64)) 256
  Bytes.le out (4 * (n % 64)) 4

def xVrand (f : RFields) : EStep := fun e =>
  check (rFieldsOk f { d := true, a := true, b := true } && f.ty = 0) .illegal <| check (vlOk e 32) .vlRange <|
    .ok (e.putVec f.d 32 ((List.range e.vlN).map fun i =>
      (vrandWord (e.regs.sc f.b) (e.regs.sc f.a + BitVec.ofNat 64 i).toNat, 0)))

/-! ## Accumulators and tiles (R155, R156) -/

/-- ACLR acts on an accumulator, not on vector elements: vl does not bear on it (R144 names no such case; log entry 96). -/
def xAclr (f : RFields) : EStep := fun e =>
  check (rFieldsOk f { c := true } && f.ty = 0 && lowReg f.c) .illegal <|
    .ok { e with regs := e.regs.setAccum f.c {} }.advance

def xAadd (f : RFields) : EStep := fun e =>
  let c := f.ty.toNat
  check (rFieldsOk f { a := true, c := true } && typeOk f.ty && lowReg f.c) .illegal <|
  check (vlOk e (fmtWidth c)) .vlRange <|
    let acc := (e.getVec f.a (fmtWidth c)).foldl (fun a x => a.add (e.rd c x)) (e.regs.accum f.c)
    .ok { e with regs := e.regs.setAccum f.c acc }.advance

def xAget (f : RFields) : EStep := fun e =>
  let c := f.ty.toNat
  check (rFieldsOk f { d := true, c := true } && typeOk f.ty && lowReg f.c) .illegal <|
    .ok (e.putVec f.d (fmtWidth c) [(e.regs.accum f.c).round c e.regs.ftz])

/-- The 64 row addresses of a tile access. -/
def tileRows (e : Engine) (f : IFields) : List Word := strided (e.regs.sc f.a) (e.regs.sc f.b) f.imm 1 64

def xTld (f : IFields) : EStep := fun e =>
  let w := fmtWidth f.ty.toNat
  check (iFieldsOk f true true true && typeOk f.ty && lowReg f.d) .illegal <|
    let rows := tileRows e f
    check (rows.all fun a => viewOk e a (8 * w)) .address <|
      let cells := rows.flatMap fun a => (List.range 64).map fun j => loadLe e (a.toNat + j * (w / 8)) (w / 8)
      let e' := touch e (rows.map fun a => (a, 8 * w))
      .ok { e' with regs := e'.regs.setTile f.d (BitVec.ofNat 131072 (packElems 32 cells)) }.advance

/-- The cells of a tile, row by row. -/
def Regs.cells (r : Regs) (i : BitVec 5) : List Nat := elems 32 (r.tile i).toNat 4096

def xTst (f : IFields) : EStep := fun e =>
  let w := fmtWidth f.ty.toNat
  check (iFieldsOk f true true true && typeOk f.ty && lowReg f.d) .illegal <|
    let rows := tileRows e f
    check (rows.all fun a => viewOk e a (8 * w) && viewWritable e a) .address <|
    check (storeRoom e (4096 * (w / 8))) .storeLimit <|
      let cs := e.regs.cells f.d
      let st := rows.zipIdx.map fun x => (x.1, ((cs.drop (64 * x.2)).take 64).flatMap fun c => natLe (w / 8) c)
      .ok (bufferStores e st).advance

def xTzero (f : RFields) : EStep := fun e =>
  check (rFieldsOk f { d := true } && f.ty = 0 && lowReg f.d) .illegal <|
    .ok { e with regs := e.regs.setTile f.d 0 }.advance

/-- One accumulation of TMMA: the product is exact, the addition rounded to FP32 (R80). -/
def mmaStep (ftz : Bool) (acc : FRes) (x y : FVal) : FRes :=
  let r := match mulV x y with
    | none => invalidF 0
    | some p => addV 0 ftz (readF ftz 0 acc.1) p
  (r.1, acc.2 ||| r.2)

def xTmma (f : RFields) : EStep := fun e =>
  let c := f.ty.toNat
  check (rFieldsOk f { d := true, a := true, b := true } && (c = 1 || c = 3 || c = 4) && lowReg f.d && lowReg f.a &&
      lowReg f.b) .illegal <|
    let m := 2 ^ fmtWidth c
    let av := (e.regs.cells f.a).map fun x => e.rd c (x % m)
    let bv := (e.regs.cells f.b).map fun x => e.rd c (x % m)
    let dv := e.regs.cells f.d
    let res := dv.zipIdx.map fun x =>
      let row := (av.drop (64 * (x.2 / 64))).take 64
      let col := (List.range 64).map fun k => bv.getD (64 * k + x.2 % 64) (.num false 0 0)
      (row.zip col).foldl (fun acc p => mmaStep e.regs.ftz acc p.1 p.2) (x.1, 0)
    let fl := res.foldl (fun a x => a ||| x.2) 0
    .ok { e with regs := (e.regs.setTile f.d (BitVec.ofNat 131072 (packElems 32 (res.map Prod.fst)))).raise fl }.advance

def xTred (f : RFields) : EStep := fun e =>
  let c := f.ty.toNat
  check (rFieldsOk f { d := true, a := true, axis := true } && typeOk f.ty && lowReg f.a) .illegal <|
    let cs := (e.regs.cells f.a).map fun x => e.rd 0 x
    let sums := (List.range 64).map fun i =>
      let line := (List.range 64).map fun j => cs.getD (if f.axis then 64 * j + i else 64 * i + j) (.num false 0 0)
      (line.foldl Acc.add {}).round c e.regs.ftz
    .ok (e.putVec f.d (fmtWidth c) sums)

/-! ## The table of opcodes (R159) -/

/-- The effect of an opcode's word; `none` for an undefined opcode.  HALT and NEXT only check their fields here. -/
def opEffect (w : Word) : Option EStep :=
  let r := decR w
  let i := decI w
  match w.toNat >>> 56 with
  | 0x00 => some (xNop r) | 0x01 => some (xEnd r) | 0x02 => some (xEnd r) | 0x03 => some (xAbort i)
  | 0x04 => some (xJmp i) | 0x05 => some (xBeq i) | 0x06 => some (xBne i) | 0x07 => some (xBlt i)
  | 0x08 => some (xBge i) | 0x09 => some (xCsrr i) | 0x0A => some (xCsrw i)
  | 0x10 => some (xLi i) | 0x11 => some (xLui i) | 0x12 => some (xSadd r) | 0x13 => some (xSaddi i)
  | 0x14 => some (xSsub r) | 0x15 => some (xSmul r) | 0x16 => some (xSand r) | 0x17 => some (xSor r)
  | 0x18 => some (xSxor r) | 0x19 => some (xSshli i) | 0x1A => some (xSshri i) | 0x1B => some (xSmin r)
  | 0x1C => some (xSld i) | 0x1D => some (xSst i)
  | 0x20 => some (xSetvl r) | 0x21 => some (xVld i) | 0x22 => some (xVst i) | 0x23 => some (xViota r)
  | 0x30 => some (xVadd r) | 0x31 => some (xVsub r) | 0x32 => some (xVmul r) | 0x33 => some (xVdiv r)
  | 0x34 => some (xVfma r) | 0x35 => some (xVfms r) | 0x36 => some (xVfnma r) | 0x37 => some (xVsqrt r)
  | 0x38 => some (xVrsqrt r) | 0x39 => some (xVmin r) | 0x3A => some (xVmax r) | 0x3B => some (xVabs r)
  | 0x3C => some (xVneg r) | 0x3D => some (xVcvt r) | 0x3E => some (xVceq r) | 0x3F => some (xVclt r)
  | 0x40 => some (xVcle r) | 0x41 => some (xVnf r)
  | 0x48 => some (xVand r) | 0x49 => some (xVor r) | 0x4A => some (xVxor r) | 0x4B => some (xVsel r)
  | 0x4C => some (xViadd r) | 0x4D => some (xVany r) | 0x50 => some (xVrand r)
  | 0x58 => some (xAclr r) | 0x59 => some (xAadd r) | 0x5A => some (xAget r)
  | 0x60 => some (xTld i) | 0x61 => some (xTst i) | 0x62 => some (xTzero r) | 0x63 => some (xTmma r)
  | 0x64 => some (xTred r)
  | _ => none

/-! ## Sections of a run (R147–R153) -/

namespace Engine

/-- The index of a section's first instruction; none when the image lacks the section (R163). -/
def entryOf (e : Engine) (s : Section) : Option Nat :=
  match e.hdr.entries[s.num]? with
  | some i => if i = 0xFFFFFFFF then none else some i
  | none => none

/-- The section that follows, the image's absent sections passed over. -/
def after (e : Engine) (s : Section) : Option Section :=
  ([Section.pre, .sweep, .mid, .body, .post].drop (s.num + 1)).find? fun t => (e.entryOf t).isSome

/-- Element count of a parallel section (R148). -/
def count (e : Engine) (s : Section) : Nat :=
  match s with
  | .sweep => (List.range 8).foldr (fun i a => (Mem.byte e.hyper (e.hdr.sweepCountAt + i)).toNat + 256 * a) 0
  | .body => e.segCount
  | _ => 0

/-- Elements per instance. -/
def grain (e : Engine) (s : Section) : Nat :=
  match s with
  | .sweep => e.hdr.sweepGrain
  | .body => e.hdr.bodyGrain
  | _ => 0

/-- Instances of a parallel section (R148). -/
def instances (e : Engine) (s : Section) : Nat :=
  if e.grain s = 0 then 0 else (e.count s + e.grain s - 1) / e.grain s

/-- s7 and s8 of an instance (R165). -/
def rangeRegs (r : Regs) (first n : Nat) : Regs := (r.setSc 7 (BitVec.ofNat 64 first)).setSc 8 (BitVec.ofNat 64 n)

/-- An instance begins: nothing stored, nothing counted. -/
def fresh (e : Engine) (s : Section) (k : Nat) (r : Regs) : Engine :=
  { e with sect := s, inst := k, regs := r, first := r, pc := (e.entryOf s).getD 0, icount := 0, stores := [], stored := 0,
           touched := [], stale := false, awaits := [] }

/-- The instance in progress is discarded and runs again from its start (R17, R169). -/
def rerun (e : Engine) : Engine := e.fresh e.sect e.inst e.first

/-- Instance k of a parallel section starts (R148, R149). -/
def startInstance (e : Engine) (s : Section) (k : Nat) : Engine :=
  let g := e.grain s
  let r := rangeRegs e.base (k * g) (min g (e.count s - k * g))
  e.fresh s k { r with acc := [], estat := 0 }

/-- A serial section starts from what the preceding serial section left, its accumulators and flags joined with the
instances' (R149); s7 and s8 are 0 in every serial section, as the table of R165 has them (log entry 96). -/
def startSerial (e : Engine) (s : Section) : Engine :=
  let accs := e.accSum.foldl (fun (m : Map Acc) x => Map.set {} m x.1 ((Map.get {} m x.1).plus x.2)) e.base.acc
  let r := { (rangeRegs e.base 0 0) with acc := accs, estat := e.base.estat ||| e.estatOr }
  { e.fresh s 0 r with accSum := [], estatOr := 0, done := [] }

/-- The run has ended. -/
def finish (e : Engine) : Engine := { e with finished := true, running := false, stores := [], stored := 0 }

/-- The n-th, in number, of the instances that have not ended. -/
def pick (e : Engine) (s : Section) (choice : Nat) : Nat :=
  let left := (List.range (e.instances s)).filter fun k => !e.done.contains k
  left.getD (choice % left.length) 0

/-- Control passes to the next section the image contains (R147); a section without instances passes it on. -/
def enter (fuel : Nat) (e : Engine) (s : Option Section) (choice : Nat) : Engine :=
  match fuel, s with
  | _, none => e.finish
  | 0, _ => e.finish
  | n + 1, some t =>
    if t.serial then e.startSerial t
    else if e.instances t = 0 then enter n { e with done := [] } (e.after t) choice
    else
      let e := { e with done := [] }
      e.startInstance t (e.pick t choice)

/-- Pages of the state view that the instance's buffered stores lie in. -/
def storedPages (e : Engine) : List Nat :=
  ((e.stores.filter fun x => x.1 >>> 60 = 1).map fun x => x.1 % 2 ^ 60 / 2097152).eraseDups

/-- The instance's buffered stores reach the copy, oldest first (R150). -/
def commit (e : Engine) : Engine :=
  let e := { e with dirty := (e.dirty ++ e.storedPages).eraseDups }
  e.stores.foldr (fun x e =>
    let o := x.1 % 2 ^ 60
    if x.1 >>> 60 = 1 then { e with state := Mem.setByte e.state o x.2 }
    else { e with scratch := Mem.setByte e.scratch o x.2 }) { e with stores := [], stored := 0 }

/-- A serial section ends by NEXT (`goOn`) or HALT. -/
def endSerial (e : Engine) (goOn : Bool) (choice : Nat) : Engine :=
  let e := e.commit
  let e := { e with base := e.regs, finalFlags := e.finalFlags ||| e.regs.estat }
  if goOn then enter 5 e (e.after e.sect) choice else e.finish

/-- A parallel instance has ended: its accumulators and flags are joined; the section ends with its last instance; a
fault in one of them ends the run then (R147, R149, R153). -/
def endParallel (e : Engine) (acc : Map Acc) (choice : Nat) : Engine :=
  let sum := acc.foldl (fun (m : Map Acc) x => Map.set {} m x.1 ((Map.get {} m x.1).plus x.2)) e.accSum
  let e := { e with accSum := sum, estatOr := e.estatOr ||| e.regs.estat, done := e.inst :: e.done,
                    finalFlags := e.finalFlags ||| e.regs.estat }
  if e.done.length < e.instances e.sect then e.startInstance e.sect (e.pick e.sect choice)
  else if e.faulted.isSome then e.finish
  else enter 5 e (e.after e.sect) choice

/-- NEXT or HALT ends the section or the instance (R147); `choice` names the instance that runs next (R152). -/
def finishWith (e : Engine) (goOn : Bool) (choice : Nat) : Engine :=
  if e.sect.serial then e.endSerial goOn choice
  else endParallel e.commit e.regs.acc choice

/-- A fault ends the instance: its stores are discarded; a serial section ends the run, a parallel one goes on with the
other instances; the lowest-numbered faulting instance is reported (R153). -/
def fail (e : Engine) (f : EFault) (choice : Nat) : Engine :=
  let here := (e.inst, f.code, e.sect, f.abortCode, e.pc)
  let e := { e with stores := [], stored := 0 }
  if e.sect.serial then
    { e with faulted := some here, finalFlags := e.finalFlags ||| e.regs.estat }.finish
  else
    let keep := match e.faulted with
      | some old => if old.1 < e.inst then some old else some here
      | none => some here
    endParallel { e with faulted := keep } [] choice

/-- The word at the pc; none when the pc is outside the code. -/
def fetch (e : Engine) : Option Word := e.code[e.pc]?

/-- One instruction: LIMIT before decode, a pc outside the code, then the instruction's own effect (R153). -/
def execute (e : Engine) (x : EStep) (ends : Option Bool) (choice : Nat) : Engine :=
  if e.hdr.insnLimit ≤ e.icount then e.fail .limit choice
  else match x e with
    | .error f => e.fail f choice
    | .ok e' =>
      let e' := { e' with icount := e.icount + 1 }
      match ends with
      | some goOn => e'.finishWith goOn choice
      | none => e'

/-- Pages that the instance in progress loaded from or stores to (R169). -/
def pages (e : Engine) : List Nat := (e.touched ++ e.storedPages).eraseDups

/-- The instance cannot stand: a page it touched is held for a repair, or one was repaired under it (R169, R187). -/
def disturbed (held : Nat → Bool) (e : Engine) : Bool := e.stale || e.pages.any held

/-- The discarded instance waits at its start for the repairs of the pages it touched (R169). -/
def rerunHeld (held : Nat → Bool) (e : Engine) : Engine := { e.rerun with awaits := e.pages.filter held }

/-- The instruction ends its instance: NEXT, HALT or a fault. -/
def endsWith (e : Engine) (x : EStep) (ends : Option Bool) : Bool :=
  ends.isSome || decide (e.hdr.insnLimit ≤ e.icount) || !(x e).toBool

/-- One instruction where pages may be held: nothing runs while the rerun waits, and an end of a disturbed instance, by a fault
too, discards it (R169). -/
def guarded (held : Nat → Bool) (e : Engine) (x : EStep) (ends : Option Bool) (choice : Nat) : Engine :=
  if e.awaits.any held then e
  else if e.endsWith x ends && e.disturbed held then e.rerunHeld held
  else e.execute x ends choice

/-- What the word at the pc does, and whether it is HALT or NEXT. -/
def effect (e : Engine) : EStep × Option Bool :=
  match e.fetch with
  | none => (fun _ => .error .illegal, none)
  | some w => ((opEffect w).getD fun _ => .error .illegal,
      if w.toNat >>> 56 = 1 then some false else if w.toNat >>> 56 = 2 then some true else none)

/-- The decoded instruction at the pc, where pages may be held. -/
def stepHeld (held : Nat → Bool) (e : Engine) : Engine := e.guarded held e.effect.1 e.effect.2 0

/-- At most `fuel` instructions of a run where pages may be held. -/
def runHeld (held : Nat → Bool) : Nat → Engine → Engine
  | 0, e => e
  | n + 1, e => if e.finished then e else runHeld held n (e.stepHeld held)

/-- The decoded instruction at the pc executed. -/
def stepWord (e : Engine) (choice : Nat) : Engine :=
  match e.fetch with
  | none => e.execute (fun _ => .error .illegal) none choice
  | some w =>
    match opEffect w with
    | none => e.execute (fun _ => .error .illegal) none choice
    | some x =>
      let op := w.toNat >>> 56
      e.execute x (if op = 1 then some false else if op = 2 then some true else none) choice

/-- At most `fuel` instructions of a run, each decoded from its word. -/
def run : Nat → Engine → Engine
  | 0, e => e
  | n + 1, e => if e.finished then e else run n (e.stepWord 0)

end Engine

/-- An image's header (R163). -/
def parseProg (b : Mem) : ProgHdr :=
  let le (o n : Nat) := Mem.le b o n
  { magic := BitVec.ofNat 32 (le 0 4), format := BitVec.ofNat 16 (le 4 2), programId := BitVec.ofNat 16 (le 6 2),
    length := le 8 4, codeWords := le 12 4, scratch := le 16 4, hyperMin := le 20 4, insnLimit := le 24 8,
    entries := (List.range 5).map fun i => le (0x20 + 4 * i) 4, sweepGrain := le 0x34 4, bodyGrain := le 0x38 4,
    sweepCountAt := le 0x3C 4, charterDigest := BitVec.ofNat 256 (le 0x40 32), reserved := le 0x60 160 = 0 }

/-- The instructions of an image. -/
def progCode (b : Mem) (h : ProgHdr) : List Word :=
  (List.range h.codeWords).map fun k => BitVec.ofNat 64 (Mem.le b (0x100 + 8 * k) 8)

/-- The random key s6 of a step (R166). -/
def randomKey (seed param : Bytes) (stepNo : Word) (stream : BitVec 32) : Word :=
  BitVec.ofNat 64 (leNat (shake256 ([0x41, 0x5A, 0x52, 0x4B] ++ seed ++ param ++ natLe 8 stepNo.toNat ++
    natLe 4 stream.toNat) 8))

/-- A run begins with PRE under the registers of R165 (R142, R147). -/
def Engine.start (copy : Copy) (c : Fin 16) (image : Mem) (stepNo key : Word) (state : Mem) (stateLen : Nat)
    (grad : Mem) (gradLen segOff segElems : Nat) (hyper : Mem) : Engine :=
  let h := parseProg image
  let r : Regs := {}
  let r := r.setSc 1 0x1000000000000000
  let r := r.setSc 2 (0x2000000000000000 + BitVec.ofNat 64 segOff)
  let r := r.setSc 3 (BitVec.ofNat 64 segElems)
  let r := r.setSc 4 stepNo
  let r := r.setSc 5 0x3000000000000000
  let r := r.setSc 6 key
  let r := r.setSc 9 0x4000000000000000
  let e : Engine :=
    { running := true, copy := copy, ctx := c, hdr := h, code := progCode image h, stepNo := stepNo, key := key,
      segCount := segElems, state := state, stateLen := stateLen, grad := grad, gradLen := gradLen,
      hyper := hyper, base := r }
  e.startSerial .pre

end Sys2Proof.Machine
end

