-- ==== Sys2Proof/Machine/Pages.lean ====
section
/-!
DEFINITION. Sys2Proof/Machine/Pages.lean: page pools, placement, the wipe queue and the waiting contexts (11 R265–R272).
Pages of one stack and partition are alike until they are written, so a pool is a count per stack, and what holds pages
lists (stack, number) pairs; page contents stand with the entry or escrow page that owns them (log entry 14).
-/

namespace Sys2Proof.Machine

/-- The region of a stack (R14). -/
def regionOf (stack : Nat) : Nat := stack / 2

/-- The first SerDes lane of port p: eight lanes a tray port, four a fabric port (R14, R263). -/
def portLane (p : Nat) : Nat := if p < 9 then 8 * p else 72 + 4 * (p - 9)

/-- Pages in a list of (stack, number). -/
def pageCount (l : List (Nat × Nat)) : Nat := (l.map Prod.snd).sum

namespace State

/-- Deadline work ends: one whose deadline has passed is counted in ALC_SCHED.MISSED (R279;
log entry 100). -/
def countLate (s : State) (deadline : Word) : State :=
  if decide (deadline.toNat < s.now.toNat) then { s with alc.missed := satInc s.alc.missed } else s

/-- CLEAN mirror pages of a stack, of a region, of the device. -/
def cleanStack (s : State) (i : Nat) : Nat := (s.hbm i).cleanMirror
def cleanRegion (s : State) (q : Nat) : Nat := s.cleanStack (2 * q) + s.cleanStack (2 * q + 1)
def cleanMirror (s : State) : Nat := ((List.range 8).map s.cleanStack).sum

/-- DIRTY mirror pages. -/
def dirtyMirror (s : State) : Nat := ((s.alc.dirty.filter fun r => r.part = .mirror).map fun r => r.count).sum

/-- RETIRED pages of the device. -/
def retiredPages (s : State) : Nat := ((List.range 8).map fun i => (s.hbm i).retiredPages).sum

/-- Pages that a waiting context still needs. -/
def waiterOpen (w : Waiter) : Nat := w.mirrorDemand + w.rootDemand - pageCount w.held

/-- The open demand of every context in WAIT_CLEAN (R269, R272). -/
def openDemand (s : State) : Nat := (s.alc.waiters.map waiterOpen).sum

/-- CLEAN pages that no waiting context needs (R272). -/
def freeClean (s : State) : Nat := s.cleanMirror - s.openDemand

/-- Time that region q spent power-gated is taken out of its hearths' test limits (R258). -/
def skipGated (s : State) (q : Nat) : State :=
  match (s.region q).gatedAt with
  | none => s
  | some t =>
    let d := s.now - t
    ((List.range 17).foldl (fun (s : State) i => s.modHearth (17 * q + i) fun h => { h with lastPass := h.lastPass + d }) s).modRegion q
      fun r => { r with gatedAt := none }

/-- A page request needs region q: its gating is cancelled (R272), or it is powered up (R268), which takes 150 µs and the test of
its spare before it takes work (R258, R281): it reads waking until then. -/
def powerRegion (s : State) (q : Nat) : State :=
  match (s.region q).power with
  | .gating => s.modRegion q fun r => { r with power := .on }
  | .off => (s.skipGated q).modRegion q fun r => { r with power := .waking }
  | _ => s

/-- Up to `n` pages taken from one stack, whose region is then powered. -/
def takeStack (s : State) (i n : Nat) : State × List (Nat × Nat) :=
  let k := min n (s.cleanStack i)
  if k = 0 then (s, [])
  else ((s.modHbm i fun h => { h with cleanMirror := h.cleanMirror - k }).powerRegion (regionOf i), [(i, k)])

/-- Up to `n` pages taken from stacks in order. -/
def takeFrom (s : State) (n : Nat) : List Nat → State × List (Nat × Nat)
  | [] => (s, [])
  | i :: r =>
    let (s, a) := s.takeStack i n
    let (s, b) := takeFrom s (n - pageCount a) r
    (s, a ++ b)

/-- The powered regions, in the order of R268: most CLEAN mirror pages first, the lowest region on a tie. -/
def regionOrder (s : State) (q : Nat → Bool) : List Nat :=
  sortBy (fun a b => decide (s.cleanRegion b ≤ s.cleanRegion a)) ((List.range 4).filter q)

/-- A region that is powered. -/
def powered (s : State) (q : Nat) : Bool := (s.region q).power = .on || (s.region q).power = .gating

/-- A new mirror copy's pages (R268): whole in the powered region with the most CLEAN pages, else whole in a power-gated
region that can hold it, else split on page boundaries.  The caller has seen
that enough pages are free. -/
def takePages (s : State) (n : Nat) : State × List (Nat × Nat) :=
  let on := s.regionOrder s.powered
  let fits := on.find? fun q => decide (n ≤ s.cleanRegion q)
  let gated := (List.range 4).find? fun q => !s.powered q && decide (n ≤ s.cleanRegion q)
  match fits, gated with
  | some q, _ => s.takeFrom n [2 * q, 2 * q + 1]
  | none, some q => s.takeFrom n [2 * q, 2 * q + 1]
  | none, none => s.takeFrom n ((s.regionOrder fun _ => true).flatMap fun q => [2 * q, 2 * q + 1])

/-- Pages returned CLEAN without a wipe: they were never written (R266). -/
def returnClean (s : State) (l : List (Nat × Nat)) : State :=
  l.foldl (fun (s : State) x => s.modHbm x.1 fun h => { h with cleanMirror := h.cleanMirror + x.2 }) s

/-- Pages given up by their holder become DIRTY, at the end of the wipe queue (R266, R267). -/
def makeDirty (s : State) (owner : Option (Fin 16)) (part : Part) (l : List (Nat × Nat)) (entry : Option Nat := none) :
    State :=
  { s with alc.dirty := s.alc.dirty ++ (l.filter fun x => x.2 ≠ 0).map fun x =>
             { owner := owner, part := part, stack := x.1, count := x.2, entry := entry } }

/-- A context has DIRTY pages left. -/
def hasDirty (s : State) (c : Fin 16) : Bool := s.alc.dirty.any fun r => r.owner = some c

/-- Escrow pages that are CLEAN. -/
def cleanEscrow (s : State) : Nat := ((List.range 8).map fun i => (s.hbm i).cleanEscrow).sum

/-- An escrow page for a held page of a region: from that region's share, else from the others in ascending order
(R268). -/
def takeEscrow (s : State) (q : Nat) : Option (State × Nat) :=
  let order := [2 * q, 2 * q + 1] ++ (List.range 8).filter fun i => i / 2 ≠ q
  match order.find? fun i => (s.hbm i).cleanEscrow ≠ 0 with
  | some i => some ((s.modHbm i fun h => { h with cleanEscrow := h.cleanEscrow - 1 }).powerRegion (regionOf i), i)
  | none => none

/-- Stacks in the order in which pages of no particular region are taken: those of powered regions first. -/
def anyStack (s : State) : List Nat :=
  ((List.range 8).filter fun i => s.powered (regionOf i)) ++ (List.range 8).filter fun i => !s.powered (regionOf i)

/-- The head of WAIT_CLEAN takes the CLEAN pages it still needs, and after it each later context (R270). -/
def feedWaiters (s : State) : List Waiter → State × List Waiter
  | [] => (s, [])
  | w :: r =>
    let (s, l) := s.takeFrom (waiterOpen w) s.anyStack
    let (s, r) := feedWaiters s r
    (s, { w with held := w.held ++ l } :: r)

/-- Pages owed to the reserve, then to escrow, are paid from CLEAN mirror pages (R20). -/
def payOwed (s : State) : State :=
  (List.range 8).foldl (fun (s : State) i =>
    let h := s.hbm i
    let a := min s.alc.oweReserve h.cleanMirror
    let b := min s.alc.oweEscrow (h.cleanMirror - a)
    if a + b = 0 then s
    else
      { s.setHbm i { h with cleanMirror := h.cleanMirror - a - b, cleanEscrow := h.cleanEscrow + b } with
        alc.oweReserve := s.alc.oweReserve - a, alc.oweEscrow := s.alc.oweEscrow - b }) s

/-- A stack for a rebuilt table copy: the lowest working one of another region than the survivor's (R108, R113). -/
def newTableStack (s : State) (other : Nat) : Option Nat :=
  (List.range 8).find? fun i => !(s.hbm i).failed && regionOf i ≠ regionOf other

/-- A table copy's stack has failed: the copy is rebuilt from the survivor (R113). -/
def rebuildTable (s : State) (i : Nat) : State :=
  if s.mir.stackA.toNat = i then
    match s.newTableStack s.mir.stackB.toNat with
    | some j => { s with mir.stackA := BitVec.ofNat 3 j, mir.rebuild := true }
    | none => s
  else if s.mir.stackB.toNat = i then
    match s.newTableStack s.mir.stackA.toNat with
    | some j => { s with mir.stackB := BitVec.ofNat 3 j, mir.rebuild := true }
    | none => s
  else s

/-- The page that the wipe queue's head names has been wiped and read back: CLEAN, or RETIRED with ALC-001 when the
read-back fails (R266, R267). -/
def wipeHead (s : State) (good : Bool) : State :=
  match s.alc.dirty with
  | [] => s
  | r :: q =>
    let rest := if r.count ≤ 1 then q else { r with count := r.count - 1 } :: q
    let s := { s with alc.dirty := rest }
    if (s.hbm r.stack).failed then s
    else if !good then
      (s.modHbm r.stack fun h => { h with retiredPages := h.retiredPages + 1 }).event 14 1 (evSource 3 r.stack)
    else match r.part with
      | .mirror => (s.modHbm r.stack fun h => { h with cleanMirror := h.cleanMirror + 1 }).payOwed
      | .escrow => s.modHbm r.stack fun h => { h with cleanEscrow := h.cleanEscrow + 1 }

end State

end Sys2Proof.Machine
end

