-- ==== Sys2Proof/Machine/Escrow.lean ====
section
/-!
DEFINITION. Sys2Proof/Machine/Escrow.lean: the shared operations of checkpoints: triggers, snapshots, holds, escrow pages,
copy on write, abandonment and commit (08 R197–R208, R214).
-/

namespace Sys2Proof.Machine

namespace State

/-- The key of a shard ledger entry's copy kept here: the entries of a context, by index. -/
def entriesOf (s : State) (n : Nat) : List (Nat × Entry) :=
  s.mir.entries.filter fun e => e.2.st ≠ .free && e.2.ctx.toNat = n

/-- Logical nodes of the context's other Azards. -/
def otherAzards (s : State) (n : Nat) : List (BitVec 16) :=
  (s.ctx n).clr.azards.filter fun x => x ≠ (s.ctx n).life.self

/-- Random bytes drawn from the DRBG: a free value (R330). -/
def draw (s : State) (w : Nat) : State × BitVec w :=
  ({ s.useFree with sec.requests := s.sec.requests + 1 }, s.freeBits w)

/-! ## Escrow pages -/

/-- Free escrow below the low-water mark opens the damper; ten points above closes it (R202). -/
def damper (s : State) : State :=
  let pool := s.esc.poolGib.toNat * 512
  let low := s.esc.lowWater.toNat
  let held := s.cleanEscrow * 100
  if held < low * pool then { s with esc.damperOpen := true }
  else if (low + 10) * pool ≤ held then { s with esc.damperOpen := false }
  else s

/-- Pages of escrow freed: they go to the wipe queue of the escrow partition (R202, R265). -/
def freeEscrow (s : State) (n : Nat) (ps : List EscPage) : State :=
  (s.makeDirty (some (BitVec.ofNat 4 n).toFin) .escrow (ps.map fun p => (p.stack, 1))).damper

/-- ESC_STATE.WAITING (R203). -/
def updWaiting (s : State) : State :=
  { s with esc.waiting := s.mir.entries.any fun e => e.2.waitEscrow.isSome }

/-- The hold on one page ends; its escrow page is freed (R201, R202, R207). -/
def endHold (s : State) (n e p : Nat) : State :=
  let mine (x : EscPage) := x.entry.toNat = e && x.page = p
  let gone := (s.ctx n).esc.pages.filter mine
  let s := s.modEntry e fun x => { x with heldPages := x.heldPages.filter (· ≠ p) }
  let s := s.modCtx n fun c => { c with esc.pages := c.esc.pages.filter fun x => !mine x }
  s.freeEscrow n gone

/-- Every hold of the context's checkpoint ends and its escrow is freed; an update that waited for escrow may go on
(R203, R214). -/
def endHolds (s : State) (n : Nat) : State :=
  let gone := (s.ctx n).esc.pages
  let s := (s.entriesOf n).foldl (fun (s : State) e => s.modEntry e.1 fun x =>
    { x with
      heldPages := [], drainSet := [], acked := [], heldAsked := [], snapVoted := [], manifestSent := false, listing := false
      drainStop := false, waitEscrow := none, frozen := false }) s
  ((s.modCtx n fun c => { c with esc.pages := [] }).freeEscrow n gone).updWaiting

/-- Nothing of a checkpoint in progress is left; the checkpoint key is zeroised (R204, R208, R214). -/
def clearCkpt (s : State) (n : Nat) : State :=
  (s.endHolds n).modCtx n fun c => { c with esc := { c.esc with
    curSeq := 0, phase := 0, base := false, ckptStep := 0, key := none, included := [], shards := [], doneList := []
    head := none, latched := [], windows := [], manifestPut := false, manifestsOut := 0, drained := 0, puts := [] } }

/-- The checkpoint in progress is abandoned at this node (R204): ESC-010, its cause, its holds and escrow. -/
def dropCkpt (s : State) (n cause : Nat) : State :=
  if (s.ctx n).esc.curSeq = 0 then s
  else
    let s := (s.modCtx n fun c => { c with esc.abandonCause := BitVec.ofNat 8 cause }).clearCkpt n
    { s with esc.abandoned := satInc s.esc.abandoned }.eventCode 10 10 (evSource 5 n) cause

/-- ABANDON sent on: to the step root, or from it to every other node of the context (R204). -/
def tellAbandon (s : State) (n seq cause : Nat) : State :=
  let c := (BitVec.ofNat 4 n).toFin
  if (s.ctx n).life.stepRoot then s.notes c (s.otherAzards n) 0x33 none [seq, cause]
  else s.note c (s.ctx n).clr.root 0x33 none [seq, cause]

/-- A checkpoint abandoned on this Azard's account (R204). -/
def abandonCkpt (s : State) (n cause : Nat) : State :=
  let seq := (s.ctx n).esc.curSeq
  if seq = 0 then s else (s.dropCkpt n cause).tellAbandon n seq.toNat cause

/-- A copy has yet to reach the version that the checkpoint in progress holds (R200). -/
def beforeSnap (e : Entry) : Bool := e.frozen && e.version ≠ e.snapVersion && decide ((e.snapVersion - e.version).toNat < 2147483648)

/-- The other mirror of the shard is lost, as this entry knows it (R130). -/
def otherLost (e : Entry) : Bool := if e.role then e.degradedL else e.degradedP

/-- A held page was asked of the other mirror and that mirror is lost: neither copy verifies (R206, R218). -/
def heldGone (s : State) (n i : Nat) : State :=
  if (s.entry i).heldAsked ≠ [] && otherLost (s.entry i) then s.abandonCkpt n 4 else s

/-- A page is frozen for the checkpoint and its old content has not been copied yet.  The updates that lead to the held version
write the pages that are to be frozen, and find none held (R200). -/
def isHeld (s : State) (n e p : Nat) : Bool :=
  (s.entry e).heldPages.contains p && !beforeSnap (s.entry e) &&
    !(s.ctx n).esc.pages.any fun x => x.entry.toNat = e && x.page = p

/-- The stack that holds page p of a copy whose pages are listed by stack. -/
def stackOfPage : List (Nat × Nat) → Nat → Nat
  | [], _ => 0
  | (i, k) :: r, p => if p < k then i else stackOfPage r (p - k)

/-- Bytes of one mirror page, with the shard's last page shorter (R120). -/
def pageBytes (e : Entry) (p : Nat) : Bytes :=
  e.mem.read (p * 2097152) (min 2097152 (e.length.toNat - p * 2097152))

/-- A held page copied into escrow before a write lands on it (R201); none when no escrow page is free (R203). -/
def copyOnWrite (s : State) (n e p : Nat) : Option State :=
  if !s.isHeld n e p then some s
  else
    let x := s.entry e
    match s.takeEscrow (regionOf (stackOfPage x.alloc p)) with
    | none => none
    | some (s, i) =>
      let pg : EscPage := { entry := BitVec.ofNat 16 e, page := p, version := x.snapVersion, stack := i
                            bytes := Mem.write [] 0 (pageBytes x p) }
      let s := s.modCtx n fun c => { c with esc.pages := c.esc.pages ++ [pg] }
      some { s with esc.cow := satInc s.esc.cow }.damper

/-- The held content of a page: from escrow where it was copied, else the page itself (R206). -/
def heldContent (s : State) (n e p : Nat) : Bytes :=
  match (s.ctx n).esc.pages.find? fun x => x.entry.toNat = e && x.page = p with
  | some x => x.bytes.read 0 (min 2097152 ((s.entry e).length.toNat - p * 2097152))
  | none => pageBytes (s.entry e) p

/-- A list with a page put among its ascending pages. -/
def putPage (l : List Nat) (p : Nat) : List Nat := if l.contains p then l else sortBy (fun a b => decide (a ≤ b)) (l ++ [p])

/-- A write into page p of an entry's copy is tracked for the next drain set (R200); one that leads to the version of the checkpoint
in progress belongs to that checkpoint's own set, and the page is held from then on. -/
def trackWrite (s : State) (e p : Nat) : State :=
  s.modEntry e fun x =>
    let x := { x with written := if x.written.contains p then x.written else x.written ++ [p] }
    if beforeSnap x then { x with drainSet := putPage x.drainSet p, heldPages := putPage x.heldPages p }
    else { x with writtenNew := if x.writtenNew.contains p then x.writtenNew else x.writtenNew ++ [p] }

/-! ## Triggers and snapshots (R197–R200) -/

/-- A trigger is due at step S (R197). -/
def triggerDue (s : State) (n : Nat) (st : Word) : Bool :=
  let e := (s.ctx n).esc
  let c := (s.ctx n).life.charter
  (c.ckptSteps ≠ 0 && decide (c.ckptSteps.toNat ≤ st.toNat - e.refStep.toNat)) ||
  (c.ckptSeconds ≠ 0 && (decide (s.now.toNat < e.refTime.toNat) ||
    decide (e.refTime.toNat + c.ckptSeconds.toNat * second ≤ s.now.toNat)))

/-- The charter's BASE_EVERY, 0 giving 8 (R197). -/
def baseEvery (c : Charter) : Nat := if c.baseEvery = 0 then 8 else c.baseEvery.toNat

/-- Some entry of the context is DIVERGENT at this node (R199); every node judges its own. -/
def anyDivergent (s : State) (n : Nat) : Bool := (s.entriesOf n).any fun e => e.2.st = .divergent

/-- The step root's decision at the release of S (R198–R200, R208): the snapshot the RELEASE carries. -/
def decideCkpt (s : State) (n : Nat) (st : Word) (mode : BitVec 2) : State × Option CkptTag :=
  let e := (s.ctx n).esc
  let want := mode = 1 || (mode = 0 && s.triggerDue n st) || (mode ≠ 2 && e.pendingSnap)
  if !want || (e.curSeq ≠ 0 && e.pendingSnap) then (s, none)
  else if e.curSeq ≠ 0 then
    ((s.modCtx n fun c => { c with esc := { c.esc with deferred := true, pendingSnap := true } }).event 10 3 (evSource 5 n), none)
  else
    let seq := e.lastSeq + 1
    let base := e.baseSeq = 0 || decide (baseEvery (s.ctx n).life.charter ≤ e.sinceBase + 1)
    let (s, key) := s.draw 256
    let ch := (s.ctx n).life.charter
    let (ct, secret) := Config.kemEncap ch.kemKey s.free
    let s := { s.useFree with sec.requests := s.sec.requests + 1 }
    let wrap := Config.gcmSeal secret 0 (natLe 32 ch.lineage.toNat ++ natLe 4 seq.toNat) (natLe 32 key.toNat)
    let t := s.now
    let s := s.modCtx n fun c => { c with esc := { c.esc with
      lastSeq := seq, pendingSnap := false, kemCt := ct, wrap := wrap, snapTime := t } }
    (s, some { seq := seq, base := base, key := key })

/-- A copy that the checkpoint includes (R199). -/
def includable (e : Entry) : Bool :=
  e.st = .live || e.st = .fenced || (e.st = .filling && e.fillSource = 3)

/-- The snapshot of an entry's copy: its drain set, held in both copies (R200, R201).  The held version is the one that
S's own update produces; the pages that the updates up to it write join the set as they are written. -/
def freeze (base : Bool) (st : Word) (e : Entry) : Entry :=
  let set := if base || e.ckptSeq = 0 then List.range e.pages.toNat else sortBy (fun a b => decide (a ≤ b)) e.written
  { e with
    drainSet := set, heldPages := set, acked := [], heldAsked := [], snapVoted := [], manifestSent := false
    listing := false, drainStop := false, writtenNew := [], frozen := true
    snapVersion := e.version + (st - e.committed).setWidth 32 }

/-- A node acts on the snapshot that a RELEASE carries (R199, R200). -/
def snapshot (s : State) (n : Nat) (st : Word) (k : CkptTag) : State :=
  let inc := (s.entriesOf n).filter fun e => includable e.2
  let s := inc.foldl (fun (s : State) e => s.modEntry e.1 (freeze k.base st)) s
  let rec_ := match (s.ctx n).step.committed with | some a => Bytes.at a.latched.bytes 0x38 0x80 | none => List.replicate 0x80 0
  let wins := ((s.ctx n).clr.segs.filter fun x => x.2.elements ≠ 0).map fun x =>
    (BitVec.ofNat 12 x.1, x.2.commE0, x.2.commMax.getD 0x8000)
  let s := s.modCtx n fun c => { c with esc := { c.esc with
    curSeq := k.seq, base := k.base, phase := 1, ckptStep := st, key := some k.key,
    included := (inc.map fun e => BitVec.ofNat 16 e.1), shards := [], head := none, doneList := []
    manifestPut := false, manifestsOut := 0, drained := 0, puts := [], latched := rec_, windows := wins } }
  if s.anyDivergent n then s.abandonCkpt n 3 else s

/-- Included entries take the committed checkpoint's marks; holds, escrow and the key end (R214). -/
def commitCkpt (s : State) (n : Nat) : State :=
  let e := (s.ctx n).esc
  if e.curSeq = 0 then s
  else
    let s := e.included.foldl (fun (s : State) i => s.modEntry i.toNat fun x =>
      { x with
        ckptStep := e.ckptStep, ckptSeq := e.curSeq, ckptRoot := x.snapRoot, written := x.writtenNew, writtenNew := []
        src := x.acked.foldl (fun m p => Map.put m p (e.curSeq, BitVec.ofNat 8 (x.owner.toNat % e.targets.toNat))) x.src }) s
    let s := s.addTally 24 e.drained
    let s := s.modCtx n fun c => { c with esc := { c.esc with
      chain := (if e.base then [] else c.esc.chain) ++ e.key.toList.map fun k => (e.curSeq, k)
      doneSeq := e.curSeq, doneStep := e.ckptStep
      baseSeq := if e.base then e.curSeq else c.esc.baseSeq
      sinceBase := if e.base then 0 else c.esc.sinceBase + 1
      refStep := e.ckptStep, refTime := e.snapTime } }
    (s.clearCkpt n).event 10 1 (evSource 5 n)

end State

end Sys2Proof.Machine
end

