-- ==== Sys2Proof/Machine/Clearing.lean ====
section
/-!
DEFINITION. Sys2Proof/Machine/Clearing.lean: the shared operations of steps and clearing: attempts and phases (02), receipts
(14 R344–R346), pairs (10 R247–R251), staging, conversion, ledger blocks, deadlines, release and void (04).
-/

namespace Sys2Proof.Machine

/-- A context number as the messages carry it. -/
def ctxFin (n : Nat) : Fin 16 := (BitVec.ofNat 4 n).toFin

/-- R123: pairwise hashing of a list until one value remains; 32 zero bytes for the empty list. -/
def merkleLevel : List Digest → List Digest
  | a :: b :: r => hash256 ([0x4E] ++ digestBytes a ++ digestBytes b) :: merkleLevel r
  | l => l

def merkleFuel : Nat → List Digest → Digest
  | _, [] => 0
  | _, [a] => a
  | 0, a :: _ => a
  | k + 1, l => merkleFuel k (merkleLevel l)

/-- The root of R123. -/
def merkle (l : List Digest) : Digest := merkleFuel l.length l

/-- STEP, ATTEMPT and tag of an attempt, as its messages carry them (R37). -/
def Attempt.hdr (a : Attempt) : AttHdr := { step := a.step, attempt := a.attempt, tag := a.tag }

/-- Two attempts in the order of their numbers: step first. -/
def attBefore (st1 : Word) (a1 : BitVec 16) (st2 : Word) (a2 : BitVec 16) : Bool :=
  decide (st1.toNat < st2.toNat) || (st1 = st2 && decide (a1.toNat < a2.toNat))

/-- The status registers follow the newest accepted attempt (R55). -/
def syncStep (t : StepSt) : StepSt :=
  match t.accepted with
  | [] => t
  | a :: _ => { t with
      cur := a.step, attempt := a.attempt, phase := a.phase, voteLag := a.lag, tag := a.tag, voidOrigin := a.origin
      voidCause := if a.phase = .voided then a.cause else 0
      lagWait := t.lagWait && a.phase = .opened }

namespace State

/-! ## Attempts -/

/-- The newest accepted attempt, and the OPEN one. -/
def newestAtt (s : State) (n : Nat) : Option Attempt := (s.ctx n).step.accepted.head?
def openAtt (s : State) (n : Nat) : Option Attempt :=
  match s.newestAtt n with
  | some a => if a.phase = .opened then some a else none
  | none => none

/-- An attempt accepted in this activation. -/
def findAtt (s : State) (n : Nat) (st : Word) (a : BitVec 16) : Option Attempt :=
  (s.ctx n).step.accepted.find? fun x => x.step = st && x.attempt = a

/-- One attempt changed; the status registers follow. -/
def modAtt (s : State) (n : Nat) (st : Word) (a : BitVec 16) (f : Attempt → Attempt) : State :=
  s.modCtx n fun c => { c with step := syncStep { c.step with
    accepted := c.step.accepted.map fun x => if x.step = st && x.attempt = a then f x else x } }

/-- The committed attempt of a step. -/
def committedAtt (s : State) (n : Nat) (st : Word) : Option Attempt :=
  (s.ctx n).step.accepted.find? fun x => x.step = st && (x.phase = .released || x.phase = .updated || x.phase = .voted)

/-- Step k counts as VOTED at this node (R45). -/
def isVoted (s : State) (n : Nat) (k : Nat) : Bool :=
  let t := (s.ctx n).step
  decide (k ≤ t.baseStep.toNat) ||
    (decide (k ≤ t.voted.toNat) && !(t.updating ++ t.voting).any fun x => x.toNat = k)

/-- The node's trees: the groups in which it is a clearing node (R82). -/
def trees (s : State) (n : Nat) : List GroupTree := (s.ctx n).clr.groups.filter fun g => g.clearing

/-- The step root's group: the context's lowest-numbered one (R41). -/
def firstTree (s : State) (n : Nat) : Option GroupTree := (s.ctx n).clr.groups.head?

/-- The node has passed its deadline judgement in every group (R40, R96). -/
def passedAll (s : State) (n : Nat) : Bool :=
  let ts := s.trees n
  ts ≠ [] && ts.all fun g => (s.ctx n).clr.judged.contains (g.defn.group.setWidth 5)

def modSeg (s : State) (n k : Nat) (f : Seg → Seg) : State :=
  s.modCtx n fun c => { c with clr.segs := Map.mod {} c.clr.segs k f }

def seg (s : State) (n k : Nat) : Seg := Map.get {} (s.ctx n).clr.segs k

/-- The defined segments of a group. -/
def groupSegs (s : State) (n : Nat) (g : BitVec 5) : List (Nat × Seg) := (s.segsOf n).filter fun x => x.2.group = g

/-! ## Nodes, ports and claims -/

/-- The tray port that holds a node (R228). -/
def portOfNode (s : State) (n : Nat) (node : BitVec 16) : Option Nat :=
  ((s.ctx n).bind.bound.find? fun b => b.1 = node).map fun b => b.2.toNat

/-- A tray port as the Yobel operations number it. -/
def trayFin (k : Nat) : Fin 9 := if h : k < 9 then ⟨k, h⟩ else 0

/-- The member claim of a node (09, "Where claims are checked"). -/
def memberClaim (s : State) (n : Nat) (node : BitVec 16) : Word :=
  ((s.entriesOf n).filter fun e => !e.2.role && e.2.owner = node).foldl
    (fun a e => if a.toNat < e.2.claim.toNat then e.2.claim else a) 0

/-- The pairs of a group at this Azard. -/
def pairsOf (s : State) (n : Nat) (g : BitVec 5) : List PairSt := (s.ctx n).clr.pairs.filter fun p => p.defn.group = g

/-- The members of a group whose nodes this Azard holds (R437). -/
def localMembers (s : State) (n : Nat) (g : GroupDef) : List (BitVec 16) :=
  ((s.localNodes n).map Prod.fst).filter g.list.contains

/-- Shadows and armed referees of a group's pairs: awaited beside the members (R437, R250). -/
def watchers (s : State) (n : Nat) (g : BitVec 5) : List (BitVec 16) :=
  (s.pairsOf n g).flatMap fun p => p.defn.shadow :: if p.armed then [p.defn.referee] else []

/-- Every node whose contribution to a group this attempt awaits here. -/
def awaited (s : State) (n : Nat) (g : GroupDef) : List (BitVec 16) :=
  s.localMembers n g ++ s.watchers n (g.group.setWidth 5)

/-- Every node that the group's results are delivered to here (R100, R248). -/
def receivers (s : State) (n : Nat) (g : GroupDef) : List (BitVec 16) :=
  s.localMembers n g ++ (s.pairsOf n (g.group.setWidth 5)).flatMap fun p =>
    p.defn.shadow :: if p.defn.referee = 0xFFFF then [] else [p.defn.referee]

/-! ## Suspects (R251) -/

/-- A count that has just risen reaches its limit (R251, R253): it is equal to it, or lies above it with SUSPECT clear (log entry
99). -/
def hitsLimit {w v : Nat} (count : BitVec w) (limit : BitVec v) (suspect : Bool) : Bool :=
  count.toNat = limit.toNat || (!suspect && decide (limit.toNat < count.toNat))

/-- SUSPECT raised for the accelerator on a tray port (R251). -/
def raiseSuspect (s : State) (k cause : Nat) : State :=
  (s.modTstPort k fun t => { t with suspect := true, cause := BitVec.ofNat 4 cause }).eventCode 13 20 (evSource 1 k) cause

/-- An odd or unconfirmed page counted for a tray port (R126, R129, R251). -/
def countOddAccel (s : State) (k : Nat) (st : Word) : State :=
  let v := Map.get (0, 0) s.mir.suspect k
  let c := satInc v.1
  let s := { s with mir.suspect := Map.set (0, 0) s.mir.suspect k (c, st.setWidth 32) }
  if hitsLimit c s.tst.oddPages (s.tstPort k).suspect then s.raiseSuspect k 1 else s

/-- An odd page of this Azard's own copies (R126, R253). -/
def countOddSelf (s : State) (st : Word) : State :=
  let c := satInc s.mir.suspectSelf
  let s := { s with mir.suspectSelf := c, mir.suspectSelfStep := st.setWidth 32, mir.oddMirror := satInc s.mir.oddMirror }
  if hitsLimit c s.tst.oddPages s.tst.suspect then { s with tst.suspect := true, tst.cause := 1 }.eventCode 13 23 0 1 else s

/-- PAIR_ODD of a port (R250, R251). -/
def countPairOdd (s : State) (n : Nat) (node : BitVec 16) : State :=
  match s.portOfNode n node with
  | none => s
  | some k =>
    let s := s.modTstPort k fun t => { t with pairOdd := satInc t.pairOdd }
    if hitsLimit (s.tstPort k).pairOdd s.tst.pairLimit (s.tstPort k).suspect then s.raiseSuspect k 3 else s

/-! ## Window bases (R67, R68) -/

/-- E0 of a segment by its window mode (R67). -/
def baseE0 (g : Seg) : BitVec 16 :=
  match g.auto, g.commMax with
  | true, some m => if m = 0x8000 then g.commE0 else m - 103
  | _, _ => g.initE0

/-- E0 of a segment for step S, and whether it is a repeat window (R68). -/
def pickE0 (g : Seg) (st : Word) : BitVec 16 × Bool :=
  match g.forceFor with
  | some (t, e) => if t = st then (e, true) else (baseE0 g, false)
  | none => (baseE0 g, false)

/-- A segment's staging emptied (R39, R43). -/
def dropStaging (g : Seg) : Seg :=
  { g with sums := [], nf := [], ovfEl := [], ovfBlk := [], raw := [], units := [], blocks := [], sent := [],
           blkMax := [], pairDigest := [], sramChunks := [], hbmChunks := [] }

/-- A segment at the opening of an attempt: its window base, cleared status and staging (R67, R68, R105). -/
def openSeg (st : Word) (a : BitVec 16) (g : Seg) : Seg :=
  let (e, f) := pickE0 g st
  { dropStaging g with nonfinite := false, winOvf := false, range := false, forced := f, maxexp := 0x8000, e0 := e,
                       attempt := a }

/-! ## Staging (R91) -/

/-- The staging hearths of region q: active ones not out of service for a test. -/
def stagingHearths (s : State) (q : Nat) : List Nat :=
  ((List.range 17).map (17 * q + ·)).filter fun h => (s.hearth h).role = .active && !(s.hearth h).testing

/-- Chunks staged in hearth SRAM of region q, over all contexts. -/
def sramUsed (s : State) (q : Nat) : Nat :=
  (s.ctxs.map fun c => (c.2.clr.segs.map fun g => (g.2.sramChunks.filter fun x => x.2 = q).length).sum).sum

/-- HBM chunk slots in use; 512 of 16 MiB fill the 8 GiB of clearing staging. -/
def hbmUsed (s : State) : Nat := (s.ctxs.map fun c => (c.2.clr.segs.map fun g => g.2.hbmChunks.length).sum).sum

/-- A chunk takes staging when its first input arrives: SRAM of the lowest region with room, else an HBM chunk slot;
none when every slot is taken and the senders wait. -/
def stageChunk (s : State) (n k c : Nat) : Option State :=
  let g := s.seg n k
  if (g.sramChunks ++ g.hbmChunks).any fun x => x.1 = c then some s
  else
    let hs := ((s.openAtt n).map fun a => a.hearths).getD []
    let cap (q : Nat) := (hs.filter fun h => decide (17 * q ≤ h) && decide (h < 17 * q + 17)).length / 8
    match (List.range 4).find? fun q => decide (s.sramUsed q < cap q) with
    | some q => some (s.modSeg n k fun g => { g with sramChunks := g.sramChunks ++ [(c, q)] })
    | none =>
      if s.hbmUsed < 512 then some (s.modSeg n k fun g => { g with hbmChunks := g.hbmChunks ++ [(c, (c + k) % 4)] })
      else none

/-- Staging for several chunks. -/
def stageChunks (s : State) (n k : Nat) : List Nat → Option State
  | [] => some s
  | c :: r => match s.stageChunk n k c with
    | some t => t.stageChunks n k r
    | none => none

/-- A chunk's staging is freed. -/
def unstage (c : Nat) (g : Seg) : Seg :=
  { g with sramChunks := g.sramChunks.filter fun x => x.1 ≠ c, hbmChunks := g.hbmChunks.filter fun x => x.1 ≠ c }

/-! ## Blocks and chunks -/

/-- Blocks of a segment; blocks of one chunk; elements of one block. -/
def blockCount (g : Seg) : Nat := (g.elements.toNat + 63) / 64
def chunkBlocks (g : Seg) (c : Nat) : List Nat :=
  (List.range (min (16384 * (c + 1)) (blockCount g) - 16384 * c)).map (16384 * c + ·)
def chunkCount (g : Seg) : Nat := (blockCount g + 16383) / 16384
def blockElems (g : Seg) (b : Nat) : List Nat := (List.range (min 64 (g.elements.toNat - 64 * b))).map (64 * b + ·)

/-- The staging hearth that holds block b of a chunk staged in region q's SRAM: with the attempt's h staging hearths of the
region in ascending order, the one whose number is the block's index in its chunk modulo h (R91). -/
def blockHearth (a : Attempt) (q b : Nat) : Option Nat :=
  let hs := a.hearths.filter fun h => h / 17 = q
  hs[b % 16384 % hs.length]?

/-- Staging of segment g that the attempt has in SRAM lies on hearth h. -/
def stagesOn (a : Attempt) (g : Seg) (h : Nat) : Bool :=
  g.sramChunks.any fun c => c.2 = h / 17 && ((chunkBlocks g c.1).take 17).any fun b => blockHearth a c.2 b = some h

/-- Every unit of a byte range has been accepted from a node. -/
def covers (g : Seg) (node : BitVec 16) (lo hi : Nat) : Bool :=
  decide (hi ≤ lo) || (List.range ((hi - 1) / 256 + 1 - lo / 256)).all fun u => g.units.contains (node, lo / 256 + u)

/-- A node's contribution to a segment is complete, or covers chunk c (R87, R92). -/
def complete (g : Seg) (node : BitVec 16) : Bool := covers g node 0 (contribBytes g.cfmt.toNat g.elements.toNat)
def coversChunk (g : Seg) (c : Nat) (node : BitVec 16) : Bool :=
  covers g node (contribBytes g.cfmt.toNat (1048576 * c))
    (contribBytes g.cfmt.toNat (min g.elements.toNat (1048576 * (c + 1))))

/-- Block b of a segment is in: every local member covers its chunk and every child's block b has arrived (R92). -/
def blockIn (s : State) (n : Nat) (t : GroupTree) (g : Seg) (b : Nat) : Bool :=
  (s.localMembers n t.defn).all (coversChunk g (b / 16384)) && t.children.all fun c => g.blocks.contains (c, b)

/-- A block of this node's staging in wire form; MAXEXP of what entered it (R73). -/
def upBlock (g : Seg) (b : Nat) : Bytes :=
  let es := blockElems g b
  encodeBlock b (es.map fun i => Map.get 0 g.sums i) (es.map fun i => g.nf.contains i || g.ovfEl.contains i)
    (es.map g.nf.contains) (g.ovfBlk.contains b) (Map.get 0x8000 g.blkMax b)

/-! ## Conversion (R63–R66) -/

/-- A number put into a list once. -/
def putOnce {α : Type} [BEq α] (l : List α) (x : α) : List α := if l.contains x then l else l ++ [x]

/-- An exponent that entered block b (R65). -/
def noteExp (g : Seg) (b : Nat) (e : Int) : Seg :=
  let m := BitVec.ofInt 16 e
  { g with maxexp := maxExp g.maxexp m, blkMax := Map.mod 0x8000 g.blkMax b fun x => maxExp x m }

/-- One contribution element converted and added (R63, R66, R68). -/
def addElem (raw : Mem) (g : Seg) (i : Nat) : Seg :=
  match convert (elemValue g.cfmt.toNat raw i) g.e0.toInt with
  | .nonfinite => { g with nonfinite := true, nf := putOnce g.nf i }
  | .overflow e => noteExp { g with winOvf := true, ovfEl := putOnce g.ovfEl i, ovfBlk := putOnce g.ovfBlk (i / 64) } (i / 64) e
  | .value l e =>
    let g := { g with sums := Map.mod 0 g.sums i (· + l) }
    match e with
    | some e => noteExp g (i / 64) e
    | none => g

/-- One 256-byte unit of a node's contribution: a member's elements that it completes enter the ledger; a pair's nodes
enter the contribution digest (R87, R248). -/
def takeUnit (member paired : Bool) (k : Nat) (node : BitVec 16) (off : Nat) (d : Bytes) (g : Seg) : Seg :=
  let u := off / 256
  let m := Mem.write (Map.get [] g.raw node.toNat) off d
  let g1 := { g with raw := Map.set [] g.raw node.toNat m, units := g.units ++ [(node, u)] }
  let h := hash256 ([0x41, 0x5A, 0x43, 0x44] ++ natLe 4 k ++ natLe 4 u ++ d)
  let g1 := if paired then { g1 with pairDigest := Map.mod 0 g1.pairDigest node.toNat (· + h) } else g1
  if !member then g1
  else
    let ready := (elemsNear g.cfmt.toNat g.elements.toNat off d.length).filter fun i =>
      (elemBytes g.cfmt.toNat i).all (fun a => g1.units.contains (node, a / 256)) &&
      !(elemBytes g.cfmt.toNat i).all (fun a => g.units.contains (node, a / 256))
    ready.foldl (addElem m) g1

/-- The units of a WRC, with those that repeat left out and counted (R87). -/
def takeUnits (s : State) (n k : Nat) (member paired : Bool) (node : BitVec 16) : Nat → Nat → Bytes → State
  | 0, _, _ => s
  | f + 1, off, d =>
    if d = [] then s
    else
      let s := if (s.seg n k).units.contains (node, off / 256) then { s with clr.dup := satInc s.clr.dup }
        else s.modSeg n k (takeUnit member paired k node off (d.take 256))
      s.takeUnits n k member paired node f (off + 256) (d.drop 256)

/-- The stamp at which an input became complete; a repeat does not move it (R96). -/
def noteArrival (s : State) (n : Nat) (key : InputKey) (t : Stamp) : State :=
  if (s.ctx n).clr.arrived.any fun x => x.1 = key then s
  else s.modCtx n fun c => { c with clr.arrived := c.clr.arrived ++ [(key, t)] }

/-- A child's upward block accumulated (R74, R93). -/
def addBlock (child : BitVec 16) (b : BlockIn) (g : Seg) : Seg :=
  let g := { g with blocks := g.blocks ++ [(child, b.block)] }
  let g := (b.vals.zipIdx).foldl (fun (g : Seg) x =>
    { g with sums := Map.mod 0 g.sums (64 * b.block + x.2) (· + x.1) }) g
  let marks := (blockElems g b.block).filter fun i => b.nfmask / 2 ^ (i - 64 * b.block) % 2 = 1
  let g := { g with nf := marks.foldl putOnce g.nf, nonfinite := g.nonfinite || marks ≠ [],
                    winOvf := g.winOvf || b.ovf, ovfBlk := if b.ovf then putOnce g.ovfBlk b.block else g.ovfBlk }
  if b.maxexp = 0x8000 then g else noteExp g b.block b.maxexp.toInt

/-! ## Pairs (R249, R250) -/

/-- A pair changed; its port's register follows (R264). -/
def setPair (s : State) (n : Nat) (p : PairSt) (missed transient : Bool := false) : State :=
  let s := s.modCtx n fun c => { c with clr.pairs := c.clr.pairs.map fun x => if x.defn = p.defn then p else x }
  match s.portOfNode n p.defn.primary with
  | none => s
  | some k => s.modTstPort k fun t => { t with
      pairStatus := p.status
      mismatches := if missed then satInc t.mismatches else t.mismatches
      transient := if transient then satInc t.transient else t.transient }

/-- The pair lets the attempt proceed (R249, R250). -/
def pairGo (p : PairSt) : Bool :=
  p.decided && (p.status = .agreed || p.status = .shadowOdd || p.status = .refereeOdd)

/-- Contribution digests of a node, segment by segment. -/
def digestsOf (s : State) (n : Nat) (p : PairSt) (node : BitVec 16) : List Digest :=
  (s.groupSegs n p.defn.group).map fun x => Map.get 0 x.2.pairDigest node.toNat

/-- A node's contribution to every segment of a group is complete. -/
def allComplete (s : State) (n : Nat) (g : BitVec 5) (node : BitVec 16) : Bool :=
  (s.groupSegs n g).all fun x => complete x.2 node

/-- The table of R250 for one pair whose contributions are all in. -/
def judgePair (s : State) (n i : Nat) (a : Attempt) (p : PairSt) : State :=
  let dp := s.digestsOf n p p.defn.primary
  let ds := s.digestsOf n p p.defn.shadow
  let dr := s.digestsOf n p p.defn.referee
  let before := if p.missStep = a.step then p.missRun else 0
  let ev (s : State) := s.record 13 10 (evSource 5 n) 0 (BitVec.ofNat 32 i) (a.step.setWidth 32)
  if !p.armed then
    if dp = ds then
      s.setPair n { p with decided := true, status := .agreed, missRun := 0 } false (before ≠ 0)
    else
      let run := before + 1
      let p := { p with decided := true, missStep := a.step, missRun := run }
      if run < 2 then ev (s.setPair n { p with status := .mismatch } true)
      else if p.defn.referee ≠ 0xFFFF then ev (s.setPair n { p with status := .refereeArmed, armed := true } true)
      else (ev (s.setPair n { p with status := .undecided } true)).record 13 11 (evSource 5 n) 0 (BitVec.ofNat 32 i) (a.step.setWidth 32)
  -- every further attempt of a step whose primary was odd is withheld in the same way
  else if p.oddStep = some a.step && !(ds = dr && dp ≠ ds) then s.setPair n { p with decided := true, status := .primaryOdd }
  else if dp = ds && ds = dr then s.setPair n { p with decided := true, status := .agreed }
  else if dp = dr then ev ((s.setPair n { p with decided := true, status := .shadowOdd }).countPairOdd n p.defn.shadow)
  else if dp = ds then ev ((s.setPair n { p with decided := true, status := .refereeOdd }).countPairOdd n p.defn.referee)
  else if ds = dr then
      ev ((s.setPair n { p with decided := true, status := .primaryOdd, oddStep := some a.step }).countPairOdd n p.defn.primary)
  else
    (ev (s.setPair n { p with decided := true, status := .undecided })).record 13 11 (evSource 5 n) 0 (BitVec.ofNat 32 i)
      (a.step.setWidth 32)

/-- Every pair of a group whose contributions are in is judged once per attempt (R250). -/
def comparePairs (s : State) (n : Nat) (g : BitVec 5) : State :=
  match s.openAtt n with
  | none => s
  | some a =>
    ((s.ctx n).clr.pairs.zipIdx).foldl (fun (s : State) x =>
      let p := x.1
      if p.defn.group = g && !p.decided && s.allComplete n g p.defn.primary && s.allComplete n g p.defn.shadow &&
          (!p.armed || s.allComplete n g p.defn.referee) then s.judgePair n x.2 a p else s) s

/-- Every pair of a group has agreed on this attempt (R249). -/
def pairsAgree (s : State) (n : Nat) (g : BitVec 5) : Bool := (s.pairsOf n g).all pairGo

/-! ## Receipts (R344–R346) -/

/-- The next receipt issued when a note for its step is in from every node of the context. -/
def issueReceipt (s : State) (n : Nat) : Option State :=
  let c := s.ctx n
  let st := c.life.issued + 1
  let notes := c.life.notes.filter fun x => x.step = st
  if !(c.clr.azards.all fun z => notes.any fun x => x.node = z) || c.clr.azards = [] || s.sec.error then none
  else
    let roots := sortBy (fun (a b : Word × Digest) => decide (a.1.toNat ≤ b.1.toNat)) (notes.flatMap fun x => x.roots)
    let att := s.committedAtt n st
    let start := c.life.firstReceipt && c.life.restoredSeq.isNone
    let restored := c.life.firstReceipt && c.life.restoredSeq.isSome
    let prev := match restored, start, c.life.restoredSeq with
      | true, _, some r => r.2
      | _, true, _ => c.life.charter.ledgerBase
      | _, _, _ => c.life.lastReceipt
    let seq := match restored, c.life.restoredSeq with | true, some r => r.1.toNat | _, _ => 0
    let body := [0x41, 0x5A, 0x52, 0x43] ++ natLe 2 1 ++ natLe 2 (bit start + 2 * bit restored) ++ natLe 8 st.toNat ++
      natLe 2 ((att.map fun a => a.attempt.toNat).getD 0) ++ natLe 2 0 ++ natLe 4 seq ++
      natLe 8 ((att.map fun a => a.tag.toNat).getD 0) ++ digestBytes c.life.digest ++
      digestBytes (merkle (roots.map Prod.snd)) ++ digestBytes prev ++ digestBytes s.sec.identity ++
      natLe 8 s.now.toNat ++ List.replicate 24 0
    let r := body ++ Bytes.at (Config.falconSign s.sec.identityKey body) 0 1280
    let s := s.modCtx n fun c => { c with life := { c.life with
      receiptStep := st, issued := st, receipts := Map.set [] c.life.receipts (st.toNat % 16384) r, lastReceipt := hash256 r
      firstReceipt := false, restoredSeq := none, notes := c.life.notes.filter fun x => decide (st.toNat < x.step.toNat) } }
    -- R344: the CHECKPOINT_MANIFEST for S waits for this receipt, whose notes name the shards
    let inc := sortBy (fun (a b : Word × Digest) => decide (a.1.toNat ≤ b.1.toNat)) (notes.flatMap fun x => x.included)
    let s := if c.esc.curSeq ≠ 0 && st = c.esc.ckptStep then
        s.modCtx n fun c => { c with esc := { c.esc with shards := inc, head := some (hash256 r) } }
      else s
    some (s.record 17 30 (evSource 5 n) 0 (st.setWidth 32) ((att.map fun a => a.attempt.setWidth 32).getD 0))

/-- Receipts issued in step order while they can be. -/
def issueReceipts (s : State) (n : Nat) : Nat → State
  | 0 => s
  | f + 1 => match s.issueReceipt n with
    | some t => t.issueReceipts n f
    | none => s

/-- A VOTE_NOTE at the step root (R344); a repeat of a node's note for a step replaces it. -/
def takeNote (s : State) (n : Nat) (v : VoteNote) : State :=
  let c := s.ctx n
  if v.step.toNat ≤ c.life.issued.toNat then s
  else
    let s := s.modCtx n fun c => { c with life.notes :=
      (c.life.notes.filter fun x => !(x.node = v.node && x.step = v.step)) ++ [v] }
    s.issueReceipts n ((s.ctx n).life.notes.length + 1)

/-- This node's note for a step, to the step root (R344). -/
def sendNote (s : State) (n : Nat) (st : Word) : State :=
  let c := s.ctx n
  let mine := (s.entriesOf n).filter fun e => !e.2.role && includable e.2
  let rootOf (e : Entry) : Digest := ((e.rootsAt.find? fun r => r.1 = st).map Prod.snd).getD e.digestRoot
  let roots := mine.map fun e => (e.2.shardId, rootOf e.2)
  -- the shards that the snapshot at this step included, as they were at its release (R199)
  let inc := if c.esc.curSeq = 0 || c.esc.ckptStep ≠ st then []
    else (c.esc.included.filter fun i => !(s.entry i.toNat).role).map fun i => ((s.entry i.toNat).shardId, (s.entry i.toNat).snapRoot)
  let s := mine.foldl (fun (s : State) e => s.modEntry e.1 fun x => { x with
    rootsAt := x.rootsAt.filter fun r => decide (st.toNat < r.1.toNat) }) s
  if c.life.stepRoot then s.takeNote n { node := c.life.self, step := st, roots := roots, included := inc }
  else s.note (ctxFin n) c.clr.root 0x30 none
    ([st.toNat, roots.length] ++ (roots ++ inc).flatMap fun r => [r.1.toNat, r.2.toNat])

/-! ## Lag clearance and VOTED (R39, R45) -/

/-- Nodes whose lag clearance this node waits for: its children in the step root's tree, and at the step root every
Azard outside that tree (R45). -/
def lagFrom (s : State) (n : Nat) : List (BitVec 16) :=
  let c := s.ctx n
  let kids := match s.firstTree n with | some t => if t.clearing then t.children else [] | none => []
  if c.life.stepRoot then kids ++ c.clr.direct.filter fun x => x ≠ c.life.self else kids

/-- Lag clearance for the attempt stands at this node. -/
def lagReady (s : State) (n : Nat) (a : Attempt) : Bool :=
  (decide (a.step.toNat ≤ a.lag.toNat) || s.isVoted n (a.step.toNat - a.lag.toNat)) &&
    (s.lagFrom n).all fun z => (s.ctx n).step.clears.any fun c => c.1 = z && c.2 = a.hdr

/-- Lag clearance sent up, or directly to the step root, once it stands (R45). -/
def sendLag (s : State) (n : Nat) : State :=
  match s.openAtt n with
  | none => s
  | some a =>
    let c := s.ctx n
    if c.step.clearSent = some a.hdr || !s.lagReady n a then s
    else
      let s := s.modCtx n fun c => { c with step.clearSent := some a.hdr }
      if c.life.stepRoot then s
      else
        let up := match s.firstTree n with
          | some t => if t.clearing then t.parent.getD c.clr.root else c.clr.root
          | none => c.clr.root
        s.note (ctxFin n) up 0x13 (some a.hdr) [a.step.toNat]

/-- Step S is VOTED at this node: note, receipt and lag clearance follow; the step root's release is not looked at. -/
def votedQuiet (s : State) (n : Nat) (st : Word) : State :=
  let s := s.modCtx n fun c => { c with step := { c.step with
    voting := c.step.voting.filter fun x => x ≠ st
    voted := if c.step.voted.toNat < st.toNat then st else c.step.voted } }
  let s := match s.committedAtt n st with
    | some a => s.modAtt n st a.attempt fun x => { x with phase := .voted }
    | none => s
  (s.sendNote n st).sendLag n

/-- A copy whose pages take part in the votes of each step: a shard brought to the committed state, or fed from its
mirrors, and not dropped (R124, R125, R130). -/
def owesVotes (e : Entry) : Bool :=
  (e.st = .live || e.st = .fenced || e.st = .divergent || (e.st = .filling && e.fillSource = 3)) &&
    !(e.role && e.degradedP)

/-- Every vote on this node's shards that S's update produced has ended with a majority (R39, R125). -/
def votesIn (s : State) (n : Nat) (st : Word) : Bool :=
  !(s.ctx n).step.stuck.contains st && (s.entriesOf n).all fun e => !owesVotes e.2 || decide (st.toNat ≤ e.2.votedStep.toNat)

/-- The UPDATED phase: no copy here still has S's update to run (R39, R124). -/
def toUpdated (s : State) (n : Nat) (st : Word) : State :=
  let c := s.ctx n
  if !c.step.updating.contains st || (s.entriesOf n).any (fun e => e.2.queued.contains st) then s
  else
    let s := s.modCtx n fun c => { c with step := { c.step with
      updating := c.step.updating.filter fun x => x ≠ st, voting := c.step.voting ++ [st] } }
    match s.committedAtt n st with
    | some a => s.modAtt n st a.attempt fun x => { x with phase := .updated }
    | none => s

/-- No step is between its record and its update at this Azard: a step boundary (R19, R273). -/
def stepBoundary (s : State) : Bool :=
  ctxNums.all fun n => (s.openAtt n).isNone && (s.ctx n).step.updating = []

/-- One page leaves a list of pages on stack i. -/
def dropPage (i : Nat) (l : List (Nat × Nat)) : List (Nat × Nat) :=
  (l.map fun (y : Nat × Nat) => if y.1 = i then (y.1, y.2 - 1) else y).filter fun y => y.2 ≠ 0

/-- A page of stack i whose read-back failed (R389): its content moves to a CLEAN page, it becomes RETIRED, HBM-030.  Nothing
where no CLEAN page is free. -/
def retirePage (s : State) (i : Nat) (l : LineKind) : Option State :=
  let done (s : State) : Option State :=
    some ((s.modHbm i fun h => { h with retiredPages := h.retiredPages + 1 }).event 4 30 (evSource 3 i))
  let (t, new) := s.takeFrom 1 (i :: (List.range 8).filter fun j => j ≠ i)
  match l with
  | .mirror e _ _ =>
    if !(s.entry e.toNat).alloc.any fun x => x.1 = i then done s
    else if new = [] then none
    else done (t.modEntry e.toNat fun x => { x with alloc := dropPage i x.alloc ++ new })
  | .rootStaging c =>
    if !(s.ctx c.ctx).clr.rootAlloc.any fun x => x.1 = i then done s
    else if new = [] then none
    else done (t.modCtx c.ctx fun x => { x with clr.rootAlloc := dropPage i x.clr.rootAlloc ++ new })
  | .escrow _ =>
    -- its checkpoint is abandoned: the page is DIRTY or CLEAN escrow
    if s.alc.dirty.any fun r => r.part = .escrow && r.stack = i then
      done { s with alc.dirty := (s.alc.dirty.map fun r =>
        if r.part = .escrow && r.stack = i then { r with count := r.count - 1 } else r).filter fun r => r.count ≠ 0 }
    else done (s.modHbm i fun h => { h with cleanEscrow := h.cleanEscrow - 1 })
  | .free => done { s with alc.dirty := (s.alc.dirty.map fun r =>
      if r.part = .mirror && r.stack = i then { r with count := r.count - 1 } else r).filter fun r => r.count ≠ 0 }
  | .clean => done (s.modHbm i fun h => { h with cleanMirror := h.cleanMirror - 1 })
  -- a page of the system reserve, whose content takes a CLEAN page's place
  | .ledger _ _ | .program _ | .chunkSlot _ | .replay _ | .spill => if new = [] then none else done t

/-- At a step boundary the pages whose read-back failed leave; a CLEAN one leaves at once (R389). -/
def settleRetire (s : State) : State :=
  if s.die.retireDue = [] || !s.stepBoundary then s
  else s.die.retireDue.foldl (fun (s : State) x =>
    match s.retirePage x.1 x.2 with
    | some t => t
    | none => { s with die.retireDue := s.die.retireDue ++ [x] }) { s with die.retireDue := [] }

/-- UPDATED and, when its votes are in, VOTED. -/
def settleQuiet (s : State) (n : Nat) (st : Word) : State :=
  let s := (s.toUpdated n st).settleRetire
  if (s.ctx n).step.voting.contains st && s.votesIn n st then s.votedQuiet n st else s

/-! ## VOID (R38–R44, R101–R103) -/

/-- Tree neighbours of this node, and what R102 adds at group roots and at the step root. -/
def voidTargets (s : State) (n : Nat) : List (BitVec 16) :=
  let c := s.ctx n
  let near := (s.trees n).flatMap fun t => t.parent.toList ++ t.children
  let up := if (s.trees n).any (fun t => t.isRoot) then [c.clr.root] else []
  let down := if c.life.stepRoot then c.clr.groups.map (fun g => g.root) ++ c.clr.idle else []
  ((near ++ up ++ down).filter fun x => x ≠ c.life.self).eraseDups

/-- The repeat window that a WINDOW_OVERFLOW void fixes (R68). -/
def forceWindows (st : Word) (segs : List SegReport) (g : Map Seg) : Map Seg :=
  segs.foldl (fun m r => if r.maxexp = 0x8000 then m else
    Map.mod {} m r.seg.toNat fun x => { x with winOvf := true, maxexp := r.maxexp, forceFor := some (st, r.maxexp - 103) }) g

/-- Segment reports as message words. -/
def segArgs (segs : List SegReport) : List Nat :=
  segs.flatMap fun r => [r.seg.toNat, r.maxexp.toNat, bit r.ovf, bit r.nonfinite]

/-- A QUIESCE takes effect once no attempt is OPEN at this node (R334). -/
def settleQuiesce (s : State) (n : Nat) : State :=
  if (s.ctx n).life.quiescing && (s.ctx n).life.st = .active && (s.openAtt n).isNone then
    s.modCtx n fun c => { c with life := { c.life with st := .quiesced, quiescing := false } }
  else s

/-- A release stops every move of the context's copies, and its next pages count for the next step (R273, R274). -/
def stopMoves (s : State) (n : Nat) : State :=
  let mine (i : Nat) : Bool := (s.entry i).ctx.toNat = n
  let k := (s.alc.moving.filter fun i => mine i && (s.entry i).st ≠ .retiring && (s.entry i).alloc ≠ []).length
  { s with
    alc.lastLoad := Map.set {} s.alc.lastLoad n (Map.get {} s.alc.load n)
    alc.load := Map.set {} s.alc.load n {}
    alc.stopped := satAdd s.alc.stopped k
    alc.moving := s.alc.moving.filter fun i => !mine i
    alc.movedStep := Map.set 0 s.alc.movedStep n 0 }

/-- The OPEN attempt `a` is VOIDED here (R39, R43, R44): staging and held blocks go, the void is counted and recorded, and
VOID is relayed to every neighbour but the sender. -/
def voidAttempt (s : State) (n : Nat) (a : Attempt) (cause : BitVec 4) (origin sender : BitVec 16)
    (segs : List SegReport) : State :=
  let s := s.modAtt n a.step a.attempt fun x => { x with phase := .voided, cause := cause, origin := origin }
  let s := s.modCtx n fun c => { c with
    step.voids := satInc c.step.voids
    -- a group root keeps a full sum it has reported: a release still stands over its void (R94, R102)
    clr.segs := forceWindows a.step (if cause = 2 then segs else []) (Map.mapVals {} c.clr.segs fun _ (x : Seg) =>
      if c.clr.reported.contains x.group then x else dropStaging x)
    clr.held := c.clr.held.filter fun h => h.hdr ≠ a.hdr
    clr.reports := [], clr.arrived := [] }
  let s := s.record 5 10 (evSource 5 n) (cause.setWidth 32) (a.step.setWidth 32) (a.attempt.setWidth 32)
  (s.notes (ctxFin n) ((s.voidTargets n).filter fun x => x ≠ sender) 0x12 (some a.hdr)
    ([cause.toNat, origin.toNat] ++ segArgs (if cause = 2 then segs else []))).settleQuiesce n

/-- A void on this node's own account (R102). -/
def voidSelf (s : State) (n : Nat) (a : Attempt) (cause : BitVec 4) : State :=
  let self := (s.ctx n).life.self
  s.voidAttempt n a cause self self []

/-- Traffic of the OPEN attempt with another tag voids it with RECORD_MISMATCH (R37), unless the node has passed its
judgement (R40). -/
def voidMismatch (s : State) (n : Nat) (a : Attempt) : State := if s.passedAll n then s else s.voidSelf n a 4

/-! ## Release (R39, R98, R99) -/

/-- A mirror copy that S's update is queued for (R124). -/
def takesUpdate (e : Entry) : Bool :=
  (e.st = .live || e.st = .fenced || e.st = .filling) && !(if e.role then e.degradedP else e.degradedL)

/-- s6 for an entry's run of a step (R166). -/
def stepKey (s : State) (n : Nat) (st : Word) (e : Entry) : Word :=
  match s.committedAtt n st with
  | some a => randomKey (Bytes.at a.latched.bytes 0x80 32) (Bytes.at a.latched.bytes 0xA0 24) st e.stream
  | none => randomKey (List.replicate 32 0) (List.replicate 24 0) st e.stream

/-- KEY and RELEASE_STEP written to the slot of a LIVE local entry (R182, R183). -/
def releaseSlot (s : State) (n : Nat) (st : Word) (i : Nat) (e : Entry) : State :=
  match s.portOfNode n e.owner with
  | none => s
  | some k =>
    match (s.port k).slotsUsed.find? fun x => x.entry.toNat = i with
    | none => s
    | some x =>
      let at0 := 0x10000 + 0x80 * x.slot
      let s := s.yobelWr (trayFin k) (at0 + 0x40) (natLe 8 (s.stepKey n st e).toNat)
      s.yobelWr (trayFin k) (at0 + 0x38) (natLe 8 st.toNat)

/-- The watchdog's step times: the interval between releases, the median of the last 16 (R380). -/
def wdRelease (s : State) (n : Nat) : State :=
  let w := (s.ctx n).wd
  let now := s.now
  let iv := match w.lastRelease with
    | some t => addGap w.intervals (now.toNat - t.toNat)
    | none => w.intervals
  let med := medianOf iv / 1000000
  let lim := max (s.kin.img.wdMult.toNat * med) (s.kin.img.wdFloor.toNat * 1000)
  s.modCtx n fun c => { c with wd := { c.wd with
    lastRelease := some now, intervals := iv, median := BitVec.ofNat 31 med, limit := BitVec.ofNat 32 lim } }

/-- A segment when its step is released: the committed window, and a place for the sums that come down (R52, R67, R99). -/
def releaseSeg (st : Word) (a : BitVec 16) (mine : Bool) (m : BitVec 16) (g : Seg) : Seg :=
  let (e0, f) := if mine then (g.e0, g.forced) else pickE0 g st
  let r : Round := { step := st, attempt := a, e0 := e0, maxexp := m, nonfinite := g.nonfinite && mine, range := false,
                     forced := f, blocks := [], bytes := [], delivered := [] }
  { g with maxexp := m, commMax := some m, commE0 := e0, forceFor := none, rounds := (r :: g.rounds).take 8 }

/-- MAXEXP of a segment in a RELEASE; 0x8000 when it carries none. -/
def relMax (ms : List (BitVec 12 × BitVec 16)) (k : Nat) : BitVec 16 :=
  ((ms.find? fun x => x.1.toNat = k).map Prod.snd).getD 0x8000

/-- The deadline of released step `st`'s instances, digests and vote: its release + L × P, where P is the median release
interval, 100 ms until there are two (R279). -/
def setDeadline (s : State) (n : Nat) (h : AttHdr) : State :=
  let iv := (s.ctx n).wd.intervals
  let p := if iv.length < 2 then 100000000 else medianOf iv
  let now := s.now
  s.modAtt n h.step h.attempt fun a => { a with deadline := now + BitVec.ofNat 64 (a.lag.toNat * p) }

/-- The node enters RELEASED for a step (R39): committed step and windows, queued updates, Yobel slots, fills, snapshot,
watchdog; a node without shards passes on to VOTED at once. -/
def enterReleased (s : State) (n : Nat) (h : AttHdr) (ms : List (BitVec 12 × BitVec 16)) (k : Option CkptTag) : State :=
  if (s.ctx n).step.released ≠ h.step - 1 then s
  else
    let mine := match s.newestAtt n with | some a => a.hdr = h | none => false
    let s := s.modAtt n h.step h.attempt fun x => { x with phase := .released }
    let att := s.findAtt n h.step h.attempt
    let s := s.modCtx n fun c => { c with
      step := { c.step with committed := att, released := h.step, updating := c.step.updating ++ [h.step], lagWait := false }
      clr.segs := Map.mapVals {} c.clr.segs fun k (x : Seg) =>
        if x.elements = 0 then x else releaseSeg h.step h.attempt mine (relMax ms k) x
      clr.relGroups := []
      clr.pairs := c.clr.pairs.map fun p => { p with armed := false, missRun := 0 } }
    -- R203: the release of T + L − 1 abandons a checkpoint whose escrow an update of T waits for
    let late := (s.entriesOf n).any fun e => match e.2.waitEscrow with
      | some t => decide (t.toNat + ((s.committedAtt n t).map fun a => a.lag.toNat).getD 1 ≤ h.step.toNat + 1)
      | none => false
    let s := if late then s.abandonCkpt n 1 else s
    let s := (s.entriesOf n).foldl (fun (s : State) e =>
      let s := if takesUpdate e.2 then s.modEntry e.1 fun x => { x with queued := x.queued ++ [h.step] } else s
      -- R233: a MIRROR fill in progress starts again at the new target version
      if e.2.st = .filling && e.2.fillSource = 3 && !e.2.role && e.2.fill.started then
        s.modEntry e.1 fun x => { x with
          fillDone := 0, fillNext := 0
          fill := { x.fill with version := x.fill.version + 1, next := 0, out := [], confirmed := [], reading := false } }
      else s) s
    let s := (s.entriesOf n).foldl (fun (s : State) e =>
      if e.2.st = .live && !e.2.role then s.releaseSlot n h.step e.1 e.2 else s) s
    let s := match k with | some t => s.snapshot n h.step t | none => s
    ((((s.stopMoves n).wdRelease n).setDeadline n h).settleQuiesce n).settleQuiet n h.step

/-- The newest attempt's status flags for a step follow what its sums show. -/
def flagRound (s : State) (n k : Nat) (st : Word) (nf range : Bool) : State :=
  let same := ((s.newestAtt n).map fun a => a.step) = some st
  s.modSeg n k fun g => { g with
    nonfinite := g.nonfinite || (same && nf), range := g.range || (same && range)
    rounds := g.rounds.map fun r => if r.step = st then { r with nonfinite := r.nonfinite || nf, range := r.range || range } else r }

/-- A downward block of a released step: kept, forwarded to the children, and rounded once (R69, R99). -/
def roundBlock (s : State) (n : Nat) (t : GroupTree) (k : Nat) (h : AttHdr) (d : Bytes) : State :=
  let g := s.seg n k
  match g.rounds.find? fun r => r.step = h.step, decodeBlock g.elements.toNat d with
  | some r, some b =>
    if (r.blocks.map Prod.fst).contains b.block then { s with clr.dup := satInc s.clr.dup }
    else
      let s := t.children.foldl (fun (s : State) c => s.send
        { dest := .node (ctxFin n) c, op := .msg, kind := 0x10, hdr := some h, args := [k, 1], data := d }) s
      let w := if g.sr then srBytes (s.ctx n).life.digest h.step k b.block else []
      let rf := g.rfmt.toNat
      let out := b.vals.zipIdx.map fun x => roundElem rf g.sr w x.2 (b.nfmask / 2 ^ x.2 % 2 = 1) x.1 r.e0.toInt
      let bytes := out.flatMap fun x => natLe (resultBytes rf) x.1
      let s := s.modSeg n k fun g => { g with rounds := g.rounds.map fun r => if r.step = h.step then
        { r with blocks := Map.set [] r.blocks b.block d, bytes := r.bytes.write (64 * b.block * resultBytes rf) bytes } else r }
      s.flagRound n k h.step (b.nfmask ≠ 0) (out.any Prod.snd)
  | _, _ => s

/-- Every block of every segment of a group is rounded here for a step (R124). -/
def groupRounded (s : State) (n : Nat) (g : BitVec 5) (st : Word) : Bool :=
  (s.groupSegs n g).all fun x => match x.2.rounds.find? fun r => r.step = st with
    | some r => decide (r.blocks.length = blockCount x.2)
    | none => false

/-- A ledger block in error is discarded and counted: CLR-030 (R74). -/
def blockError (s : State) (n : Nat) (h : AttHdr) : State :=
  { s with clr.blockErr := satInc s.clr.blockErr }.record 6 30 (evSource 5 n) 0 (h.step.setWidth 32) (h.attempt.setWidth 32)

/-- The tree that a block of a segment belongs to, among those in which its sender stands as `p` says; a segment with no
elements is in no group, and each block of it is in error (R74). -/
def treeWith (s : State) (n k : Nat) (p : GroupTree → Bool) : Option GroupTree :=
  let g := s.seg n k
  (s.trees n).find? fun t => (g.elements = 0 || t.defn.group.setWidth 5 = g.group) && p t

/-- A downward block of a released attempt is rounded; one in error is asked for again from its sender, the parent, by the
chunk that its own BLOCK field names (R74; for a BLOCK out of range that is the model's choice, log entry 92). -/
def downBlock (s : State) (n : Nat) (t : GroupTree) (k : Nat) (h : AttHdr) (src : BitVec 16) (d : Bytes) : State :=
  match decodeBlock (s.seg n k).elements.toNat d with
  | none => (s.blockError n h).note (ctxFin n) src 0x15 (some h) [k, Bytes.le d 4 4 / 16384]
  | some _ => s.roundBlock n t k h d

/-- Downward blocks held for the RELEASE of an attempt are processed (R99). -/
def drainHeld (s : State) (n : Nat) (h : AttHdr) : State :=
  let mine := (s.ctx n).clr.held.filter fun x => !x.up && x.hdr = h
  let s := s.modCtx n fun c => { c with clr.held := c.clr.held.filter fun x => x.up || x.hdr ≠ h }
  mine.foldl (fun (s : State) x =>
    match s.treeWith n x.seg.toNat fun t => t.parent = some x.child with
    | some t => s.downBlock n t x.seg.toNat h x.child x.data
    | none => s) s

/-- What a RELEASE carries as message words: group, checkpoint tag, MAXEXP of every segment. -/
def relArgs (g : Nat) (ms : List (BitVec 12 × BitVec 16)) (k : Option CkptTag) : List Nat :=
  [g] ++ (match k with | some t => [1, t.seq.toNat, bit t.base, t.key.toNat] | none => [0, 0, 0, 0]) ++
    ms.flatMap fun x => [x.1.toNat, x.2.toNat]

/-- RELEASE goes down a group's tree, and at its root the downward blocks of the kept sum follow it (R94, R99). -/
def releaseTree (s : State) (n : Nat) (t : GroupTree) (h : AttHdr) (ms : List (BitVec 12 × BitVec 16))
    (k : Option CkptTag) : State :=
  let s := s.notes (ctxFin n) t.children 0x11 (some h) (relArgs t.defn.group.toNat ms k)
  if !t.isRoot then s
  else
    (s.groupSegs n (t.defn.group.setWidth 5)).foldl (fun (s : State) x =>
      let s := (List.range (blockCount x.2)).foldl (fun (s : State) b =>
        s.roundBlock n t x.1 h (upBlock x.2 b)) s
      s.modSeg n x.1 fun g => { g with sums := [], sramChunks := [], hbmChunks := [] }) s

/-- RELEASE goes once down each of the given trees. -/
def releaseTrees (s : State) (n : Nat) (ts : List GroupTree) (h : AttHdr) (ms : List (BitVec 12 × BitVec 16))
    (k : Option CkptTag) : State :=
  ts.foldl (fun (s : State) t =>
    let g := t.defn.group.setWidth 5
    if (s.ctx n).clr.relGroups.contains g then s
    else (s.modCtx n fun c => { c with clr.relGroups := c.clr.relGroups ++ [g] }).releaseTree n t h ms k) s

/-- A RELEASE acts on this node (R39, R99): RELEASED once, then down the group's tree and down each tree rooted here. -/
def takeRelease (s : State) (n : Nat) (h : AttHdr) (g : Option (BitVec 5)) (ms : List (BitVec 12 × BitVec 16))
    (k : Option CkptTag) : State :=
  let s := s.enterReleased n h ms k
  if (s.ctx n).step.released ≠ h.step then s
  else
    (s.releaseTrees n ((s.trees n).filter fun t => t.isRoot || some (t.defn.group.setWidth 5) = g) h ms k).drainHeld n h

/-- The step root releases (R41, R42, R98, R99, R199). -/
def release (s : State) (n : Nat) (a : Attempt) : State :=
  let segs := (s.ctx n).clr.reports.flatMap fun r => r.2.2
  let ms := segs.map fun r => (r.seg, r.maxexp)
  let (s, k) := s.decideCkpt n a.step a.latched.ckptMode
  let s := s.enterReleased n a.hdr ms k
  let c := s.ctx n
  let s := c.clr.groups.foldl (fun (s : State) t =>
    if t.root = c.life.self then s
    else s.note (ctxFin n) t.root 0x11 (some a.hdr) (relArgs t.defn.group.toNat ms k)) s
  let s := s.notes (ctxFin n) (c.clr.idle.filter fun x => x ≠ c.life.self) 0x11 (some a.hdr) (relArgs 31 ms k)
  (s.releaseTrees n (c.clr.groups.filter fun t => t.isRoot) a.hdr ms k).drainHeld n a.hdr

/-- The step root's decision (R98): void on overflow, wait for lag clearance, or release. -/
def decideRelease (s : State) (n : Nat) : State :=
  let c := s.ctx n
  match s.openAtt n with
  | none => s
  | some a =>
    if !c.life.stepRoot || c.clr.groups = [] ||
        !(c.clr.groups.all fun g => c.clr.reports.any fun r => r.1 = g.defn.group.setWidth 5) then s
    else
      let segs := c.clr.reports.flatMap fun r => r.2.2
      let bad := segs.filter fun r => r.ovf
      if bad ≠ [] then s.voidAttempt n a 2 c.life.self c.life.self bad
      else if s.lagReady n a then s.release n a
      else if (match c.step.divergent with | some d => decide (d.toNat + a.lag.toNat ≤ a.step.toNat) | none => false) then
        s.voidSelf n a 5
      else s.modCtx n fun c => { c with step.lagWait := true }

/-- VOTED, and at the step root the release that waited for it. -/
def settle (s : State) (n : Nat) (st : Word) : State := (s.settleQuiet n st).decideRelease n

/-- Every step this node still has in UPDATED is looked at, oldest first. -/
def settleAll (s : State) (n : Nat) : State :=
  let t := (s.ctx n).step
  (t.updating ++ t.voting).foldl (fun (s : State) k => s.settle n k) s

/-! ## Upward flow (R92, R94, R97) -/

/-- A group root holds its full sum: every block of every segment is in and every pair agrees (R92, R249). -/
def holdsSum (s : State) (n : Nat) (t : GroupTree) : Bool :=
  (s.groupSegs n (t.defn.group.setWidth 5)).all (fun x => (List.range (blockCount x.2)).all (s.blockIn n t x.2)) &&
    s.pairsAgree n (t.defn.group.setWidth 5)

/-- What a group root reports of its segments (R97). -/
def segReports (s : State) (n : Nat) (g : BitVec 5) : List SegReport :=
  (s.groupSegs n g).map fun x =>
    { seg := BitVec.ofNat 12 x.1, maxexp := x.2.maxexp, ovf := x.2.winOvf, nonfinite := x.2.nonfinite }

/-- A report at the step root (R97); a group's repeated report is not taken again. -/
def takeReport (s : State) (n : Nat) (g : BitVec 5) (t : Stamp) (segs : List SegReport) : State :=
  if (s.ctx n).clr.reports.any fun r => r.1 = g then s
  else (s.modCtx n fun c => { c with clr.reports := c.clr.reports ++ [(g, t, segs)] }).decideRelease n

/-- Group roots at this node that hold their full sum report (R97). -/
def reportGroups (s : State) (n : Nat) : State :=
  (s.trees n).foldl (fun (s : State) t =>
    let g := t.defn.group.setWidth 5
    match s.openAtt n with
    | none => s
    | some a =>
      let c := s.ctx n
      if !t.isRoot || c.clr.reported.contains g || !s.holdsSum n t then s
      else
        let segs := s.segReports n g
        let s := s.modCtx n fun c => { c with clr.reported := c.clr.reported ++ [g] }
        let s := (s.groupSegs n g).foldl (fun (s : State) x => s.modSeg n x.1 fun y =>
          { y with sent := List.range (blockCount y), sramChunks := [], hbmChunks := [] }) s
        if c.life.stepRoot then s.takeReport n g (s.now.toNat * 4294967296) segs
        else s.note (ctxFin n) c.clr.root 0x14 (some a.hdr) (g.toNat :: segArgs segs)) s

/-- An upward block of the OPEN attempt from a child (R74, R93, R96). -/
def takeUp (s : State) (n k : Nat) (child : BitVec 16) (d : Bytes) (stamp : Stamp) : State :=
  let g := s.seg n k
  match s.openAtt n with
  | none => s
  | some a =>
    match decodeBlock g.elements.toNat d with
    | none => s.blockError n a.hdr
    | some b =>
      if g.blocks.contains (child, b.block) then { s with clr.dup := satInc s.clr.dup }
      else match s.stageChunk n k (b.block / 16384) with
        | none => s
        | some s =>
          let s := s.modSeg n k (addBlock child b)
          let g := s.seg n k
          let c := b.block / 16384
          let s := if (chunkBlocks g c).all (fun x => g.blocks.contains (child, x)) then
              s.noteArrival n (.child (BitVec.ofNat 12 k) c child) stamp else s
          s.reportGroups n

/-! ## OPEN (R36, R37, R103, R178) -/

/-- A local entry of the node is FILLING: its Yobel gets no step tag (R237). -/
def nodeFilling (s : State) (n : Nat) (node : BitVec 16) : Bool :=
  (s.entriesOf n).any fun e => !e.2.role && e.2.owner = node && e.2.st = .filling

/-- STEP, ATTEMPT and TAG written to the Yobel that holds a node (R37, R178). -/
def writeTag (s : State) (n : Nat) (h : AttHdr) (node : BitVec 16) : State :=
  if s.nodeFilling n node then s
  else match s.portOfNode n node with
    | none => s
    | some k =>
      let b := 0x100 + 0x40 * n
      let s := s.modTstPort k fun t => { t with tagStep := Map.set 0 t.tagStep n h.step }
      let s := s.yobelWr (trayFin k) (b + 0x10) (natLe 8 h.step.toNat)
      let s := s.yobelWr (trayFin k) (b + 0x18) (natLe 8 h.attempt.toNat)
      s.yobelWr (trayFin k) (b + 0x20) (natLe 8 h.tag.toNat)

/-- Contributing nodes of the context on this tray: members, shadows and armed referees. -/
def contributors (s : State) (n : Nat) : List (BitVec 16) :=
  ((s.ctx n).clr.groups.flatMap fun t => s.awaited n t.defn).eraseDups

/-- Upward blocks held for an attempt's record are accumulated; a tag that differs voids (R103). -/
def drainUp (s : State) (n : Nat) (a : Attempt) (hs : List HeldBlock) : State :=
  hs.foldl (fun (s : State) x =>
    match s.openAtt n with
    | none => s
    | some o =>
      if x.hdr.step ≠ o.step || x.hdr.attempt ≠ o.attempt then s
      else if x.hdr.tag ≠ o.tag then s.voidMismatch n a
      else s.takeUp n x.seg.toNat x.child x.data x.stamp) s

/-- An accepted record's attempt goes OPEN (R36 row 9, R37, R39). -/
def openAttempt (s : State) (n : Nat) (a : Attempt) : State :=
  let held := (s.ctx n).clr.held.filter fun h => h.up
  let hv := (s.ctx n).clr.heldVoids
  let hr := (s.ctx n).clr.heldReports
  let now := s.now
  let s := s.modCtx n fun c => { c with
    step := syncStep { c.step with accepted := a :: c.step.accepted, lagWait := false }
    wd := { c.wd with acceptedAt := some now }
    clr := { c.clr with
      segs := Map.mapVals {} c.clr.segs fun _ (x : Seg) => if x.elements = 0 then x else openSeg a.step a.attempt x
      arrived := [], judged := [], reported := [], reports := [], heldVoids := [], heldReports := []
      held := c.clr.held.filter fun h => !h.up
      pairs := c.clr.pairs.map fun p =>
        { p with decided := false, missRun := if p.decided && p.missStep = a.step then p.missRun else 0 } } }
  let s := (s.contributors n).foldl (fun (s : State) m => s.writeTag n a.hdr m) s
  let s := match hv.find? fun v => v.1.step = a.step && v.1.attempt = a.attempt with
    | some v => s.voidAttempt n a v.2.1 v.2.2.1 v.2.2.2.1 v.2.2.2.2
    | none => s
  let s := s.drainUp n a held
  let s := hr.foldl (fun (s : State) r =>
    match s.openAtt n with
    | none => s
    | some o => if r.1.step ≠ o.step || r.1.attempt ≠ o.attempt then s
      else if r.1.tag ≠ o.tag then s.voidMismatch n a
      else s.takeReport n r.2.1 r.2.2.1 r.2.2.2) s
  let bad := (s.ctx n).step.clears.any fun c => c.2.step = a.step && c.2.attempt = a.attempt && c.2.tag ≠ a.tag
  let s := if bad then match s.openAtt n with | some o => s.voidMismatch n o | none => s else s
  let s := s.modCtx n fun c => { c with step.clears := c.step.clears.filter fun x => !attBefore x.2.step x.2.attempt a.step a.attempt }
  ((s.reportGroups n).sendLag n).decideRelease n

/-! ## Deadlines (R95, R96) -/

/-- A time of whole nanoseconds as a stamp. -/
def nsStamp (ns : Nat) : Stamp := ns * 4294967296

/-- DEADLINE of an attempt's record. -/
def deadlineOf (a : Attempt) : Nat := Bytes.le a.latched.bytes 0x10 8

/-- This node's effective deadline in a group (R95). -/
def effective (a : Attempt) (t : GroupTree) : Nat := deadlineOf a + 1000 * t.allow

/-- The inputs of a group that this node awaits (R96, R437). -/
def inputs (s : State) (n : Nat) (t : GroupTree) : List InputKey :=
  (s.groupSegs n (t.defn.group.setWidth 5)).flatMap fun x =>
    (s.awaited n t.defn).map (fun m => InputKey.member (BitVec.ofNat 12 x.1) m) ++
    (List.range (chunkCount x.2)).flatMap fun c => t.children.map fun k => InputKey.child (BitVec.ofNat 12 x.1) c k

/-- Inputs of a group missing, or stamped at or after the effective deadline (R48, R96). -/
def lateInputs (s : State) (n : Nat) (a : Attempt) (t : GroupTree) : List InputKey :=
  (s.inputs n t).filter fun k =>
    !(s.ctx n).clr.arrived.any fun x => x.1 = k && decide (x.2 < nsStamp (effective a t))

/-- The last upward partial of a group has been sent (R39). -/
def allSent (s : State) (n : Nat) (t : GroupTree) : Bool :=
  let g := t.defn.group.setWidth 5
  if t.isRoot then (s.ctx n).clr.reported.contains g
  else (s.groupSegs n g).all fun x => decide (x.2.sent.length = blockCount x.2)

/-- A step root keeps the earliest divergent step and voids an attempt that waits on it (R46). -/
def takeDivergent (s : State) (n : Nat) (st : Word) : State :=
  let s := s.modCtx n fun c => { c with step.divergent :=
    match c.step.divergent with | some d => some (if st.toNat < d.toNat then st else d) | none => some st }
  let s := match s.openAtt n with
    | some a => if (s.ctx n).step.lagWait && decide (st.toNat + a.lag.toNat ≤ a.step.toNat) then s.voidSelf n a 5 else s
    | none => s
  if (s.ctx n).esc.curSeq ≠ 0 && decide (st.toNat ≤ (s.ctx n).esc.ckptStep.toNat) then s.abandonCkpt n 3 else s

/-- One of this node's shards found no majority at step S: STP-020, and S is never VOTED here (R39). -/
def shardDivergent (s : State) (n : Nat) (st : Word) : State :=
  let a := ((s.committedAtt n st).map fun x => x.attempt.setWidth 32).getD (0 : BitVec 32)
  (s.modCtx n fun c => { c with step.stuck := putOnce c.step.stuck st }).record 5 20 (evSource 5 n) 0 (st.setWidth 32) a

/-- A shard with its local entry here found no majority at step S: the step root learns of it (R39, R46). -/
def reportDivergent (s : State) (n e : Nat) (st : Word) : State :=
  let s := s.shardDivergent n st
  if (s.ctx n).life.stepRoot then s.takeDivergent n st
  else s.note (ctxFin n) (s.ctx n).clr.root 0x17 none [e, st.toNat]

/-- A RESET_NOTE at the step root (R378): the first for a node and an epoch voids what is not released. -/
def takeResetNote (s : State) (n : Nat) (node : BitVec 16) (ep : BitVec 32) : State :=
  if (s.ctx n).step.resetNotes.contains (node, ep) then s
  else
    let s := s.modCtx n fun c => { c with step.resetNotes := c.step.resetNotes ++ [(node, ep)] }
    match s.openAtt n with
    | some a => s.voidAttempt n a 7 node (s.ctx n).life.self []
    | none => s

/-- A void request at the step root (R38, R56): it has no effect on a released attempt. -/
def takeVoidRequest (s : State) (n : Nat) (st : Word) (att origin : BitVec 16) : State :=
  match s.openAtt n with
  | some a => if a.step = st && a.attempt = att then s.voidAttempt n a 3 origin (s.ctx n).life.self [] else s
  | none => s

/-- A request to void the OPEN attempt goes to the step root (R38).  The node where such a void begins, VOID_ORIGIN (R55), is the
node that received CMD = VOID: the model's choice, log entry 91. -/
def requestVoid (s : State) (n : Nat) (a : Attempt) : State :=
  let c := s.ctx n
  if c.life.stepRoot then s.takeVoidRequest n a.step a.attempt c.life.self
  else s.note (ctxFin n) c.clr.root 0x12 (some a.hdr) [3, c.life.self.toNat]

end State

end Sys2Proof.Machine
end

