-- ==== Sys2Proof/Machine/Vote.lean ====
section
/-!
DEFINITION. Sys2Proof/Machine/Vote.lean: page versions and digests, the three-way vote, repairs, lost copies and divergence
(05 R121–R134), with the messages to the partner and to Yobel that they use (07 R182, R186).
-/

namespace Sys2Proof.Machine

/-- The digest of page i at version v (R122). -/
def pageDigest (shard : Word) (i : Nat) (v : BitVec 32) (d : Bytes) : Digest :=
  hash256 ([0x41, 0x5A, 0x50, 0x47] ++ natLe 8 shard.toNat ++ natLe 4 i ++ natLe 4 v.toNat ++ d)

/-- The digest of a page of an entry's copy at the copy's version. -/
def entryDigest (e : Entry) (p : Nat) : Digest := pageDigest e.shardId p e.version (State.pageBytes e p)

/-- The step that produced version v, and the version that a step produced (R121, R124). -/
def stepAt (e : Entry) (v : BitVec 32) : Word := e.committed + (v - e.version).signExtend 64
def versionAt (e : Entry) (st : Word) : BitVec 32 := e.version + (st - e.committed).setWidth 32

/-- The later of two versions, counted modulo 2³². -/
def laterVersion (a b : BitVec 32) : BitVec 32 := if (b - a).toNat < 2147483648 then b else a

/-- The copies in the vote (R130): the accelerator's unless it is fenced or being filled, the mirrors unless lost; a vote
that closes a fill, a SEAL or a REMIRROR takes in the copies that it completes. After a MIRROR fill the accelerator's votes from
the next version on (R237). -/
def yIn (e : Entry) (v : BitVec 32) : Bool :=
  match e.st with
  | .live => e.closing ≠ .none || e.rejoin.all fun f => laterVersion f v ≠ f
  | .filling => e.closing ≠ .none
  | _ => false
def lIn (e : Entry) : Bool := !e.degradedL || e.rebuildL
def pIn (e : Entry) : Bool := !e.degradedP || e.rebuildP

/-- The table of R126, and R130 for two copies; none while a digest is awaited or one copy alone is left. -/
def judgeVote (e : Entry) (v : Vote) : Option VoteOutcome :=
  match yIn e v.version, lIn e, pIn e with
  | true, true, true =>
    match v.y, v.l, v.p with
    | some y, some l, some p =>
      some (if l = p then (if y = l then .agreed else .accelOdd) else if y = p then .localOdd else if y = l then .partnerOdd
        else .noMajority)
    | _, _, _ => none
  | true, true, false => pair v.y v.l
  | true, false, true => pair v.y v.p
  | false, true, true => pair v.l v.p
  | _, _, _ => none
where
  pair (a b : Option Digest) : Option VoteOutcome :=
    match a, b with
    | some x, some y => some (if x = y then .agreed else .noMajority)
    | _, _ => none

/-- The voted digest of a committed page (R126). -/
def votedDigest (e : Entry) (v : Vote) (o : VoteOutcome) : Digest :=
  ((match o with
    | .localOdd => v.y
    | _ => if lIn e then v.l else if yIn e v.version then v.y else v.p)).getD 0

/-- An outcome as MIR_LAST_VOTE codes it (R139). -/
def outcomeNum : VoteOutcome → Nat
  | .agreed => 0
  | .accelOdd => 1
  | .localOdd => 2
  | .partnerOdd => 3
  | .noMajority => 4

namespace State

/-! ## Messages to the partner and to Yobel -/

/-- The number of an ENTRY_SYNC kind. -/
def syncNum : EntrySyncKind → Nat
  | .create => 0
  | .update => 1
  | .retire => 2
  | .drop => 3
  | .seal => 4
  | .fetch => 5
  | .digest => 6
  | .reply => 7
  | .held => 8
  | .line => 9

/-- STATE of an entry as R114 codes it. -/
def stateNum : EntryState → Nat
  | .free => 0
  | .defined => 1
  | .filling => 2
  | .live => 3
  | .fenced => 4
  | .divergent => 5
  | .retiring => 6

/-- DIGEST of the slot that holds an entry's image; of the image itself where no slot does (R161, R164). -/
def imageDigest (s : State) (n : Nat) (e : Entry) : Digest :=
  match (s.ctx n).prog.slots.find? fun x => x.2.st = .installed && x.2.programId = e.program with
  | some (_, p) => p.digest
  | none => hash256 e.image

/-- An ENTRY_SYNC to the Azard that holds the shard's other entry (R117, R118). -/
def sync (s : State) (n i : Nat) (k : EntrySyncKind) (page : Nat := 0) (data : Bytes := [])
    (src : List Nat := []) : State :=
  let e := s.entry i
  s.note (ctxFin n) e.peer 0x20 none
    ([syncNum k, i, e.claim.toNat, stateNum e.st, page, e.shardId.toNat, e.length.toNat, e.owner.toNat, e.partner.toNat,
     e.windowBase.toNat, e.program.toNat, e.group.toNat, e.hyper.toNat, e.segFirst.toNat, e.segCount.toNat, e.stream.toNat,
     s.kin.img.powerDomain.toNat, e.fillSource.toNat, (imageDigest s n e).toNat, bit e.degradedL] ++ src)
    data

/-- A page sent over VC1 under the entry's claim (R120, R127, R137, R232). -/
def purposeNum : PagePurpose → Nat
  | .fill => 0
  | .repair => 1
  | .window => 2
  | .remirror => 3
  | .held => 4
  | .line => 5

def partnerPage (s : State) (n i : Nat) (why : PagePurpose) (p : Nat) (v : BitVec 32) (d : Digest) (off : Nat) (data : Bytes) :
    State :=
  let e := s.entry i
  s.note (ctxFin n) e.peer 0x22 none [purposeNum why, e.shardId.toNat, e.claim.toNat, p, v.toNat, d.toNat, off] data

/-- A page digest sent by the partner (R125); `install` marks the answer to a repair. -/
def partnerDigest (s : State) (n i p : Nat) (v : BitVec 32) (d : Digest) (install : Bool) : State :=
  let e := s.entry i
  let s := if install then s else s.modEntry i fun x => { x with digestsOut := x.digestsOut ++ [(p, v, d)] }
  s.note (ctxFin n) e.peer 0x23 none [e.shardId.toNat, p, v.toNat, e.claim.toNat, bit install, d.toNat]

/-- The tray port of an entry's OWNER, and the slot there that the entry occupies (R182). -/
def slotOf (s : State) (n i : Nat) : Option (Nat × Nat) :=
  match s.portOfNode n (s.entry i).owner with
  | none => none
  | some k => ((s.port k).slotsUsed.find? fun x => x.entry.toNat = i).map fun x => (k, x.slot)

/-- Azard's record of a slot changed. -/
def modSlotUse (s : State) (k sl : Nat) (f : SlotUse → SlotUse) : State :=
  s.modPort k fun p => { p with slotsUsed := p.slotsUsed.map fun x => if x.slot = sl then f x else x }

/-- The device at a tray port is fenced in every entry of its node in a context (R224). -/
def deviceFenced (s : State) (n k : Nat) : Bool :=
  let l := (s.port k).slotsUsed.filter fun x => (s.entry x.entry.toNat).ctx.toNat = n
  l ≠ [] && l.all fun x => x.fenced

/-- A slot's first word: STATE, CONTEXT, PROGRAM_ID, GROUP (R182). -/
def slotWord (n : Nat) (e : Entry) (st : Nat) : Word := Word.pack [(0, st), (8, n), (16, e.program.toNat), (32, e.group.toNat)]

/-- STATE of an entry's slot written (R182). -/
def slotState (s : State) (n i st : Nat) : State :=
  match s.slotOf n i with
  | none => s
  | some (k, sl) => (s.modSlotUse k sl fun x => { x with st := st }).yobelWr (trayFin k) (0x10000 + 0x80 * sl)
      (natLe 8 (slotWord n (s.entry i) st).toNat)

/-- CLAIM of an entry's slot written (R182, R221). -/
def slotClaim (s : State) (n i : Nat) : State :=
  match s.slotOf n i with
  | none => s
  | some (k, sl) => (s.modSlotUse k sl fun x => { x with claim := (s.entry i).claim }).yobelWr (trayFin k)
      (0x10000 + 0x80 * sl + 8) (natLe 8 (s.entry i).claim.toNat)

/-- Offset of a shard byte in the state port (R173). -/
def stateAddr (n : Nat) (e : Entry) (off : Nat) : Nat :=
  3 * 17592186044416 + n * 1099511627776 + e.windowBase.toNat * 2097152 + off

/-- The kept INSTALL records of a page version end when Azard asks for another: the next is an answer of its own, not a
repeat (R128, R185; log entry 22). -/
def forgetInstall (s : State) (n : Nat) (shard : Word) (p : Nat) (v : BitVec 32) : State :=
  { s with mir.records := s.mir.records.filter fun (r : Nat × DigestRec) =>
      !(r.1 = n && r.2.install && r.2.shardId = shard && r.2.page.toNat = p && r.2.version = v) }

/-- Every kept record of a shard ends: a fill starts, or the entry is FREE again (log entry 22). -/
def forgetShard (s : State) (n : Nat) (shard : Word) : State :=
  { s with mir.records := s.mir.records.filter fun (r : Nat × DigestRec) => !(r.1 = n && r.2.shardId = shard) }

/-- An install record under the entry's claim (R186). -/
def installRec (s : State) (n i op p : Nat) (v : BitVec 32) (d : Digest) : State :=
  match s.slotOf n i with
  | none => s
  | some (k, sl) =>
    let s := if op = 2 || op = 3 then s.forgetInstall n (s.entry i).shardId p v else s
    s.request { dest := .yobel (trayFin k), op := .wr, addr := 0x1000, args := [(s.entry i).claim.toNat, op, i, p]
                data := natLe 8 (sl + op * 4096) ++ natLe 4 p ++ natLe 4 v.toNat ++ List.replicate 16 0 ++ digestBytes d }

/-- Bytes written through the state port under the entry's claim (R187). -/
def statePortWr (s : State) (n i off : Nat) (data : Bytes) : State :=
  match s.slotOf n i with
  | none => s
  | some (k, _) =>
    s.request { dest := .yobel (trayFin k), op := .wr, addr := stateAddr n (s.entry i) off,
                args := [(s.entry i).claim.toNat, 0, i, off / 2097152], data := data }

/-- A page read through the state port (R120, R127, R131). -/
def statePortRd (s : State) (n i p : Nat) : State :=
  match s.slotOf n i with
  | none => s
  | some (k, _) =>
    s.request { dest := .yobel (trayFin k), op := .rd, addr := stateAddr n (s.entry i) (p * 2097152),
                args := [(s.entry i).claim.toNat, 0, i, p] }

/-! ## Writes into a copy -/

/-- The engine that runs an update of an entry's copy. -/
def runOfEntry (s : State) (i : Nat) : Option (Nat × Engine) :=
  s.engines.find? fun x => (x.2.running || x.2.finished) && (match x.2.copy with | .mirror e => decide (e.toNat = i) | _ => false)

/-- The run on an entry's copy is abandoned. -/
def stopRun (s : State) (i : Nat) : State :=
  match s.runOfEntry i with
  | some (h, _) =>
    let now := s.now
    (s.setEngine h {}).modHearth h fun x => { x with idleSince := now }
  | none => s

/-- Bytes land in an entry's copy at shard byte `off` of page p, old content first copied for a checkpoint that holds the
page (R200, R201); none when no escrow page is free (R203). -/
def writeCopy (s : State) (n i p off : Nat) (d : Bytes) : Option State :=
  match s.copyOnWrite n i p with
  | none => none
  | some s =>
    let s := (s.modEntry i fun e => { e with mem := Mem.write e.mem off d }).trackWrite i p
    match s.runOfEntry i with
    | some (h, _) => some (s.modEngine h fun g => { g with state := Mem.write g.state off d, stale := g.stale || g.pages.contains p })
    | none => some s

/-- A repaired page lands in an entry's copy at version v: at the snapshot version it replaces the held content in place,
else as any write (R201). -/
def installCopy (s : State) (n i p : Nat) (v : BitVec 32) (d : Bytes) : Option State :=
  if v = (s.entry i).snapVersion && (s.entry i).heldPages.contains p then
    let s := s.modCtx n fun c => { c with esc.pages := c.esc.pages.map fun x =>
      if x.entry.toNat = i && x.page = p then { x with bytes := Mem.write [] 0 d } else x }
    let s := (s.modEntry i fun e => { e with mem := Mem.write e.mem (p * 2097152) d }).trackWrite i p
    match s.runOfEntry i with
    | some (h, _) => some (s.modEngine h fun g => { g with
        state := Mem.write g.state (p * 2097152) d, stale := g.stale || g.pages.contains p })
    | none => some s
  else s.writeCopy n i p (p * 2097152) d

/-- The version that page p of an entry's copy stands at or is being brought to (R127). -/
def copyVersion (s : State) (i p : Nat) : BitVec 32 :=
  let v := (s.entry i).version
  match s.runOfEntry i with
  | some (_, g) => if g.dirty.contains p then v + 1 else v
  | none => v

/-- A repair of page p is pending here: no update reaches the page (R127, R169). -/
def repairHolds (s : State) (i p : Nat) : Bool := (s.entry i).repairing.any fun r => r.page = p

/-! ## Fills from the mirrors (R231–R236) -/

/-- The digest a fill page must confirm against: the voted digest (R232). -/
def fillDigest (e : Entry) (p : Nat) : Digest := Map.get 0 e.votedPages p

/-- One page of a MIRROR fill is sent: from the local copy, or asked of the partner, who sends it over VC1 (R232). -/
def sendFillPage (s : State) (n i p : Nat) : State :=
  let e := s.entry i
  if e.fill.fromPartner then s.sync n i .fetch p
  else (s.statePortWr n i (p * 2097152) (pageBytes e p)).installRec n i 2 p e.fill.version (fillDigest e p)

/-- The source copy stands at the fill's target version, and the voted digests are of that version (R231–R233). -/
def fillReady (e : Entry) : Bool :=
  versionAt e e.votedStep = e.fill.version &&
    (if e.fill.fromPartner then laterVersion e.seenP e.fill.version = e.seenP else e.version = e.fill.version)

/-- The next page of one entry's fill, in ascending order, at most sixteen outstanding (R232). -/
def fillPage (s : State) (i : Nat) : State :=
  let e := s.entry i
  if e.st ≠ .filling || e.fillSource ≠ 3 || e.role || !e.fill.started || e.fill.reading || e.unrecoverable || !fillReady e ||
      decide (16 ≤ e.fill.out.length) || decide (e.pages.toNat ≤ e.fill.next) then s
  else
    let p := e.fill.next
    let s := s.modEntry i fun e => { e with fill := { e.fill with next := p + 1, out := e.fill.out ++ [(p, 0)] } }
    s.sendFillPage e.ctx.toNat i p

/-- Pages of the fills that run here, interleaved in ascending entry index: one page of each, `k` times over (R232). -/
def fillRounds (s : State) (l : List Nat) : Nat → State
  | 0 => s
  | k + 1 => (l.foldl (fun (s : State) i => s.fillPage i) s).fillRounds l k

/-- What can go out of the fills that run at this Azard does (R232). -/
def fillGo (s : State) : State :=
  let l := (s.mir.entries.filter fun e => e.2.st = .filling && e.2.fill.started).map Prod.fst
  s.fillRounds (sortBy (fun a b => decide (a ≤ b)) l) 16

/-- A fill goes on from the slot's and the entry's first unconfirmed page, once the slot's fill words have been read (R188,
R234); `fromPartner` names the source. -/
def fillAgain (s : State) (n i : Nat) (fromPartner : Bool) : State :=
  let s := s.modEntry i fun e => { e with fill := { e.fill with
    fromPartner := fromPartner, next := e.fillNext.toNat, out := [], reading := (s.slotOf n i).isSome } }
  match s.slotOf n i with
  | none => s.fillGo
  | some (k, sl) => s.request { dest := .yobel (trayFin k), op := .rd, addr := 0x10000 + 0x80 * sl + 0x48, args := [2, i] }

/-- The slot's fill words have come: FILL_CLAIM, FILL_DONE and FILL_NEXT (R182). The start page is the smaller FILL_NEXT where
FILL_CLAIM is the entry's CLAIM; page 0 under another claim, whose map is not this fill's (R234; log entry 95). -/
def fillStart (s : State) (i : Nat) (d : Bytes) : State :=
  let e := s.entry i
  if !e.fill.reading then s
  else
    let next := if BitVec.ofNat 64 (Bytes.le d 0 8) = e.claim then min e.fillNext.toNat (Bytes.le d 12 4) else 0
    (s.modEntry i fun e => { e with fill := { e.fill with next := next, reading := false } }).fillGo

/-- The source of a MIRROR fill after a copy is lost: the other copy, or UNRECOVERABLE (R234, R235). -/
def feedSwitch (s : State) (n i : Nat) : State :=
  let e := s.entry i
  if e.st ≠ .filling || e.fillSource ≠ 3 || e.role || e.unrecoverable then s
  else if e.degradedL && e.degradedP then
    let s := (s.modEntry i fun e => { e with unrecoverable := true, fill := { e.fill with out := [] }, result := 0x20 })
    s.record 7 43 (evSource 5 n i) 0 (e.ckptStep.setWidth 32) 0
  else
    let toP := e.degradedL && !e.fill.fromPartner
    let toL := e.degradedP && e.fill.fromPartner
    if !e.fill.started || !(toP || toL) then s
    else (s.record 7 45 (evSource 5 n i) 0 (if toP then 1 else 0) 0).fillAgain n i toP

/-- The slot that a fill writes is back: what was outstanding goes again, from the first unconfirmed page (R234, R242). -/
def resumeFills (s : State) (k : Nat) : State :=
  (s.mir.entries.filter fun e => e.2.st = .filling && e.2.fillSource = 3 && !e.2.role && e.2.fill.started && !e.2.unrecoverable &&
      (s.slotOf e.2.ctx.toNat e.1).any (fun x => x.1 = k)).foldl (fun (s : State) e =>
    s.fillAgain e.2.ctx.toNat e.1 e.2.fill.fromPartner) s

/-- A hearth reset in a region: outstanding pages of the fills that it feeds go again (R242). -/
def resendFills (s : State) (q : Nat) : State :=
  (s.mir.entries.filter fun e => e.2.st = .filling && e.2.fillSource = 3 && !e.2.role && !e.2.fill.fromPartner && !e.2.unrecoverable &&
      e.2.alloc.any (fun x => regionOf x.1 = q)).foldl (fun (s : State) e =>
    e.2.fill.out.foldl (fun (s : State) x => s.sendFillPage e.2.ctx.toNat e.1 x.1) s) s

/-! ## Outcomes -/

/-- MIR_LAST_VOTE and MIR_LAST_STEP (R126, R139). -/
def lastVote (s : State) (n i p code : Nat) (st : Word) : State :=
  { s with
    mir.lastEntry := BitVec.ofNat 16 i
    mir.lastPage := BitVec.ofNat 19 p
    mir.lastOutcome := BitVec.ofNat 3 code
    mir.lastCtx := BitVec.ofNat 4 n
    mir.lastStep := st }

/-- MIR-010, MIR-011, MIR-012 (R126, R436). -/
def oddEvent (s : State) (n i num code p : Nat) (v : BitVec 32) : State :=
  s.record 7 num (evSource 5 n i) (BitVec.ofNat 32 code) (BitVec.ofNat 32 p) v

/-- A request of an entry in progress ends with a result (R116). -/
def finishReq (s : State) (i res : Nat) : State :=
  if (s.entry i).result = 1 then
    -- fills, REMIRROR and SEAL are due 1 s after their acceptance (R279)
    let s := if (s.entry i).req.toNat ∈ [2, 3, 4] then s.countLate ((s.entry i).reqAt + BitVec.ofNat 64 second) else s
    s.modEntry i fun e => { e with result := BitVec.ofNat 8 res }
  else s

/-- The repair can go on: its copies stand at the repair's version and Yobel, where it takes part, holds the page (R127). -/
def pumpRepair (s : State) (n i : Nat) (r : Repair) : State :=
  let e := s.entry i
  let set (s : State) (f : Repair → Repair) : State := s.modEntry i fun e => { e with
    repairing := e.repairing.map fun x => if x.page = r.page && x.target = r.target then f x else x }
  if r.sent || s.copyVersion i r.page ≠ r.version || e.version ≠ r.version then s
  else
    let d := entryDigest e r.page
    match r.target with
    | .accel =>
      if !r.held then s
      else
        let s := set s fun x => { x with sent := true, digest := some d }
        (s.statePortWr n i (r.page * 2097152) (pageBytes e r.page)).installRec n i 3 r.page r.version d
    | .locl =>
      if !r.held || r.digest.isNone then s
      else (set s fun x => { x with sent := true }).statePortRd n i r.page
    | .partner =>
      -- the partner learns of the repair by the outcome, which goes first (R126, R127)
      if e.votes.any fun x => x.page = r.page && x.outcome = some .partnerOdd then s
      else (set s fun x => { x with sent := true, digest := some d }).partnerPage n i .repair r.page r.version d
        (r.page * 2097152) (pageBytes e r.page)

/-- Every repair of an entry that can go on does. -/
def pumpRepairs (s : State) (n i : Nat) : State :=
  (s.entry i).repairing.foldl (fun (s : State) r => s.pumpRepair n i r) s

/-- The accelerator's digest of a page at a version, as far as it has come. -/
def yDigestAt (e : Entry) (p : Nat) (v : BitVec 32) : Option Digest :=
  (e.votes.find? fun x => x.page = p && x.version = v).bind fun x => x.y

/-- The target copy of a pending repair shows by its digest that it stands at a later version of the page: v′ rises to it, and
what went out for the earlier one ends (R127; log entry 94). -/
def raiseRepair (s : State) (n i p : Nat) (v : BitVec 32) (who : Target) : State :=
  match (s.entry i).repairing.find? fun r => r.page = p && (if r.target = .partner then who = .partner else who = .accel) with
  | none => s
  | some r =>
    if laterVersion r.version v = r.version || (r.target ≠ .partner && r.held) then s
    else
      let e := s.entry i
      let d := if r.target = .locl then yDigestAt e p v else none
      let s := s.modEntry i fun e => { e with repairing := e.repairing.map fun x =>
        if x.page = p && x.target = r.target then { x with version := v, sent := false, digest := d } else x }
      if r.target = .partner then s
      else
        let s := { s with ctl.out := s.ctl.out.filter fun o =>
          !((match o.msg.dest with | .yobel _ => true | _ => false) && o.msg.addr = 0x1000 &&
            o.msg.args = [e.claim.toNat, 1, i, p]) }
        s.installRec n i 1 p v 0

/-- A repair begins: v′ is the later of the two copies' versions of the page (R127). -/
def startRepair (s : State) (n i : Nat) (v : Vote) (t : Target) : State :=
  let e := s.entry i
  if e.repairing.any fun r => r.page = v.page && r.target = t then s
  else
    let other := match t with | .partner => e.seenP | _ => e.seenY
    let v' := laterVersion (s.copyVersion i v.page) other
    let r : Repair := { page := v.page, target := t, version := v', tries := 0, held := false, sent := false
                        digest := if t = .locl then yDigestAt e v.page v' else none }
    let s := s.modEntry i fun e => { e with repairing := e.repairing ++ [r] }
    match t with
    | .partner => s.pumpRepair n i r
    | _ => s.installRec n i 1 v.page v' 0

/-- The holds on an entry's pages at Yobel end: RELEASE for every repair that has one (R187). -/
def releaseHolds (s : State) (n i : Nat) : State :=
  ((s.entry i).repairing.filter fun r => r.target ≠ .partner).foldl (fun (s : State) r => s.installRec n i 4 r.page r.version 0) s

/-- A shard without a majority goes DIVERGENT (R132): its repairs and updates stop, the step root learns of the step.  A fill,
SEAL or REMIRROR in progress ends with NO_MAJORITY, a MIRROR fill by an ordinary vote too (log entry 94). -/
def goDivergent (s : State) (n i p : Nat) (st : Word) : State :=
  if (s.entry i).st = .divergent then s
  else
    let closes := (s.entry i).st = .filling || (s.entry i).closing ≠ .none
    -- the accelerator's holds end with its repairs (R140, R187)
    let s := s.releaseHolds n i
    let s := s.modEntry i fun e => { e with st := .divergent, repairing := [], queued := [], votes := [], closing := .none,
                                            fill := {}, waitEscrow := none }
    let s := { s with mir.divergent := satInc s.mir.divergent }.record 7 30 (evSource 5 n i) 0 (BitVec.ofNat 32 p) 0
    let s := s.stopRun i
    let s := if closes then s.modEntry i fun e => { e with result := 0x21 } else s
    let s := if (s.entry i).degradedP then s else s.sync n i .update st.toNat
    s.updWaiting.reportDivergent n i st

/-- TAINT_FROM after an odd accelerator page (R133). -/
def taint (s : State) (i p : Nat) : State :=
  s.modEntry i fun e =>
    let t := Map.get 0 e.agreedAt p + 1
    if e.taintFrom = 0 || decide (t.toNat < e.taintFrom.toNat) then { e with taintFrom := t } else e

/-- What the outcome of one page's vote does (R126, R132, R133). -/
def applyOutcome (s : State) (n i : Nat) (v : Vote) (o : VoteOutcome) : State :=
  let e := s.entry i
  let three := yIn e v.version && lIn e && pIn e
  match o with
  | .agreed =>
    if three then
      { s with mir.agreed := satInc s.mir.agreed }.modEntry i fun e => { e with agreedAt := Map.set 0 e.agreedAt v.page v.step }
    else s
  | .accelOdd =>
    let s := match s.portOfNode n e.owner with
      | some k => s.countOddAccel k v.step
      | none => s
    let s := { s with mir.oddAccel := satInc s.mir.oddAccel }.oddEvent n i 10 1 v.page v.version
    ((s.lastVote n i v.page 1 v.step).taint i v.page).startRepair n i v .accel
  | .localOdd =>
    (((s.countOddSelf v.step).oddEvent n i 11 2 v.page v.version).lastVote n i v.page 2 v.step).startRepair n i v .locl
  | .partnerOdd => ((s.oddEvent n i 12 3 v.page v.version).lastVote n i v.page 3 v.step).startRepair n i v .partner
  | .noMajority => (s.lastVote n i v.page 4 v.step).goDivergent n i v.page v.step

/-- The outcome of a shard's votes at one version goes to the partner (R125). -/
def sendOutcome (s : State) (n i : Nat) (v : BitVec 32) (st : Word) (vs : List Vote) : State :=
  let e := s.entry i
  if !pIn e then s
  else s.note (ctxFin n) e.peer 0x24 none
    ([e.shardId.toNat, v.toNat, st.toNat, e.claim.toNat] ++
      vs.flatMap fun x => [x.page, outcomeNum (x.outcome.getD .agreed), x.digest.toNat])

/-- A RESTORE fill is complete: the entry's checkpoint fields name the restored checkpoint, the local entry owns the drain,
write tracking starts empty (R216). -/
def restored (s : State) (n i : Nat) (src : List (Nat × BitVec 32 × BitVec 8)) : State :=
  let c := (s.ctx n).esc
  s.modEntry i fun e => { e with
    ckptStep := c.rstStep, ckptSeq := c.rstSeq, ckptRoot := e.digestRoot, drainOwner := !e.role, written := []
    writtenNew := [], src := src.foldl (fun m x => Map.put m x.1 x.2) [] }

/-- The closing vote of a fill, a SEAL or a REMIRROR has a majority on every page (R117, R131, R138). -/
def closeDone (s : State) (n i : Nat) : State :=
  let e := s.entry i
  match e.closing with
  | .none => s
  | .remirror =>
    let s := s.modEntry i fun e => { e with closing := .none, degradedL := e.degradedL && !e.rebuildL,
                                            degradedP := e.degradedP && !e.rebuildP, rebuildL := false, rebuildP := false }
    (s.finishReq i 2).sync n i .update
  | _ =>
    let s := s.modEntry i fun e => { e with closing := .none, editOpen := false, unrecoverable := false, fill := {} }
    let s := if e.st = .filling then
        (s.modEntry i fun e => { e with st := .live }).slotState n i 3
      else s
    let back := e.st = .filling && e.fillSource = 2
    let s := if back then s.restored n i (e.fill.pages.zipIdx.map fun x => (x.2, x.1.2)) else s
    let s := s.finishReq i 2
    if (s.entry i).degradedP then s
    else s.sync n i .update 0 []
      (if back then e.fill.pages.flatMap fun x => [x.2.1.toNat, x.2.2.toNat] else [])

/-- Every page of a shard has been voted at a version: DIGEST_ROOT, VOTED_STEP, the outcome to the partner, what the vote
closes, and the step's VOTED phase (R125, R126). -/
def finishVersion (s : State) (n i : Nat) (v : BitVec 32) : State :=
  let e := s.entry i
  let vs := sortBy (fun (a b : Vote) => decide (a.page ≤ b.page)) (e.votes.filter fun x => x.version = v)
  if !((List.range e.pages.toNat).all fun p => vs.any fun x => x.page = p && x.outcome.isSome && x.outcome ≠ some .noMajority)
      then s
  else
    let st := stepAt e v
    let root := merkle (vs.map fun x => x.digest)
    let s := match s.committedAtt n st with | some a => s.countLate a.deadline | none => s
    let s := s.modEntry i fun e => { e with
      votes := e.votes.filter fun x => x.version ≠ v
      digestRoot := root
      rootsAt := (e.rootsAt.filter fun r => r.1 ≠ st) ++ [(st, root)]
      votedPages := vs.foldl (fun m x => Map.set 0 m x.page x.digest) []
      -- a vote that closes a fill sets VOTED_STEP, also below what it was (R117)
      votedStep := if e.votedStep.toNat < st.toNat || e.st = .filling && e.closing ≠ .none then st else e.votedStep
      rejoin := if e.rejoin.any fun f => laterVersion f v ≠ f then none else e.rejoin
      snapRoot := if v = e.snapVersion then root else e.snapRoot }
    ((((s.sendOutcome n i v st vs).pumpRepairs n i).closeDone n i).settle n st).fillGo

/-- The vote of one page at one version is taken if it can be (R125, R126). -/
def tryVote (s : State) (n i p : Nat) (v : BitVec 32) : State :=
  let e := s.entry i
  match e.votes.find? fun x => x.page = p && x.version = v && x.outcome.isNone with
  | none => s
  | some x =>
    match judgeVote e x with
    | none => s
    | some o =>
      let d := votedDigest e x o
      let s := s.modEntry i fun e => { e with votes := e.votes.map fun y =>
        if y.page = p && y.version = v then { y with outcome := some o, digest := d } else y }
      let s := if o ≠ .noMajority && v = e.snapVersion then
          s.modEntry i fun e => { e with snapVoted := Map.put e.snapVoted p d }
        else s
      (s.applyOutcome n i x o).finishVersion n i v

/-- Votes that wait are judged again when a copy has left the vote (R130). -/
def rejudge (s : State) (n i : Nat) : State :=
  (s.entry i).votes.foldl (fun (s : State) x => s.tryVote n i x.page x.version) s

/-- A copy's digest of a page enters its vote; the first that comes counts (R125, R185). -/
def enterDigest (s : State) (n i p : Nat) (v : BitVec 32) (who : Target) (d : Digest) : State :=
  let e := s.entry i
  if decide (e.pages.toNat ≤ p) then s
  else
    let put (x : Vote) : Vote := match who with
      | .accel => { x with y := x.y.or (some d) }
      | .locl => { x with l := x.l.or (some d) }
      | .partner => { x with p := x.p.or (some d) }
    let fresh : Vote := { page := p, version := v, step := stepAt e v, y := none, l := none, p := none, outcome := none
                          digest := 0 }
    let votes := if e.votes.any fun x => x.page = p && x.version = v then
        e.votes.map fun x => if x.page = p && x.version = v then put x else x
      else e.votes ++ [put fresh]
    let s := s.modEntry i fun e => { e with
      votes := votes
      seenY := if who = .accel then laterVersion e.seenY v else e.seenY
      seenP := if who = .partner then laterVersion e.seenP v else e.seenP
      -- a repair of the local copy waits for the source's digest at its version (R127)
      repairing := e.repairing.map fun r =>
        if who = .accel && r.target = .locl && r.page = p && r.version = v then { r with digest := r.digest.or (some d) } else r }
    ((s.raiseRepair n i p v who).tryVote n i p v).pumpRepairs n i

/-! ## Lost copies (R128, R130, R234, R235) -/

/-- Lines of a copy that scrub has asked for and that cannot come hold free values (R388; log entry 3). -/
def dropLines (s : State) (i : Nat) : State :=
  let l := (s.entry i).scrubLines
  let s := l.foldl (fun (s : State) x =>
    let (s, v) := s.openValue 512
    s.modEntry i fun e => { e with mem := Mem.write e.mem (x.1 * 2097152 + 64 * x.2) (natLe 64 v.toNat) }) s
  s.modEntry i fun e => { e with scrubLines := [] }

/-- A refetched line has come from the accelerator (R388); it lands unless the copy has moved on. -/
def landLine (s : State) (i p l : Nat) (d : Bytes) : State :=
  if !(s.entry i).scrubLines.contains (p, l) then s
  else s.modEntry i fun e => { e with
    mem := Mem.write e.mem (p * 2097152 + 64 * l) (d.take 64), scrubLines := e.scrubLines.filter (· ≠ (p, l)) }

/-- The refetched bytes of a page land on the lines that scrub asked for, where they are of the copy's version (R140, R388). -/
def landLines (s : State) (i p : Nat) (v : BitVec 32) (d : Bytes) : State :=
  let e := s.entry i
  if v ≠ e.version then s
  else
    let mine := e.scrubLines.filter fun x => x.1 = p
    let land (m : Mem) : Mem := mine.foldl (fun m x => Mem.write m (p * 2097152 + 64 * x.2) ((d.drop (64 * x.2)).take 64)) m
    s.modEntry i fun e => { e with mem := land e.mem, scrubLines := e.scrubLines.filter fun x => x.1 ≠ p }

/-- The partner copy is lost or dropped: DEGRADED_P; pending votes go on without it (R130, R140). -/
def losePartner (s : State) (n i : Nat) : State :=
  let s := s.dropLines i
  let s := s.modEntry i fun e => { e with degradedP := true, rebuildP := false,
                                          repairing := e.repairing.filter fun r => r.target ≠ .partner }
  ((s.heldGone n i).rejudge n i).feedSwitch n i

/-- The pages of a lost copy: given up to be wiped, or RETIRED where both table copies of the entry were damaged (R113, R266). -/
def givePages (s : State) (n : Nat) (bad : Bool) (l : List (Nat × Nat)) : State :=
  if bad then l.foldl (fun (s : State) x => s.modHbm x.1 fun h => { h with retiredPages := h.retiredPages + x.2 }) s
  else s.makeDirty (some (ctxFin n)) .mirror l

/-- The local copy is lost: DEGRADED_L, its pages given up, its update ended; pending votes go on without it (R130). -/
def loseLocal (s : State) (n i : Nat) (bad : Bool := false) : State :=
  let e := s.entry i
  let s := s.givePages n bad e.alloc
  let s := (s.releaseHolds n i).modEntry i fun e => { e with
    degradedL := true, rebuildL := false, alloc := [], queued := [], mem := [], repairing := [], waitEscrow := none, scrubLines := [] }
  -- the partner's page waits no longer for a repair from this copy (R127)
  let s := if e.degradedP then s else s.sync n i .update
  (((s.stopRun i).updWaiting.rejudge n i).feedSwitch n i).settleAll n

/-- A repair has been answered (R127, R128): done, tried again, or given up. -/
def repairAnswer (s : State) (n i : Nat) (r : Repair) (good : Bool) : State :=
  let e := s.entry i
  let others (x : Repair) : Bool := !(x.page = r.page && x.target = r.target)
  if good then
    let s := match s.committedAtt n (stepAt e r.version + 1) with
      | some a => if e.queued.contains a.step then s.countLate a.deadline else s
      | none => s
    let s := s.modEntry i fun e => { e with repairs := satInc e.repairs, repairing := e.repairing.filter others }
    if r.target = .locl then s.installRec n i 4 r.page r.version 0 else s
  else if r.tries + 1 < s.mir.repairTries.toNat then
    let r' := { r with tries := r.tries + 1, sent := false }
    let s := s.modEntry i fun e => { e with repairing := e.repairing.map fun x => if others x then x else r' }
    s.pumpRepair n i r'
  else
    let st := stepAt e r.version
    let s := s.modEntry i fun e => { e with repairing := e.repairing.filter others }
    let s := (s.record 7 31 (evSource 5 n i) 0 (BitVec.ofNat 32 r.page) 0).lastVote n i r.page 5 st
    match r.target with
    | .accel => { s with mir.repairFail := satInc s.mir.repairFail }.installRec n i 4 r.page r.version 0
    | .locl => (s.installRec n i 4 r.page r.version 0).loseLocal n i
    | .partner => (s.sync n i .drop).losePartner n i

end State

end Sys2Proof.Machine
end

