-- ==== Sys2Proof/Machine/Ledger.lean ====
section
/-!
DEFINITION. Sys2Proof/Machine/Ledger.lean: the shard ledger's shared operations: the entry as words (05 R114), access (R109–R112),
requests and their checks (R115–R119), pages, programs and Yobel slots of an entry (R117, R164, R182), claims (09 R220–R224),
fills and their closing votes (R120, R131, R138).
-/

namespace Sys2Proof.Machine

/-! ## The entry as words (R114) -/

/-- The state word at 0x00. -/
def stateWord (e : Entry) : Word :=
  Word.pack [(0, State.stateNum e.st), (3, bit e.degradedL), (4, bit e.degradedP), (5, bit e.unrecoverable), (6, bit e.editOpen),
    (8, e.req.toNat), (12, e.fillField.toNat), (16, e.reqSeq.toNat), (32, e.ctx.toNat), (36, e.result.toNat)]

/-- A digest as four words. -/
def digestWords (d : Digest) : List Word := (List.range 4).map fun i => d.extractLsb' (64 * i) 64

/-- The 32 words of an entry. -/
def entryWords (e : Entry) : List Word :=
  [stateWord e, e.claim, e.shardId, Word.pack [(0, e.length.toNat)],
   Word.pack [(0, e.pages.toNat), (32, e.owner.toNat), (48, e.partner.toNat)],
   Word.pack [(0, e.mirrorBase.toNat), (32, e.windowBase.toNat)], e.committed,
   Word.pack [(0, e.program.toNat), (16, e.group.toNat), (24, bit e.role), (32, e.version.toNat)]] ++
  digestWords e.digestRoot ++
  [Word.pack [(0, e.fillDone.toNat), (32, e.fillNext.toNat)], e.votedStep,
   Word.pack [(0, e.repairs.toNat), (32, e.partnerEntry.toNat)], e.taintFrom, e.hyper,
   Word.pack [(0, e.segFirst.toNat), (16, e.segCount.toNat), (32, e.stream.toNat)], e.ckptStep,
   Word.pack [(0, e.ckptSeq.toNat), (32, bit e.drainOwner)]] ++
  digestWords e.ckptRoot ++ List.replicate 8 0

/-- The bytes of an entry. -/
def entryBytes (e : Entry) : Bytes := (entryWords e).flatMap fun w => natLe 8 w.toNat

/-- A word that holds a runtime-written field, the state word and CLAIM apart (R111, R114). -/
def runtimeWord (w : Nat) : Bool := [2, 3, 4, 5, 7, 16, 17].contains w

/-- The states in which the runtime may write a word of an entry (R114). -/
def mayWrite (e : Entry) (quiesced : Bool) (w : Nat) : Bool :=
  e.st = .free || (quiesced && ((w = 4 && e.degradedP) || w = 7 || w = 16 || w = 17))

/-- A runtime-written word stored; fields not writable in the entry's state keep their values (R111, R114). -/
def writeEntryWord (e : Entry) (w : Nat) (v : Word) : Entry :=
  let all : Bool := e.st = .free
  match w with
  | 2 => { e with shardId := v }
  | 3 => { e with length := v.extractLsb' 0 40 }
  | 4 => { e with owner := if all then v.extractLsb' 32 16 else e.owner, partner := v.extractLsb' 48 16 }
  | 5 => { e with windowBase := v.extractLsb' 32 19 }
  | 7 => { e with program := v.extractLsb' 0 16, group := if all then v.extractLsb' 16 5 else e.group }
  | 16 => { e with hyper := v }
  | 17 => { e with segFirst := if all then v.extractLsb' 0 12 else e.segFirst
                   segCount := if all then v.extractLsb' 16 12 else e.segCount, stream := v.extractLsb' 32 32 }
  | _ => e

/-- Bytes as 64-bit words. -/
def bytesWords (d : Bytes) : List Word := (List.range (d.length / 8)).map fun i => BitVec.ofNat 64 (Bytes.le d (8 * i) 8)

namespace State

/-! ## Access (R109–R112) -/

/-- An access to an entry: whether it stands in the entry cache is open, a free bit (R112, R139; log entry 40). -/
def touchEntry (s : State) : State :=
  let (s, miss) := s.openValue 1
  { s with mir.misses := if miss = 1 then satInc s.mir.misses else s.mir.misses }

/-- A request to the shard ledger by Osfel, judged by R109 and R110; `k` gets the entry and the byte within it. -/
def ledgerAccess (s : State) (rq : Req) (off : Nat) (k : State → Nat → Nat → State) : State :=
  s.osfel rq fun s =>
    let i := off / 256 % 65536
    let c := s.ctx rq.ctx
    if off / 16777216 % 1048576 ≠ 0 then s.nackAddress rq
    else if !s.endpoint rq || c.life.st = .empty || decide (i < c.life.charter.entryFirst) ||
        decide (c.life.charter.entryFirst + c.life.charter.entryCount ≤ i) then s.nackAccess rq
    else k s.touchEntry i (off % 256)

/-- Entries pinned in the entry cache: those with a request running (R112). -/
def pinned (s : State) : Nat := (s.mir.entries.filter fun e => e.2.result = 1).length

/-! ## Programs and slots of an entry (R164, R181, R182) -/

/-- The installed image that PROGRAM names. -/
def progSlot (s : State) (n : Nat) (id : BitVec 16) : Option (Nat × Slot) :=
  (s.ctx n).prog.slots.find? fun x => x.2.st = .installed && x.2.programId = id

/-- An entry takes its image and hyper bytes as they stand in the program store (R164). -/
def takeProgram (s : State) (n i : Nat) : State :=
  match s.progSlot n (s.entry i).program with
  | none => s
  | some (_, p) =>
    let img := p.bytes.read 0 p.length.toNat
    let h := (s.ctx n).prog.hyper.read (s.entry i).hyper.toNat (parseProg p.bytes).hyperMin
    s.modEntry i fun e => { e with image := img, hyperBytes := h }

/-- Offset of area `a` of a context's program copies at Yobel (R181). -/
def progAddr (n a off : Nat) : Nat := 4 * 17592186044416 + n * 1099511627776 + a * 4294967296 + off

/-- The image and hyper bytes of an entry's slot sent to its Yobel: directory entry, image, hyper bytes (R181). -/
def sendProgram (s : State) (n i : Nat) : State :=
  match s.slotOf n i, s.progSlot n (s.entry i).program with
  | some (k, sl), some (ps, p) =>
    let e := s.entry i
    let dir := natLe 4 e.image.length ++ natLe 2 p.programId.toNat ++ List.replicate 26 0 ++ digestBytes p.digest
    let s := s.yobelWr (trayFin k) (progAddr n 2 (64 * ps)) dir
    let s := s.request { dest := .yobel (trayFin k), op := .wrc, addr := progAddr n 0 (0x100000 * ps), data := e.image }
    s.request { dest := .yobel (trayFin k), op := .wrc, addr := progAddr n 1 (0x100000 * sl), data := e.hyperBytes }
  | _, _ => s

/-- Image and hyper bytes as an ENTRY_SYNC carries them. -/
def programData (e : Entry) : Bytes := natLe 4 e.image.length ++ e.image ++ e.hyperBytes

/-- The lowest FREE slot of the Yobel on a port, by Azard's own record (R182). -/
def freeSlot (s : State) (k : Nat) : Option Nat :=
  (List.range ((s.port k).yblId.extractLsb' 16 13).toNat).find? fun x => !(s.port k).slotsUsed.any fun u => u.slot = x

/-- A slot written for an entry, STATE last (R182, R229). -/
def writeSlot (s : State) (n i k sl : Nat) : State :=
  let e := s.entry i
  let b := 0x10000 + 0x80 * sl
  let u : SlotUse := { slot := sl, entry := BitVec.ofNat 16 i, st := 1, claim := e.claim, fenced := false }
  let s := s.modPort k fun p => { p with slotsUsed := p.slotsUsed ++ [u] }
  let s := s.yobelWr (trayFin k) (b + 0x08) (natLe 8 e.claim.toNat)
  let s := s.yobelWr (trayFin k) (b + 0x10) (natLe 8 e.shardId.toNat)
  let s := s.yobelWr (trayFin k) (b + 0x18) (natLe 8 (e.length.toNat + e.windowBase.toNat * 1099511627776))
  let s := s.yobelWr (trayFin k) (b + 0x20) (natLe 8 (e.segFirst.toNat + e.segCount.toNat * 65536 + e.pages.toNat * 4294967296))
  s.yobelWr (trayFin k) b (natLe 8 (slotWord n e 1).toNat)

/-- A slot for an entry at its owner's Yobel, when the owner is bound and a slot is free; none when no slot is free. -/
def takeSlot (s : State) (n i : Nat) : Option State :=
  match s.portOfNode n (s.entry i).owner with
  | none => some s
  | some k =>
    if (s.slotOf n i).isSome then some s
    else match s.freeSlot k with
      | none => none
      | some sl => some (s.writeSlot n i k sl)

/-- An entry's slot goes FREE (R182). -/
def dropSlot (s : State) (n i : Nat) : State :=
  match s.slotOf n i with
  | none => s
  | some (k, sl) =>
    let s := s.slotState n i 0
    s.modPort k fun p => { p with slotsUsed := p.slotsUsed.filter fun x => x.slot ≠ sl }

/-- YBL_CTX_CLAIM of a node's Yobel takes the member claim (R223). -/
def writeMemberClaim (s : State) (n : Nat) (node : BitVec 16) : State :=
  match s.portOfNode n node with
  | none => s
  | some k => s.yobelWr (trayFin k) (0x100 + 0x40 * n + 8) (natLe 8 (s.memberClaim n node).toNat)

/-! ## DEFINE (R117–R119) -/

/-- Two entries' ranges in the mirror window meet (R116). -/
def overlaps (a b : Entry) : Bool :=
  let x := a.windowBase.toNat * 2097152
  let y := b.windowBase.toNat * 2097152
  decide (x < y + b.length.toNat) && decide (y < x + a.length.toNat)

/-- Check SHARD_FORMAT of R116. -/
def shardFormatBad (s : State) (n : Nat) (e : Entry) : Bool :=
  decide (e.length.toNat < 64) || e.length.toNat % 64 ≠ 0 ||
  decide (1099511627776 < e.windowBase.toNat * 2097152 + e.length.toNat) || e.segCount = 0 ||
  !((List.range e.segCount.toNat).all fun k =>
    let x := s.seg n (e.segFirst.toNat + k)
    decide (e.segFirst.toNat + k < 4095) && x.elements ≠ 0 && x.group = e.group)

/-- Check PARTNER_PLACEMENT as far as this Azard can see it (R26, R119): another Azard of the slice, in another rack, at
the same site unless MIR_CFG.CROSS_SITE = 1. The power domains are compared at the partner, which answers with the same RESULT
(log entry 94). -/
def placementBad (s : State) (n : Nat) (p : BitVec 16) : Bool :=
  match (s.ctx n).life.charter.nodes.find? fun x => x.lnode = p && x.role = 0 with
  | none => true
  | some x =>
    p = (s.ctx n).life.self || x.pos.extractLsb' 8 34 = s.fabric.selfPos.extractLsb' 8 34 ||
    (x.pos.extractLsb' 40 2 ≠ s.fabric.selfPos.extractLsb' 40 2 && !s.mir.crossSite)

/-- The partner is a clearing node of the group in the tree derived at activation (R119). -/
def partnerInGroup (s : State) (n : Nat) (g : BitVec 5) (p : BitVec 16) : Bool :=
  (s.ctx n).clr.groups.any fun t => t.defn.group.setWidth 5 = g && t.nodes.contains p

/-- Mirror pages the context's entries ask for at activation (R268). -/
def mirrorDemand (s : State) (n : Nat) : Nat :=
  ((s.entriesOf n).filter fun e => e.2.alloc = [] && e.2.st ≠ .retiring).foldl (fun a e => a + e.2.pages.toNat) 0

/-- The pool can supply `pages` now, or, while the context is CHARTERED, at an activation (R116, R269, R272). -/
def poolHas (s : State) (n pages : Nat) : Bool :=
  if (s.ctx n).life.st = .chartered then
    decide (s.mirrorDemand n + pages + s.openDemand ≤ s.cleanMirror + s.dirtyMirror)
  else decide (pages ≤ s.freeClean)

/-- Pages of an entry (R114). -/
def pagesFor (len : BitVec 40) : Nat := (len.toNat + 2097151) / 2097152

/-- The checks of R119 that this Azard makes; the first that fails gives RESULT. -/
def defineCheck (s : State) (n i : Nat) : Option Nat :=
  let e := s.entry i
  if s.shardFormatBad n e then some 0x13
  else if (s.entriesOf n).any fun x => x.1 ≠ i && !x.2.role && overlaps e x.2 then some 0x14
  else if (s.progSlot n e.program).isNone then some 0x19
  else if s.placementBad n e.partner then some 0x16
  else if (s.ctx n).life.st ≠ .chartered && !s.partnerInGroup n e.group e.partner then some 0x17
  else if !s.poolHas n (pagesFor e.length) then some 0x15
  else none

/-- Pages of a spill peer's area at most (R275). -/
def spillSlots : Nat := 8192

/-- The spill peer that takes a copy of `n` pages: the first named whose area can still have that many slots (log entry 82). -/
def parkPeer (s : State) (n : Nat) : Option Word :=
  s.spillPeers.find? fun w => decide ((s.alc.parkedPages.filter fun x => posEq x.peer w).length + n ≤ spillSlots)

/-- The key of spilled pages, drawn when the first is sent (R275). -/
def spillKeyOf (s : State) : State × Digest :=
  match s.sec.spillKey with
  | some k => (s, k)
  | none =>
    let (s, k) := s.draw 256
    ({ s with sec.spillKey := some k }, k)

/-- One page of a copy written, sealed, into a free slot of a spill peer (R275). -/
def parkPage (s : State) (peer : Word) (i p : Nat) : State :=
  let (s, key) := s.spillKeyOf
  let e := s.entry i
  let mine := s.alc.parkedPages.filter fun x => posEq x.peer peer
  match (List.range spillSlots).find? fun k => !mine.any fun x => x.slot = k with
  | none => s
  | some k =>
    let s := s.request { dest := .spillPeer peer, op := .wr, addr := k * 2097152, args := [i, p]
                         data := Config.gcmSeal key (BitVec.ofNat 96 (i * 4294967296 + p)) [] (pageBytes e p) }
    { s with alc.parkedPages := s.alc.parkedPages ++ [{ peer := peer, slot := k, entry := i, page := p, digest := entryDigest e p }] }

/-- Partner copies of QUIESCED contexts parked at a spill peer when the pool cannot meet a page request, in ascending
entry index, until `need` pages are won (R276). -/
def parkCopies (s : State) (need : Nat) : State :=
  let cand := s.mir.entries.filter fun e => e.2.role && !e.2.parked && e.2.alloc ≠ [] &&
    (s.ctx e.2.ctx.toNat).life.st = .quiesced
  (cand.foldl (fun (x : State × Nat) e =>
    if need ≤ x.2 then x
    else match x.1.parkPeer e.2.pages.toNat with
      | none => x
      | some peer =>
        let s := (List.range e.2.pages.toNat).foldl (fun (s : State) p => s.parkPage peer e.1 p) x.1
        let s := s.makeDirty (some e.2.ctx.toFin) .mirror e.2.alloc
        (s.modEntry e.1 fun y => { y with parked := true, parkedAt := peer, alloc := [], mem := [] }, x.2 + pageCount e.2.alloc)) (s, 0)).1

/-- Pages taken for an entry's copy, with its place in the page table (R117, R266). -/
def allocEntry (s : State) (i : Nat) : State :=
  let n := (s.entry i).pages.toNat
  let (s, l) := s.takePages n
  let base := s.alc.nextBase
  let s := s.modEntry i fun e => { e with alloc := l, mirrorBase := BitVec.ofNat 32 base, mem := [] }
  { s with alc.nextBase := base + n }

/-- Parked copies of a context. -/
def parkedOf (s : State) (n : Nat) : List (Nat × Entry) := (s.entriesOf n).filter fun e => e.2.parked

/-- Pages for parked copies of a context are taken as they are CLEAN, and the copies asked home from their spill peers (R276). -/
def askParked (s : State) (n : Nat) : State :=
  (s.parkedOf n).foldl (fun (s : State) e =>
    if e.2.alloc ≠ [] || s.freeClean < e.2.pages.toNat then s
    else
      let s := (s.allocEntry e.1).modEntry e.1 fun x => { x with parkedLeft := List.range x.pages.toNat }
      (s.alc.parkedPages.filter fun x => x.entry = e.1).foldl (fun (s : State) x => s.request
        { dest := .spillPeer x.peer, op := .rd, addr := x.slot * 2097152, args := [e.1, x.page] }) s) s

/-- DEFINE starts here: checks, Yobel slot, and the partner entry asked for over VC1 (R117, R119, R182). -/
def define (s : State) (n i : Nat) : State :=
  match s.defineCheck n i with
  | some r =>
    let s := if r = 0x15 && (s.ctx n).life.st ≠ .chartered then s.parkCopies (pagesFor (s.entry i).length) else s
    s.modEntry i fun e => { e with result := BitVec.ofNat 8 r }
  | none =>
    let s := s.modEntry i fun e => { e with
      ctx := BitVec.ofNat 4 n, pages := BitVec.ofNat 32 (pagesFor e.length), peer := e.partner, role := false, drainOwner := true
      result := 1 }
    if (s.ctx n).life.st = .chartered then s.sync n i .create
    else match s.takeSlot n i with
      | none => s.modEntry i fun e => { e with pages := 0, drainOwner := false, result := 0x15 }
      | some s =>
        let s := ((s.allocEntry i).takeProgram n i).sendProgram n i
        s.sync n i .create 0 (programData (s.entry i))

/-- The partner Azard's answer to a create: its entry's index, or a refusal, which leaves the entry as it was (R116,
R118). -/
def defineAnswer (s : State) (n i res idx : Nat) : State :=
  let e := s.entry i
  if e.result ≠ 1 then s
  else if res = 2 then
    if e.rebuildP then
      let s := s.modEntry i fun e => { e with partnerEntry := BitVec.ofNat 16 idx }
      e.rebuildLeft.foldl (fun (s : State) p =>
        s.partnerPage n i .remirror p e.version (entryDigest e p) (p * 2097152) (pageBytes e p)) s
    else
      let s := s.modEntry i fun e => { e with st := .defined, partnerEntry := BitVec.ofNat 16 idx, result := 2 }
      s.writeMemberClaim n e.owner
  else if e.rebuildP then s.modEntry i fun e => { e with
    closing := .none, rebuildP := false, rebuildLeft := [], result := BitVec.ofNat 8 res }
  else
    let s := (s.dropSlot n i).returnClean e.alloc
    s.modEntry i fun e => { e with pages := 0, alloc := [], mirrorBase := 0, drainOwner := false, image := [], hyperBytes := [],
                                   result := BitVec.ofNat 8 res }

/-! ## Fills from outside, SEAL, REMIRROR (R120, R131, R138) -/

/-- The local copy's digest of every page enters its vote. -/
def localDigests (s : State) (n i : Nat) : State :=
  (List.range (s.entry i).pages.toNat).foldl (fun (s : State) p =>
    let e := s.entry i
    if e.degradedL && !e.rebuildL then s else s.enterDigest n i p e.version .locl (entryDigest e p)) s

/-- A fill from outside begins: the version it sets, the committed step, the slot FILLING (R117, R120). -/
def startFill (s : State) (n i : Nat) (src : Nat) (v : BitVec 32) : State :=
  let s := s.modEntry i fun e => { e with
    st := .filling, fillSource := BitVec.ofNat 4 src, version := v, committed := (s.ctx n).step.released, votes := []
    closing := if src = 1 then .none else .fill, fillDone := 0, fillNext := 0
    fill := { started := true, version := v, was := e.st }, seenY := 0, seenP := 0, rejoin := none
    taintFrom := if src = 2 then 0 else e.taintFrom }
  ((s.forgetShard n (s.entry i).shardId).slotState n i 2).sync n i .update

/-- First unconfirmed page of a fill. -/
def firstOpen (pages : Nat) (done : List Nat) : Nat := ((List.range pages).find? fun p => !done.contains p).getD pages

/-- A YOBEL fill reads pages in order, sixteen outstanding (R120). -/
def readPump (s : State) (n i : Nat) : Nat → State
  | 0 => s
  | f + 1 =>
    let e := s.entry i
    if e.st ≠ .filling || e.fillSource ≠ 0 || decide (16 ≤ e.fill.out.length) || decide (e.pages.toNat ≤ e.fill.next) then s
    else
      let p := e.fill.next
      let s := s.modEntry i fun e => { e with fill := { e.fill with next := p + 1, out := e.fill.out ++ [(p, 0)] } }
      (s.statePortRd n i p).readPump n i f

/-- A page of a fill reaches every copy: the local mirror, the partner, and Yobel, whose digest the INSTALL record brings;
the closing vote takes each as it comes (R120). -/
def placePage (s : State) (n i p : Nat) (d : Bytes) (toYobel : Bool) : State :=
  match s.writeCopy n i p (p * 2097152) d with
  | none => s
  | some s =>
    let e := s.entry i
    let dg := entryDigest e p
    let s := if e.degradedP then s else s.partnerPage n i .fill p e.version dg (p * 2097152) d
    let s := if toYobel then s.statePortWr n i (p * 2097152) d else s
    (s.installRec n i 2 p e.version dg).enterDigest n i p e.version .locl dg

/-- SEAL, once no mirror-window write is outstanding: every copy's version rises by 1 and every page is digested (R138).
Held pages keep their content in escrow, since SEAL makes a new version of each (R201). -/
def startSeal (s : State) (n i : Nat) : State :=
  let e := s.entry i
  if e.windowWrites ≠ [] || e.closing ≠ .none then s
  else
    let s := s.modEntry i fun e => { e with version := e.version + 1, closing := .seal, sealDue := false }
    let e := s.entry i
    let s := if e.degradedP then s else s.sync n i .seal
    let s := if e.st = .fenced then s
      else (List.range e.pages.toNat).foldl (fun (s : State) p =>
        s.installRec n i (if e.st = .filling then 2 else 3) p e.version (entryDigest e p)) s
    s.localDigests n i

/-- The held pages that a SEAL is about to leave behind are copied into escrow; none when escrow is short (R201, R203). -/
def sealCow (s : State) (n i : Nat) : Option State :=
  (List.range (s.entry i).pages.toNat).foldl (fun (o : Option State) p => o.bind fun s => s.copyOnWrite n i p) (some s)

/-- SEAL requested: it waits for the window's writes (R138, R140). -/
def sealEntry (s : State) (n i : Nat) : State :=
  let s := s.modEntry i fun e => { e with sealDue := true }
  match s.sealCow n i with
  | none => s
  | some s => s.startSeal n i

/-- The vote-lag limit of a committed step. -/
def lagOf (s : State) (n : Nat) (st : Word) : Nat := ((s.committedAtt n st).map fun a => a.lag.toNat).getD 1

/-- A repaired page waits for an escrow page, and the copy's next update with it (R203); where the vote-lag limit of that update's
step is 1 the checkpoint is abandoned at once.  True where the install can go on. -/
def waitInstall (s : State) (n i : Nat) : State × Bool :=
  match (s.entry i).queued.head? with
  | none => (s, false)
  | some t =>
    if s.lagOf n t ≤ 1 then (s.abandonCkpt n 1, true)
    else ((s.modEntry i fun e => { e with waitEscrow := some t }).updWaiting, false)

/-- A repaired page lands where it can; a page that waits for escrow is none (R201, R203). -/
def installOrWait (s : State) (n i p : Nat) (v : BitVec 32) (d : Bytes) : State × Option State :=
  match s.installCopy n i p v d with
  | some t => (s, some ((t.modEntry i fun e => { e with waitEscrow := none }).updWaiting))
  | none =>
    let (s, go) := s.waitInstall n i
    (s, if go then s.installCopy n i p v d else none)

/-- SEALs that wait are tried again, and repairs whose page waits for escrow (R138, R140, R203). -/
def resumeSeals (s : State) (n : Nat) : State :=
  (s.entriesOf n).foldl (fun (s : State) e =>
    let s := if e.2.repairing = [] then s else s.pumpRepairs n e.1
    if e.2.sealDue then s.sealEntry n e.1 else s) s

/-- The votes of the released steps are over among the copies that vote, and the copy that feeds a REMIRROR stands at the
newest released step (R131, R140). -/
def remirrorReady (s : State) (n i : Nat) : Bool :=
  let e := s.entry i
  let rel := (s.ctx n).step.released
  let v := versionAt e rel
  (e.degradedL || e.committed = rel) &&
    (e.votedStep = rel ||
      match yIn e v, lIn e, pIn e with
      | true, false, false => laterVersion e.seenY v = e.seenY
      | false, true, false => true
      | false, false, true => laterVersion e.seenP v = e.seenP
      | _, _, _ => false)

/-- REMIRROR: new pages for a lost local copy, a new partner entry for a lost partner copy, every page copied at the
current version, then a three-way vote (R131). It waits for the votes that are pending (R140). Where the entry is FENCED and
both mirrors are lost no source is left: UNRECOVERABLE (log entry 94). -/
def startRemirror (s : State) (n i : Nat) : State :=
  let e := s.entry i
  let all := List.range e.pages.toNat
  let refuse (s : State) (r : Nat) : State := s.modEntry i fun e => { e with result := BitVec.ofNat 8 r, remirrorDue := false }
  if e.degradedL && e.degradedP && e.st = .fenced then refuse s 0x20
  else if e.degradedP && s.placementBad n e.partner then refuse s 0x16
  else if e.degradedP && !s.partnerInGroup n e.group e.partner then refuse s 0x17
  else if e.degradedL && !decide (e.pages.toNat ≤ s.freeClean) then refuse (s.parkCopies e.pages.toNat) 0x15
  else if !s.remirrorReady n i then s.modEntry i fun e => { e with remirrorDue := true }
  else
    let s := if e.degradedL then s.allocEntry i else s
    let v := if e.degradedL then laterVersion (versionAt e e.votedStep) (if e.st = .fenced then e.seenP else e.seenY) else e.version
    let s := s.modEntry i fun e => { e with
      closing := .remirror, rebuildL := e.degradedL, rebuildP := e.degradedP, rebuildLeft := all, votes := [], remirrorDue := false
      peer := if e.degradedP then e.partner else e.peer, version := v, committed := stepAt e v }
    let s := if e.degradedL then
        all.foldl (fun (s : State) p => if e.st = .fenced then s.sync n i .fetch p else s.statePortRd n i p) s
      else s
    let s := if e.degradedP && !e.degradedL then s.sync n i .create 0 (programData (s.entry i)) else s
    let s := if e.st = .live then
        (if e.degradedL then s else all.foldl (fun (s : State) p =>
          s.installRec n i 3 p (s.entry i).version (entryDigest (s.entry i) p)) s)
      else s
    let s := if !e.degradedP then s.sync n i .digest else s
    if e.degradedL then s else s.localDigests n i

/-- A REMIRROR that waits begins once the pending votes are over (R140). -/
def resumeRemirror (s : State) (n i : Nat) : State := 
  if (s.entry i).remirrorDue && (s.ctx n).life.st = .quiesced then s.startRemirror n i else s

/-- A digest enters its vote, and a REMIRROR that waits for the vote goes on. -/
def takeVote (s : State) (n i p : Nat) (v : BitVec 32) (who : Target) (d : Digest) : State :=
  (s.enterDigest n i p v who d).resumeRemirror n i

/-- A page of a lost local copy has come, from the accelerator or from the partner (R131). -/
def rebuildPage (s : State) (n i p : Nat) (d : Bytes) : State :=
  let s := s.modEntry i fun e => { e with mem := Mem.write e.mem (p * 2097152) d, rebuildLeft := e.rebuildLeft.filter (· ≠ p) }
  let s := s.trackWrite i p
  let e := s.entry i
  let s := if e.st = .live then s.installRec n i 3 p e.version (entryDigest e p) else s
  let s := s.enterDigest n i p e.version .locl (entryDigest e p)
  if (s.entry i).rebuildLeft = [] && e.rebuildP then
    (s.modEntry i fun e => { e with rebuildLeft := List.range e.pages.toNat }).sync n i .create 0 (programData e)
  else s

/-! ## Retiring (R117) -/

/-- An entry goes RETIRING: work on the shard stops, its slot goes FREE, its pages become DIRTY, the partner is told. -/
def retire (s : State) (n i : Nat) (tell : Bool := true) : State :=
  let e := s.entry i
  if e.st = .free || e.st = .retiring then s
  else
    let s := if e.role then s else s.dropSlot n i
    let s := s.stopRun i
    let gone := (s.ctx n).esc.pages.filter fun x => x.entry.toNat = i
    let s := s.modCtx n fun c => { c with
      esc.pages := c.esc.pages.filter fun x => x.entry.toNat ≠ i
      esc.included := c.esc.included.filter fun x => x.toNat ≠ i }
    let s := (s.freeEscrow n gone).makeDirty (some (ctxFin n)) .mirror e.alloc (some i)
    let s := s.modEntry i fun e => { e with
      st := .retiring, queued := [], votes := [], repairing := [], fill := {}, closing := .none, windowWrites := []
      digestsOut := [], waitEscrow := none, alloc := [], mem := [], heldPages := [], drainSet := []
      peerFree := e.role, editOpen := false, sealDue := false, remirrorDue := false, scrubLines := [] }
    let s := if !tell then s else if e.role then s.sync n i .drop else s.sync n i .retire
    (s.updWaiting.writeMemberClaim n e.owner).settleAll n

/-- Every page of a RETIRING entry is CLEAN again, here and at the partner: it is FREE, every field 0 (R117). -/
def freeEntry (s : State) (n i : Nat) : State :=
  let e := s.entry i
  if e.st ≠ .retiring || s.alc.dirty.any (fun r => r.entry = some i) || !(e.peerFree || e.degradedP) then s
  else
    let s := if e.role then s.sync n i .retire else s.dropSlot n i
    (s.forgetShard n e.shardId).setEntry i {}

/-! ## Claims (R220–R224) -/

/-- Repairs pending at the accelerator are abandoned and its holds end, still under the former claim (R224). -/
def endRepairs (s : State) (n i : Nat) : State :=
  (s.releaseHolds n i).modEntry i fun e => { e with repairing := e.repairing.filter fun r => r.target = .partner }

/-- The device that held the former claim of a LIVE entry is fenced (R224); a suspect one is drained from now on (R252). -/
def fence (s : State) (n i : Nat) (old : Word) : State :=
  let e := s.entry i
  let s := s.modEntry i fun e => { e with st := .fenced, rejoin := none }
  let s := match s.slotOf n i with
    | none => s
    | some (k, sl) =>
      let s := s.modSlotUse k sl fun x => { x with fenced := true }
      if s.portUp k then (s.slotState n i 4).slotClaim n i else s
  let s := match s.portOfNode n e.owner with
    | some k => if (s.tstPort k).suspect then s.modTstPort k fun t => { t with draining := true } else s
    | none => s
  s.record 11 1 (evSource 5 n i) 0 (old.setWidth 32) (e.claim.setWidth 32)

/-- The flue target of a shard: its index and node, OWNER modulo the number of targets (R212). -/
def flueOf (s : State) (n : Nat) (owner : BitVec 16) : Option (Nat × BitVec 16) :=
  let l := (s.ctx n).life.charter.flues
  match l[owner.toNat % l.length]? with
  | some node => some (owner.toNat % l.length, node)
  | none => none

/-- A request to flue target t: GET and LIST as one RD (R210).  `args`: OP, KIND, entry, page, sequence, SHARD_ID. -/
def flueAsk (s : State) (n : Nat) (node : BitVec 16) (args : List Nat) : State :=
  s.request { dest := .node (ctxFin n) node, op := .rd, addr := 6 * 17592186044416, args := args }

/-- A partner that takes over the drain of a checkpoint first LISTs the shard's pages at its flue target (R205, R206). -/
def takeOver (s : State) (n i : Nat) : State :=
  let e := s.entry i
  let c := (s.ctx n).esc
  if c.curSeq = 0 || !c.included.any (fun x => x.toNat = i) then s
  else match s.flueOf n e.owner with
    | none => s
    | some (_, node) =>
      (s.modEntry i fun e => { e with listing := true, drainStop := false }).flueAsk n node
        [3, 1, i, 0, c.curSeq.toNat, e.shardId.toNat]

/-- A raise of an entry's CLAIM takes effect (R205, R221, R222). -/
def raiseClaim (s : State) (n i : Nat) (new : Word) : State :=
  let e := s.entry i
  let s := if e.st = .live && !e.role then s.endRepairs n i else s
  let s := s.modEntry i fun e => { e with claim := new, ctx := BitVec.ofNat 4 n }
  if e.st = .free then s
  else if e.role then ((s.modEntry i fun e => { e with drainOwner := true }).event 10 30 (evSource 5 n i)).takeOver n i
  else
    let s := match e.st with
      | .defined => s.slotClaim n i
      | .live => s.fence n i e.claim
      | .filling =>
        let s := s.slotClaim n i
        if e.fillSource = 3 then
          (s.modEntry i fun e => { e with
            fillDone := 0, fillNext := 0, fill := { e.fill with next := 0, out := [], confirmed := [], reading := false } }).fillGo
        else s
      | _ => s
    let s := (s.writeMemberClaim n e.owner).modEntry i fun e => { e with drainStop := false }
    let s := s.note (ctxFin n) e.peer 0x21 none [e.shardId.toNat, new.toNat]
    (s.rejudge n i).resumeRemirror n i

/-- A compare-and-swap of an entry's CLAIM (R220). -/
def claimCas (s : State) (rq : Req) (i : Nat) (cmp new : Word) : State :=
  let x := s.entry i
  let old := natLe 8 x.claim.toNat
  if x.st = .retiring then s.nackAccess rq
  else if x.claim ≠ cmp then s.answer rq .ok 0 old
  else if new.toNat ≤ x.claim.toNat then s.answer rq .nackClaim 0 old
  else (s.raiseClaim rq.ctx i new).answer rq .ok 0 old

/-! ## Confirmations (R185–R187, R232–R237) -/

/-- A MIRROR fill is complete: the slot and the entry go LIVE, and the node's Yobel gets the tag of an OPEN attempt when
its last filling entry is done (R117, R237). -/
def fillDone (s : State) (n i : Nat) : State :=
  let s := (s.modEntry i fun e => { e with
    st := .live, fill := {}, unrecoverable := false, seenY := e.fill.version, rejoin := some e.fill.version }).slotState n i 3
  let s := s.finishReq i 2
  let e := s.entry i
  let s := if e.degradedP then s else s.sync n i .update
  match s.openAtt n with
  | some a => s.writeTag n a.hdr e.owner
  | none => s

/-- An INSTALL record answers a page of a MIRROR fill (R232, R236, R237). -/
def fillAnswer (s : State) (n i p : Nat) (good : Bool) : State :=
  let e := s.entry i
  match e.fill.out.find? fun x => x.1 = p with
  | none => s
  | some (_, t) =>
    if good then
      let s := s.modEntry i fun e =>
        let c := if e.fill.confirmed.contains p then e.fill.confirmed else e.fill.confirmed ++ [p]
        { e with
          fill := { e.fill with out := e.fill.out.filter fun x => x.1 ≠ p, confirmed := c }
          fillDone := BitVec.ofNat 32 c.length, fillNext := BitVec.ofNat 32 (firstOpen e.pages.toNat c) }
      if (s.entry i).fill.confirmed.length = e.pages.toNat then s.fillDone n i else s.fillGo
    else
      let st := (s.ctx n).step.released
      let s := match s.portOfNode n e.owner with
        | some k => s.countOddAccel k st
        | none => s
      let s := s.modEntry i fun e => { e with fill := { e.fill with
        out := e.fill.out.map fun x => if x.1 = p then (p, t + 1) else x } }
      let lim := s.mir.repairTries.toNat
      if t + 1 < lim then s.sendFillPage n i p
      else if t + 1 = lim then s.record 7 44 (evSource 5 n i) 0 (BitVec.ofNat 32 p) 0
      else s

/-- An INSTALL digest record of a page (R185): it answers a repair, a MIRROR fill's page, or brings the accelerator's digest
to a closing vote. -/
def installDigest (s : State) (n i p : Nat) (v : BitVec 32) (d : Digest) : State :=
  let e := s.entry i
  match e.repairing.find? fun r => r.page = p && r.target = .accel && r.sent && r.version = v with
  | some r => s.repairAnswer n i r (r.digest = some d)
  | none =>
    if e.st = .filling && e.fillSource = 3 then
      if v = e.fill.version then
        s.fillAnswer n i p (fillDigest e p = d)
      else s
    else if e.closing ≠ .none && v = e.version then
      let s := s.enterDigest n i p v .accel d
      s.modEntry i fun e =>
        let c := if e.fill.confirmed.contains p then e.fill.confirmed else e.fill.confirmed ++ [p]
        if e.st = .filling then
          { e with fill := { e.fill with confirmed := c }, fillDone := BitVec.ofNat 32 c.length,
                   fillNext := BitVec.ofNat 32 (firstOpen e.pages.toNat c) }
        else e
    else s

end State

end Sys2Proof.Machine
end

