-- ==== Sys2Proof/Machine/Hello.lean ====
section
/-!
DEFINITION. Sys2Proof/Machine/Hello.lean: the HELLO that this end of a link sends (12 R298, 14 R341).
-/

namespace Sys2Proof.Machine

namespace State

/-- A position word without PEER_PORT and ANY_PORT (R298). -/
def barePos (w : Word) : Word := w &&& 0xFFFF03FFFFFFFFFF

/-- The topology digest over two ends' words (R298). -/
def topoDigestOf (a b : Word) : Digest :=
  let x := (barePos a).toNat
  let y := (barePos b).toNat
  hash256 ([0x41, 0x5A, 0x54, 0x50] ++ natLe 8 (min x y) ++ natLe 8 (max x y))

/-- Width and FEC mode in one byte of a HELLO: width code in [2:0], FEC in [3], mode in [5:4] (log entry 34). -/
def shapeByte (q : Port) : BitVec 8 := BitVec.ofNat 8 (q.width.toNat + 8 * bit q.fec + 16 * q.mode.toNat)

/-- The HELLO of this end of a port, with its ephemeral key `ek` (R298, R341). -/
def helloBytes (s : State) (p : Nat) (ek : Bytes) : Bytes :=
  let q := s.port p
  let c := s.sec.identityChain
  let body := [0x41, 0x5A, 0x48, 0x4C] ++ natLe 1 3 ++ natLe 1 0 ++ natLe 1 p ++ natLe 1 (shapeByte q).toNat ++
    natLe 8 s.fabric.selfPos.toNat ++ natLe 8 q.expect.toNat ++ natLe 8 s.fabric.selfCoord.toNat ++
    natLe 4 s.kin.fwVersion.toNat ++ natLe 4 s.rst.epoch.toNat ++ digestBytes (topoDigestOf s.fabric.selfPos q.expect) ++
    natLe 4 c.length ++ natLe 4 0 ++ c ++ Bytes.at ek 0 1568
  body ++ Bytes.at (Config.falconSign s.sec.identityKey body) 0 1280

/-- HELLO goes out with a fresh ephemeral key (R298, R341). -/
def sendHello (s : State) (p : Fin 25) : State :=
  let ek := Config.newKey s.free
  let s := s.useFree
  let b := s.helloBytes p ek
  let s := s.modLinkEnd p fun v => { v with link := { helloIn := b } }
  (s.modPort p fun q => { q with helloSent := b }).send { dest := .link p, op := .msg, kind := 1, data := b }

/-- Links calibrate: at READY, and from stage 4 of a kindling (R355). -/
def linksTrain (s : State) : Bool := s.kin.power = .ready || (s.kin.power = .kindling && decide (4 ≤ s.kin.stage.toNat))

/-- Links say hello: at READY, and in stage 6 of a kindling (R355). -/
def linksHello (s : State) : Bool := s.kin.power = .ready || (s.kin.power = .kindling && s.kin.stage = 6)

end State

end Sys2Proof.Machine
end

