-- ==== Sys2Proof/Machine/Image.lean ====
section
/-!
DEFINITION. Sys2Proof/Machine/Image.lean: the configuration image and the firmware bundle (15 R357–R363): their layout,
the checks of verify(dev), the selection of a set, and the loading of image values.
-/

namespace Sys2Proof.Machine

/-- The word at an offset of an object. -/
def Bytes.word (b : Bytes) (off : Nat) : Word := BitVec.ofNat 64 (Bytes.le b off 8)

/-- A port entry (R359). -/
def parsePortEntry (b : Bytes) (o : Nat) : PortCfg :=
  let link := Bytes.le b (o + 12) 1
  { expect := Bytes.word b o, asym := BitVec.ofNat 32 (Bytes.le b (o + 8) 4),
    mode := BitVec.ofNat 2 link, width := BitVec.ofNat 3 (link / 4), fec := (link / 32) % 2 = 1,
    enable := (link / 64) % 2 = 1, appsel := BitVec.ofNat 8 (Bytes.le b (o + 13) 1),
    faultMap := BitVec.ofNat 16 (Bytes.le b (o + 14) 2) }

/-- An input entry (R360). -/
def parseInputEntry (b : Bytes) (o : Nat) : InputCfg :=
  { minPulse := BitVec.ofNat 32 (Bytes.le b o 4), minPeriod := BitVec.ofNat 32 (Bytes.le b (o + 4) 4),
    hold := BitVec.ofNat 32 (Bytes.le b (o + 8) 4), quiet := BitVec.ofNat 32 (Bytes.le b (o + 12) 4) }

/-- A table of n entries built by position. -/
def tabulate {α : Type} [DecidableEq α] (d : α) (n : Nat) (f : Nat → α) : Map α :=
  (List.range n).foldl (fun m i => Map.set d m i (f i)) []

/-- The values of a configuration image (R358). -/
def parseImage (b : Bytes) : Image :=
  { counter := BitVec.ofNat 10 (Bytes.le b 0x0C 2), build := Bytes.word b 0x18,
    fwMin := BitVec.ofNat 32 (Bytes.le b 0x20 4), pos := Bytes.word b 0x100, coord := Bytes.word b 0x108,
    powerDomain := BitVec.ofNat 16 (Bytes.le b 0x110 2), sparePort := BitVec.ofNat 8 (Bytes.le b 0x112 1),
    timeSource := BitVec.ofNat 8 (Bytes.le b 0x113 1), fwMatch := Bytes.le b 0x114 1 % 2 = 1,
    gateRegions := BitVec.ofNat 8 (Bytes.le b 0x115 1), powerLimit := BitVec.ofNat 16 (Bytes.le b 0x116 2),
    patternSet := BitVec.ofNat 32 (Bytes.le b 0x118 4), moduleReady := BitVec.ofNat 16 (Bytes.le b 0x11C 2),
    spillPeer0 := Bytes.word b 0x120, spillPeer1 := Bytes.word b 0x128,
    escResets := BitVec.ofNat 8 (Bytes.le b 0x130 1), escMinutes := BitVec.ofNat 16 (Bytes.le b 0x132 2),
    evict := BitVec.ofNat 32 (Bytes.le b 0x134 4), wdFloor := BitVec.ofNat 32 (Bytes.le b 0x138 4),
    wdMult := BitVec.ofNat 8 (Bytes.le b 0x13C 1),
    alcCfg0 := Bytes.word b 0x140, alcCfg1 := Bytes.word b 0x148, mirCfg := Bytes.word b 0x150,
    escCfg := Bytes.word b 0x158, tstCfg0 := Bytes.word b 0x160, tstCfg1 := Bytes.word b 0x168,
    ports := tabulate {} 25 (fun p => parsePortEntry b (0x200 + 32 * p)),
    inputs := tabulate {} 16 (fun i => parseInputEntry b (0x520 + 16 * i)),
    roots := (List.range (Bytes.le b 0x620 4)).map fun i => Bytes.at b (0x628 + 1800 * i) 1793 }

/-- A bit of a position word: VALID is bit 63 (R298). -/
def posValid (w : Word) : Bool := w.msb

/-- The site of a position word, its bits [41:40] (R298). -/
def posSite (w : Word) : BitVec 2 := w.extractLsb' 40 2

/-- The ports, numbered as in LNK_, that a link of a width code occupies from its anchor (R287). -/
def linkPorts (p : Nat) (width : BitVec 3) : List Nat :=
  match width.toNat with
  | 3 => if p < 9 then [p] else [p, p + 1]
  | 4 => [p, p + 1, p + 2, p + 3]
  | 0 => []
  | _ => [p]

/-- The anchor of the link that occupies port p, when one does (R287). -/
def anchorOf (ports : Map PortCfg) (p : Nat) : Nat :=
  ((List.range 25).find? fun a => (linkPorts a (Map.get {} ports a).width).contains p).getD p

/-- The placement rules of the lane division for one fabric port (R287, R362 cause 7). -/
def fabricPortOk (ports : Map PortCfg) (p : Nat) : Bool :=
  let c := Map.get {} ports p
  let n := p - 9
  let used := linkPorts p c.width
  let alone := used.all fun u => u < 25 && (u = p || (Map.get {} ports u).width = 0)
  let place := match c.width.toNat with
    | 0 | 1 | 2 => true
    | 3 => n % 2 = 0
    | 4 => n % 4 = 0
    | _ => false
  let long := c.mode ≠ 2 || (21 ≤ p && c.fec && (c.width = 2 || c.width = 3 || c.width = 4))
  c.mode ≠ 0 && alone && place && long && (c.width = 0 || c.mode ≠ 3)

/-- The tray ports: MODE 0 and WIDTH 3 (R362 cause 7). -/
def trayPortOk (c : PortCfg) : Bool := c.mode = 0 && c.width = 3

/-- An input entry is all zeros or within the ranges of R360. -/
def inputOk (c : InputCfg) : Bool :=
  c = {} || (10 ≤ c.minPulse.toNat && c.minPulse.toNat ≤ 1000000 && 1 ≤ c.minPeriod.toNat &&
    c.minPeriod.toNat ≤ 1000000 && 1 ≤ c.hold.toNat && c.hold.toNat ≤ 86400000 && 1 ≤ c.quiet.toNat &&
    c.quiet.toNat ≤ 3600000)

/-- A number within a range. -/
def within (lo hi x : Nat) : Bool := decide (lo ≤ x) && decide (x ≤ hi)

/-- The ranges of R358, of the lane division and of the RO fields of the register slots (R362 cause 7). -/
def imageFieldsOk (m : Image) : Bool :=
  posValid m.pos && within 1 65535 m.powerDomain.toNat && within 0 8 m.sparePort.toNat &&
  within 0 2 m.timeSource.toNat && within 300 1100 m.powerLimit.toNat && within 1 600 m.moduleReady.toNat &&
  [m.spillPeer0, m.spillPeer1].all (fun w => !posValid w || posSite w = posSite m.pos) &&
  within 2 16 m.escResets.toNat && within 1 1440 m.escMinutes.toNat && within 60 86400 m.evict.toNat &&
  within 10 3600 m.wdFloor.toNat && within 2 64 m.wdMult.toNat &&
  within 0 8192 (m.alcCfg1.extractLsb' 48 16).toNat && within 16 192 (m.escCfg.extractLsb' 0 8).toNat &&
  (List.range 9).all (fun p => trayPortOk (Map.get {} m.ports p)) &&
  (List.range 16).all (fun p => fabricPortOk m.ports (p + 9)) &&
  (List.range 16).all (fun i => inputOk (Map.get {} m.inputs i))

/-- Reserved bytes of the image's head, of its port entries and after its roots must be 0 (R358, R359). -/
def imageReservedOk (b : Bytes) : Bool :=
  Bytes.le b 0x06 2 = 0 && Bytes.le b 0x0E 2 = 0 && Bytes.le b 0x24 28 = 0 && Bytes.le b 0x60 160 = 0 &&
  Bytes.le b 0x131 1 = 0 && Bytes.le b 0x13D 3 = 0 && Bytes.le b 0x11E 2 = 0 && Bytes.le b 0x170 144 = 0 &&
  Bytes.le b 0x624 4 = 0 && (List.range 25).all (fun p => Bytes.le b (0x210 + 32 * p) 16 = 0) &&
  (List.range (min 34 (Bytes.le b 0x620 4))).all fun i => Bytes.le b (0x628 + 1800 * i + 1793) 7 = 0

/-- The image checks of verify(dev), causes 1–7 in order; 0 when all pass (R362). -/
def verifyImage (s : State) (b : Bytes) : Nat :=
  let len := Bytes.le b 0x08 4
  let m := parseImage b
  if Bytes.le b 0 4 ≠ 0x46435A41 || Bytes.le b 4 2 ≠ 1 || !imageReservedOk b then 1
  else if len ≠ 2856 + 1800 * Bytes.le b 0x620 4 || b.length < len || 65536 < len then 2
  else if BitVec.ofNat 256 (Bytes.le b 0x40 32) ≠ s.sec.opSubject then 3
  else if !Config.falconVerify s.sec.opKey (b.take (len - 1280)) (Bytes.at b (len - 1280) 1280) then 4
  else if Bytes.word b 0x10 ≠ 0 && Bytes.word b 0x10 ≠ s.ident.serial then 5
  else if Bytes.le b 0x0C 2 < s.kin.floor.toNat then 6
  else if 1023 < Bytes.le b 0x0C 2 || 16 < Bytes.le b 0x620 4 || !imageFieldsOk m then 7
  else 0

/-- The bundle checks of verify(dev), causes 8 and 9 (R361, R362). -/
def verifyBundle (s : State) (b : Bytes) : Nat :=
  if Bytes.le b 0 4 ≠ 0x57465A41 || Bytes.le b 4 2 ≠ 1 || 48 * 1048576 < Bytes.le b 0x0C 8 ||
      !Config.gelvogerSigned b then 8
  else if Bytes.le b 6 1 < s.kin.fwFloor.toNat then 9
  else 0

/-- verify(dev): the first cause of R362 that fails on a set; 0 when none does. -/
def verifySet (s : State) (d : NorSet) : Nat :=
  let i := verifyImage s d.image
  if i ≠ 0 then i
  else
    let w := verifyBundle s d.bundle
    if w ≠ 0 then w
    else if Bytes.le d.bundle 8 4 < Bytes.le d.image 0x20 4 then 10
    else 0

/-- The set of NOR device A (false) or B (true). -/
def norSet (s : State) (dev : Bool) : NorSet := if dev then s.kin.norB else s.kin.norA

/-- FP ports' state after an image is loaded (R306, R363): LINK fields, EXPECT, APPSEL, FAULT_MAP; a port keeps the
accelerator fitted to it. -/
def loadPort (m : Image) (old : Port) (p : Nat) : Port :=
  let c := Map.get {} m.ports p
  let a := anchorOf m.ports p
  let mem := a ≠ p
  { fitted := old.fitted, mode := if mem then (Map.get {} m.ports a).mode else c.mode,
    width := if mem then 0 else c.width, fec := c.fec, anchor := BitVec.ofNat 5 a, fwMatch := m.fwMatch,
    enable := c.enable, expect := c.expect, appsel := c.appsel, faultMap := c.faultMap,
    state := if mem then .member else .down }

/-- A field of `n` bits of a word at `lo`, brought to the nearer end of its range. -/
def clampField (w : Word) (lo n least most : Nat) : BitVec n := BitVec.ofNat n (clampNat least most (w.extractLsb' lo n).toNat)

/-- The RW fields of ALC_CFG0 and ALC_CFG1 (R285). -/
def Alc.setCfg0 (a : Alc) (w : Word) : Alc :=
  { a with
    wipePct := clampField w 0 7 1 100, wipeUrgent := clampField w 8 7 1 100, migratePct := clampField w 16 7 1 100
    migratePages := w.extractLsb' 32 16 }

def Alc.setCfg1 (a : Alc) (w : Word) : Alc :=
  { a with
    wakeGuard := clampField w 0 10 1 1000, gateIdle := clampField w 16 8 1 255, vcMaxPct := clampField w 24 7 10 100
    replaySpill := w.extractLsb' 32 16 }

/-- The RW fields of MIR_CFG (R139): REPAIR_TRIES 0 is stored as 3. -/
def Mir.setCfg (m : Mir) (w : Word) : Mir :=
  { m with
    digestWait := clampField w 0 16 10 60000
    repairTries := if w.extractLsb' 16 4 = 0 then 3 else w.extractLsb' 16 4 }

/-- The RW fields of ESC_CFG (R219). -/
def Esc.setCfg (e : Esc) (w : Word) : Esc :=
  { e with
    lowWater := clampField w 8 7 5 90, damperPct := clampField w 16 7 1 100, fullPct := clampField w 23 7 1 100
    outstanding := clampField w 32 6 1 63 }

/-- TST_CFG0 and TST_CFG1 (R264): a threshold 0 is stored as 1. -/
def Tst.setCfg0 (t : Tst) (w : Word) : Tst :=
  { t with
    slack := w.extractLsb' 0 4, deferH := clampField w 16 10 1 720, accelH := clampField w 32 10 1 720
    rotateMin := clampField w 48 11 10 1440 }

def Tst.setCfg1 (t : Tst) (w : Word) : Tst :=
  { t with
    oddPages := clampField w 0 16 1 65535, capLimit := clampField w 16 16 1 65535, pairLimit := clampField w 32 16 1 65535 }

/-- Image values loaded into their registers (R363, with the clamping each register states). -/
def loadImage (s : State) (m : Image) : State :=
  let peers := bit (posValid m.spillPeer0) + bit (posValid m.spillPeer1)
  { s with
    kin.img := m
    fabric := { s.fabric with selfPos := m.pos, selfCoord := m.coord }
    tim.source := m.timeSource.setWidth 2
    tim.asym := tabulate 0 25 fun p => (Map.get {} m.ports p).asym
    pwr.limit := BitVec.ofNat 11 (clampNat 300 1100 m.powerLimit.toNat)
    alc := { (s.alc.setCfg0 m.alcCfg0).setCfg1 m.alcCfg1 with
      spillOffer := m.alcCfg1.extractLsb' 48 16, spillPeers := BitVec.ofNat 2 peers }
    mir := { s.mir.setCfg m.mirCfg with crossSite := (m.mirCfg.extractLsb' 20 1) = 1 }
    esc := { s.esc.setCfg m.escCfg with poolGib := m.escCfg.extractLsb' 0 8 }
    tst := { (s.tst.setCfg0 m.tstCfg0).setCfg1 m.tstCfg1 with active := m.patternSet }
    ports := tabulate {} 25 fun p => loadPort m (s.port p) p }

/-- select() of R362: the device tried first is the standby when a trial is pending, else the last good one; each device
that fails is recorded as KIN-002.  `none`: no set verified. -/
def selectSet (s : State) : State × Option Bool :=
  let first := if s.kin.pending then !s.kin.lastGood else s.kin.lastGood
  let s := { s with kin.pending := false }
  let c1 := verifySet s (norSet s first)
  if c1 = 0 then (s, some first)
  else
    let s1 := s.record 18 2 0 (BitVec.ofNat 32 c1) (BitVec.ofNat 32 (bit first)) 0
    let c2 := verifySet s1 (norSet s1 (!first))
    if c2 = 0 then (s1, some (!first))
    else (s1.record 18 2 0 (BitVec.ofNat 32 c2) (BitVec.ofNat 32 (bit (!first))) 0, none)

/-- Stage 2 ends with a verified set: its image's values are loaded and its bundle runs (R362, R363). -/
def runSet (s : State) (dev : Bool) : State :=
  let d := norSet s dev
  let s := loadImage s (parseImage d.image)
  { s with kin.device := dev, kin.fwCounter := BitVec.ofNat 8 (Bytes.le d.bundle 6 1),
           kin.fwVersion := BitVec.ofNat 32 (Bytes.le d.bundle 8 4) }

end Sys2Proof.Machine
end

