-- ==== Sys2Proof/Machine/Stdf.lean ====
section
/-!
DEFINITION. Sys2Proof/Machine/Stdf.lean: the STDF V4 stream of a failure signature (10 R261–R263).  The header of a record and
the numbers of the record types are STDF's own; what R262 leaves unstated is free (log entry 89).
-/

namespace Sys2Proof.Machine

/-- An STDF record: REC_LEN, REC_TYP and REC_SUB, little-endian (CPU_TYPE 2), then its body. -/
def stdfRec (typ sub : Nat) (body : Bytes) : Bytes := natLe 2 body.length ++ natLe 1 typ ++ natLe 1 sub ++ body

/-- A Cn field: a count byte and that many characters. -/
def stdfText (t : Bytes) : Bytes := natLe 1 (t.take 255).length ++ t.take 255

/-- `k` bytes of a record that R262 leaves open. -/
def stdfOpen (n field k : Nat) : Bytes := (List.range k).map (Config.stdfByte n field)

/-- "AZ8-1600" (R262, PART_TYP). -/
def partType : Bytes := [0x41, 0x5A, 0x38, 0x2D, 0x31, 0x36, 0x30, 0x30]

namespace State

/-- The stream of the `n`-th signature (R262): FAR; MIR with START_T, LOT_ID, PART_TYP and NODE_NAM; PIR; a PTR for each margin;
an FTR for each failing pattern; PRR; MRR. -/
def stdf (s : State) (n : Nat) : Bytes :=
  stdfRec 0 10 [2, 4] ++
  stdfRec 1 10 (stdfOpen n 0 4 ++ natLe 4 s.tim.rtcSec.toNat ++ stdfOpen n 1 7 ++ stdfText (Config.lotText s.ident.lot) ++
    stdfText partType ++ stdfText (Config.serialText s.ident.serial) ++ Config.stdfTail n 2) ++
  stdfRec 5 10 (stdfOpen n 3 2) ++
  (Config.margins n).flatMap (stdfRec 15 10) ++
  (Config.failingPatterns n).flatMap (stdfRec 15 20) ++
  stdfRec 5 20 (Config.stdfTail n 4) ++
  stdfRec 1 20 (stdfOpen n 5 4 ++ Config.stdfTail n 6)

/-- A failing privileged unit's signature is stored among the newest 64 (R261): TST-050 naming the unit, and, for this
Azard, SUSPECT with cause 3 (R253).  `kind` is the unit's SOURCE kind. -/
def storeSignature (s : State) (cls idx kind : Nat) : State :=
  let g : Signature := { unit := { cls := BitVec.ofNat 8 cls, index := BitVec.ofNat 8 idx }, stream := s.stdf s.free, time := s.now }
  let l := s.tst.signatures
  let s := s.useFree
  -- writes to a stopped partition end (R392)
  let s := if s.evr.stopped.contains 0 then s else { s with tst.signatures := (if l.length < 64 then l else l.drop 1) ++ [g] }
  let s := s.event 13 50 (evSource kind idx)
  { s with tst.suspect := true, tst.cause := 3 }.eventCode 13 23 0 3

end State

end Sys2Proof.Machine
end

