-- ==== Sys2Proof/Machine/Power.lean ====
section
/-!
DEFINITION. Sys2Proof/Machine/Power.lean: kindling entries, stages and failures (15 R354–R365, 01 R21–R22), rails and
power loss (19 R421–R427), updates (15 R366–R368).
-/

namespace Sys2Proof.Machine

namespace State

/-! ## Kindling -/

/-- A tally takes the larger of the journal's value and the VBAT copy (R394). -/
def mergeTallies (s : State) : State :=
  let damaged := s.evr.journalDamaged
  let j := if damaged then s.evr.journalPrev else s.evr.journal
  let merged := j.foldl (fun (m : Map Word) kv =>
    if (Map.get 0 m kv.1).toNat < kv.2.toNat then Map.set 0 m kv.1 kv.2 else m) s.evr.tallies
  let t := { s with evr.tallies := merged, evr.journalDamaged := false }
  if damaged then t.event 23 1 0 else t

/-- The pages per stack at kindling: every trained stack holds 32,768 pages; the reserve (8,192), the escrow pool (512 per GiB)
and the spill area offered to peers are spread evenly, the mirror pool has the rest (R265, R275, R20). -/
def stackPages (alive pool offer : Nat) (i : Nat) : Nat × Nat :=
  let share (total : Nat) := total / alive + (if i < total % alive then 1 else 0)
  (32768 - share 8192 - share (512 * pool) - share offer, share (512 * pool))

/-- Every kindling entry (R354): a journal record before the new epoch is used (R394), the tallies, the package epoch
(R370), the volatile memories zeroised (R350); registers not kept return to their reset values.  KIND 1 starts the time
base from 0 (R308) and clears the list of counting resets (R381). -/
def kindle (s : State) (kind : Nat) (cause : Nat := 0) : State :=
  let s := s.mergeTallies
  let s := (s.bumpTally (1 + kind))
  let s := if kind = 1 then s.bumpTally 0 else s
  let s := if kind = 4 then s.bumpTally 29 else s
  let ep := s.rst.epoch + 1
  let s := (s.setTally 28 (ep.setWidth 64)).journalWrite
  let up := decide (kind = 1)
  let t := s.tim
  let tim : Tim :=
    if up then { rtcFrac := t.rtcFrac, rtcValid := t.rtcValid, rtcSec := t.rtcSec, rtcLost := t.rtcLost }
    else { raw := t.raw, acc := t.acc, inc := t.inc, offset := t.offset, incNext := t.incNext, offNext := t.offNext,
           steps := t.steps, rtcFrac := t.rtcFrac, rtcValid := t.rtcValid, rtcSec := t.rtcSec, rtcSet := t.rtcSet,
           rtcLost := t.rtcLost }
  let e := s.evr
  let evr : Evr := Evr.flush
    { stored := e.stored, opened := e.opened, queue := e.queue, nextSeq := e.nextSeq, lost := e.lost,
      overwritten := e.overwritten, tallies := e.tallies, journal := e.journal, journalSeq := e.journalSeq,
      journalPrev := e.journalPrev, spareUsed := e.spareUsed, stopped := e.stopped }
  let k := s.kin
  let r := s.rst
  let c := s.sec
  { s with
    tim := tim
    evr := { evr with cursor := Evr.newest evr }
    kin := { power := .kindling, stage := 1, reason := if up then 0 else k.reason, fails := k.fails, device := k.device,
             pending := k.pending, lastGood := k.lastGood, elapsed := k.elapsed, img := k.img, floor := k.floor,
             fwCounter := k.fwCounter, fwFloor := k.fwFloor, fwVersion := k.fwVersion, norA := k.norA, norB := k.norB,
             pack := k.pack, recovFails := k.recovFails, recovReady := k.recovReady, inRecovery := decide (kind = 4) }
    rst := { kind := BitVec.ofNat 4 kind, recoveryCause := BitVec.ofNat 8 cause, epoch := ep,
             counting := if up then [] else r.counting, oos := r.oos, drained := r.drained, oosCause := r.oosCause,
             recoveries := if kind = 4 then satInc r.recoveries else r.recoveries }
    pwr := { s.pwr with active := false, cause := 0, out := false, entries := 0, halved := false, clockSteps := 0 }
    die := { hearths := Hearth.table }
    ports := tabulate {} 25 fun p => loadPort k.img {} p
    egress := []
    fabric := {}
    alc := {}
    ctxs := []
    clr := {}
    mir := { stackA := s.mir.stackA, stackB := s.mir.stackB }
    esc := {}
    tst := { sets := s.tst.sets, signatures := s.tst.signatures, flagged := r.drained }
    tel := {}
    sec := { lc := c.lc, identity := c.identity, identityKey := c.identityKey, kemKey := c.kemKey,
             identityChain := c.identityChain, kemCert := c.kemCert, opKey := c.opKey, opSubject := c.opSubject, nonce := c.nonce,
             drbgValid := false, selftest := 0, jtag := decide (c.lc = LifeCycle.service) }
    engines := s.engines.filter fun x => 68 ≤ x.1
    ctl := {} }.eventCode 17 40 0 3

/-- The off order of the switched rails begins with SerDes (R425). -/
def railsOff (s : State) : State :=
  { s with pwr.enSerdes := false, pwr.goingOff := s.pwr.enHbm || s.pwr.enSram || s.pwr.enCore || s.pwr.pgSerdes }

/-- The times in one window [t, t + 60 min) of corrected time that holds two failed recoveries (R22). -/
def recoveryFailed (s : State) : State :=
  let l := s.kin.recovFails
  let near := match l.getLast? with
    | some t => decide ((s.now - t).toNat < 3600000000000)
    | none => false
  let s := { s with kin.recovFails := l ++ [s.now] }
  if near && !s.rst.oos then s.setOos 2 else s

/-- A kindling fails (R364): KIN-010, REASON, FAILS, core rails off; with FAILS at 3 or more, ember mode (R365).  The
kindling of a package recovery that fails counts under R22. -/
def kindleFail (s : State) (reason : Nat) : State :=
  let s := s.eventCode 18 10 0 reason
  let f := satInc s.kin.fails
  let s := { s with kin.reason := BitVec.ofNat 8 reason, kin.fails := f }
  let s := s.railsOff
  let s := { s with ports := tabulate {} 25 fun p => loadPort s.kin.img (s.port p) p, egress := [] }
  let s := if s.kin.inRecovery then recoveryFailed { s with kin.inRecovery := false } else s
  if 3 ≤ f.toNat then { s with kin.power := .ember, kin.stage := 8 }.event 18 20 0
  else { s with kin.power := .retryWait }

/-- Ember mode at once, FAILS unchanged: the life cycle is PROVISIONED (R362, R364 reason 1). -/
def kindleNoOperator (s : State) : State :=
  let s := (s.eventCode 18 10 0 1).railsOff
  { s with kin.reason := 1, kin.power := .ember, kin.stage := 8, kin.inRecovery := false }.event 18 20 0

/-- A package recovery begins (R21, R377): RST_ENTRY.RECOVERY_CAUSE, package epoch.  A further one within 10 min of the
READY that ended the one before it means that one failed; so does any that begins before that READY (R22; DEDUCED, log entry 88):
its kindling has not reached READY.  An MPD that does not come back (cause 5) is no die-level error and fails only the latter. -/
def recover (s : State) (cause : Nat) : State :=
  let again := match s.kin.recovReady with
    | some t => decide ((s.now - t).toNat < 600000000000)
    | none => false
  let s := if (again && cause ≠ 5) || s.kin.inRecovery then s.recoveryFailed else s
  let open_ := s.unanswered
  open_.foldl (fun (s : State) r => s.nackRetry r) ({ s with kin.recovReady := none }.kindle 4 cause)

/-- The switched power-goods are all asserted (R425). -/
def railsUp (s : State) : Bool := s.pwr.pgHbm && s.pwr.pgSram && s.pwr.pgCore && s.pwr.pgSerdes

/-- The next enable of the sequence HBM, SRAM, CORE, SERDES, groups already up skipped (R425). -/
def nextEnable (s : State) : State :=
  if !s.pwr.pgHbm then { s with pwr.enHbm := true }
  else
    let s := { s with pwr.enHbm := true }
    if !s.pwr.pgSram then { s with pwr.enSram := true }
    else
      let s := { s with pwr.enSram := true }
      if !s.pwr.pgCore then { s with pwr.enCore := true }
      else
        let s := { s with pwr.enCore := true }
        { s with pwr.enSerdes := true }

/-- READY (R355, R364): KIN-001 with the elapsed time, FAILS 0, LAST_GOOD, the date of first operation (R5), the end of
a recovery, and, out of service, drained (R22, R382); every hearth counts as having passed its test now (log entry 86). -/
def ready (s : State) (elapsed : BitVec 16) : State :=
  let s := s.record 18 1 0 0 (elapsed.setWidth 32) 0
  let s := if s.tally 27 = 0 && s.tim.rtcValid then s.setTally 27 (s.tim.rtcSec.setWidth 64) else s
  let s := { s with kin.power := .ready, kin.stage := 7, kin.fails := 0, kin.lastGood := s.kin.device,
                    kin.elapsed := elapsed, kin.recovReady := if s.kin.inRecovery then some s.now else s.kin.recovReady,
                    kin.inRecovery := false, sec.spillKey := some (s.freeBits 256) }.useFree
  let s := (List.range 68).foldl (fun (s : State) h => s.modHearth h fun x => { x with lastPass := s.now }) s
  s.drainIfEmpty

/-- Stage 1 ends (R355, R356): the ROM check, and KIN-003 for each device that lacks 8D-8D-8D with data strobe. -/
def stage1 (s : State) (r : StageReport) : State :=
  let s := r.slow.foldl (fun (s : State) d => s.record 18 3 0 0 (BitVec.ofNat 32 d) 0) s
  if !r.romOk then s.kindleFail 4 else { s with kin.stage := 2 }

/-- Stage 2 ends (R329, R355, R362): self-tests, set selection, image values; stage 3 then enables the rails unless the
pilot-domain sensor reads 85 °C or above (R432). -/
def stage2 (s : State) (r : StageReport) : State :=
  if r.selftest ≠ 0 then
    { s with sec.failed := r.selftest, sec.selftest := 2, sec.error := true }.kindleFail 3
  else
    -- the vault is up again: the DRBG runs, and SEC_LC_NONCE takes a fresh value of it (R349; a free value, log entry 3)
    let s := { s with sec.selftest := 1, sec.failed := 0, sec.drbgValid := true, sec.nonce := s.freeBits 64 }.useFree
    -- outside OWNED no operator key is enrolled, so no set can verify (R331, R348, R362)
    if s.sec.lc ≠ .owned then s.kindleNoOperator
    else
      match selectSet s with
      | (s, none) => s.kindleFail 2
      | (s, some dev) =>
        let s := { runSet s dev with kin.stage := 3 }
        if r.hot then s else s.nextEnable

/-- Stage 3 ends once the rails are up (R425): the MPD's firmware, and at least one UCIe module (R12). -/
def stage3 (s : State) (r : StageReport) : State :=
  if !s.railsUp then (if r.hot then s else s.nextEnable)
  else if !r.mpdOk then s.kindleFail 5
  else if !r.ucie0 && !r.ucie1 then s.kindleFail 6
  else
    let s := { s with die.ucie0 := r.ucie0, die.ucie1 := r.ucie1, kin.stage := 4, rst.mpdUp := true }
    if r.ucie0 && r.ucie1 then s else s.event 1 3 0

/-- Stage 4 ends: fewer than six stacks trained fail the kindling; a stack that fails is retired with HBM-040
(R20, R364 reason 7), and the shard ledger's copies, all of it FREE, stand on two working stacks (R108). -/
def stage4 (s : State) (r : StageReport) : State :=
  let alive := (List.range 8).filter fun i => r.hbms.getLsbD i
  if alive.length < 6 then s.kindleFail 7
  else
    let s := (List.range 8).foldl (fun (s : State) i =>
      if r.hbms.getLsbD i then
        let n := stackPages alive.length s.esc.poolGib.toNat s.alc.spillOffer.toNat (alive.findIdx (· = i))
        s.setHbm i { cleanMirror := n.1, cleanEscrow := n.2 }
      else ((s.setHbm i { failed := true, cleanMirror := 0, cleanEscrow := 0 }).event 4 40 (evSource 3 i)).storeSignature 1 i 3) s
    let s := ((List.range 8).filter fun i => (s.hbm i).failed).foldl (fun (s : State) i => s.rebuildTable i) s
    { s with kin.stage := 5, mir.rebuild := false }

/-- Pages of a stack that fail their read-back leave the pool one by one, each with ALC-001 (R266). -/
def retireClean (s : State) (i : Nat) (part : Part) (k : Nat) : State :=
  (List.range k).foldl (fun (s : State) _ =>
    let h := s.hbm i
    match part with
    | .mirror => if h.cleanMirror = 0 then s
      else (s.setHbm i { h with cleanMirror := h.cleanMirror - 1, retiredPages := h.retiredPages + 1 }).event 14 1 (evSource 3 i)
    | .escrow => if h.cleanEscrow = 0 then s
      else (s.setHbm i { h with cleanEscrow := h.cleanEscrow - 1, retiredPages := h.retiredPages + 1 }).event 14 1 (evSource 3 i)) s

/-- Stage 5 ends: all HBM is written with zeros and read back; pages that fail are RETIRED with ALC-001 (R266). -/
def stage5 (s : State) (r : StageReport) : State :=
  let s := r.badPages.zipIdx.foldl (fun (s : State) b => s.retireClean b.2 .mirror b.1) s
  let s := r.badEscrow.zipIdx.foldl (fun (s : State) b => s.retireClean b.2 .escrow b.1) s
  -- stage 6 begins: HELLO on every locked port
  (List.finRange 25).foldl (fun (s : State) (p : Fin 25) =>
    if (s.port p).state = .hello && (s.port p).helloSent = [] then s.sendHello p else s) { s with kin.stage := 6 }

/-- Every enabled Osfel-T and Osfel-F port is UP, QUARANTINE or DOWN (R355). -/
def portsSettled (s : State) : Bool :=
  (List.range 25).all fun p =>
    let q := s.port p
    !q.enable || q.mode = 2 || q.mode = 3 || q.state = .up || q.state = .quarantine || q.state = .down || q.state = .member

/-- A fatal die-level error (R21): 1 SUPERVISOR, 2 NOC, 3 VAULT, 4 ROM.  Those that a kindling in progress has a reason for fail it
(R364); any other begins a package recovery. -/
def fatalError (s : State) (cause : Nat) : State :=
  if s.kin.power = .kindling then
    match cause with
    | 1 => s.kindleFail 10
    | 3 => { s with sec.error := true }.kindleFail 3
    | 4 => s.kindleFail 4
    | _ => s.recover cause
  else s.recover cause

end State

/-! ## Pilot rail, REFCLK, RESET_IN_n -/

/-- PILOT_RAIL_POWER_UP (R354): PG_PILOT asserts; the time base starts from 0; the kindling counts a power cycle. -/
def execPilotRailPowerUp (s : State) : Host.Outcome State Fault Refusal :=
  .next ({ s.begin with pwr.pgPilot := true }.kindle 1)

/-- RESET_IN_N (R354): deasserted after `held` ns asserted; a pulse shorter than 10 µs is ignored. -/
def execResetInN (held : Nat) (s : State) : Host.Outcome State Fault Refusal :=
  let s := s.begin
  .next (if held < 10000 || !s.pwr.pgPilot then s else s.kindle 3)

/-- Everything but VBAT-held state stops at once (R424–R427): nothing is answered; enables read low (R419).  Without
VBAT the open record, the holding queue, the failure count and the tally staging are lost too. -/
def State.pilotLost (s : State) : State :=
  let s := { s with pwr.pgPilot := false, pwr.enCore := false, pwr.enSram := false, pwr.enSerdes := false,
                    pwr.enHbm := false, pwr.goingOff := false, kin.power := .off, kin.stage := 0, kin.inRecovery := false }
  let s := { s with engines := s.engines.filter (fun x => 68 ≤ x.1), ctxs := [],
                    ports := tabulate {} 25 fun p => loadPort s.kin.img {} p, egress := [],
                    mir := { stackA := s.mir.stackA, stackB := s.mir.stackB } }
  if s.pwr.vbatOk then s
  else { s with evr.opened := none, evr.queue := [], evr.tallies := [], kin.fails := 0, tim.rtcValid := false,
                tim.rtcLost := true }

/-- PILOT_PG_LOSS (R426). -/
def execPilotPgLoss (s : State) : Host.Outcome State Fault Refusal :=
  .next (if s.pwr.pgPilot then s.begin.pilotLost else s.begin)

/-- REFCLK_LOSS (R421): no edge for 1 µs is handled as a deassertion of PG_PILOT. -/
def execRefclkLoss (s : State) : Host.Outcome State Fault Refusal :=
  .next (if s.kin.power = .off then s.begin else s.begin.pilotLost)

/-- REFCLK_RETURN (R421): the kindling on its return has entry pilot-rail power-up, the raw counter from 0. -/
def execRefclkReturn (s : State) : Host.Outcome State Fault Refusal :=
  .next (if s.kin.power = .off then { s.begin with pwr.pgPilot := true }.kindle 1 else s.begin)

/-- VBAT_LOW (R427): VBAT_OK reads 0 and the RTC loses VALID. -/
def execVbatLow (s : State) : Host.Outcome State Fault Refusal :=
  let s := { s.begin with pwr.vbatOk := false, tim.rtcValid := false, tim.rtcLost := true }
  .next (if s.pwr.pgPilot then s
    else { s with evr.opened := none, evr.queue := [], evr.tallies := [], kin.fails := 0 })

/-! ## Switched rails -/

/-- The power-good of a group set to a level. -/
def Pwr.setPg (w : Pwr) (r : Rail) (v : Bool) : Pwr :=
  match r with
  | .hbm => { w with pgHbm := v }
  | .sram => { w with pgSram := v }
  | .core => { w with pgCore := v }
  | .serdes => { w with pgSerdes := v }

/-- The enable of a group. -/
def Pwr.enabled (w : Pwr) (r : Rail) : Bool :=
  match r with
  | .hbm => w.enHbm
  | .sram => w.enSram
  | .core => w.enCore
  | .serdes => w.enSerdes

/-- The power-good of a group. -/
def Pwr.good (w : Pwr) (r : Rail) : Bool :=
  match r with
  | .hbm => w.pgHbm
  | .sram => w.pgSram
  | .core => w.pgCore
  | .serdes => w.pgSerdes

/-- A kindling is running. -/
def State.kindling (s : State) : Bool := s.kin.power = .kindling

/-- SWITCHED_PG_LOSS (R426): outside a kindling every engine stops, all enables go off in the off order and nothing is
answered until the KIND 2 kindling; a running kindling fails with POWER. -/
def execSwitchedPgLoss (r : Rail) (s : State) : Host.Outcome State Fault Refusal :=
  let s := s.begin
  let was := s.pwr.enabled r && s.pwr.good r
  let t := { s with pwr := s.pwr.setPg r false }
  .next (if !was then t
    else if t.kindling then t.kindleFail 8
    else match t.kin.power with
      | .ready | .pilotOnly | .waking =>
        { t.railsOff with kin.power := .railLost, ctxs := [], engines := t.engines.filter (fun x => 68 ≤ x.1),
                          mir := { stackA := t.mir.stackA, stackB := t.mir.stackB } }
      | _ => t)

/-- CORE_POWER_UP_KINDLING (R426): 1 s after the loss a kindling with entry KIND 2 starts. -/
def execCorePowerUpKindling (s : State) : Host.Outcome State Fault Refusal :=
  .next (if s.kin.power = .railLost then s.begin.kindle 2 else s.begin)

/-- The ports train warm once the rails are back after pilot-only (R429): a port with signal leaves DOWN when its signal
is detected again. -/
def State.wakeDone (s : State) : State :=
  if s.kin.power = .waking && s.railsUp then
    { s with kin.power := .ready, die.regions := Map.mapVals {} s.die.regions fun _ (r : Region) => { r with pll := .running } }
  else s

/-- RAIL_PG_ASSERT (R425): a power-good asserts in answer to the enable, and the next enable is asserted. -/
def execRailPgAssert (r : Rail) (s : State) : Host.Outcome State Fault Refusal :=
  let s := s.begin
  .next (if s.pwr.enabled r then
      let t := { s with pwr := s.pwr.setPg r true }
      if (t.kindling && t.kin.stage = 3) || t.kin.power = .waking then t.nextEnable.wakeDone else t
    else s)

/-- RAIL_PG_TIMEOUT (R425): 20 ms after its enable a power-good has not asserted; the kindling fails with POWER. -/
def execRailPgTimeout (r : Rail) (s : State) : Host.Outcome State Fault Refusal :=
  let s := s.begin
  .next (if s.kindling && s.pwr.enabled r && !s.pwr.good r then s.kindleFail 8 else s)

/-- The next enable of the off order SERDES, CORE, SRAM, HBM, after the power-good before it (R425).  In pilot-only HBM
stays on (R429). -/
def State.nextDisable (s : State) (r : Rail) : State :=
  match r with
  | .serdes => { s with pwr.enCore := false }
  | .core => { s with pwr.enSram := false, pwr.goingOff := s.kin.power ≠ .pilotOnly }
  | .sram => if s.kin.power = .pilotOnly then { s with pwr.goingOff := false } else { s with pwr.enHbm := false }
  | .hbm => { s with pwr.goingOff := false }

/-- RAIL_PG_DEASSERT (R425): a power-good deasserts after its enable did, or 10 ms pass (`timeout`), and the next enable
of the off order is deasserted. -/
def execRailPgDeassert (r : Rail) (timeout : Bool) (s : State) : Host.Outcome State Fault Refusal :=
  let s := s.begin
  .next (if s.pwr.enabled r then s
    else
      let t := if timeout then s else { s with pwr := s.pwr.setPg r false }
      if t.pwr.goingOff then t.nextDisable r else t)

/-! ## Kindling stages -/

/-- KINDLING_STAGE_DONE (R355). -/
def execKindlingStageDone (r : StageReport) (s : State) : Host.Outcome State Fault Refusal :=
  let s := s.begin
  .next (if !s.kindling then s
    else match s.kin.stage.toNat with
      | 1 => s.stage1 r
      | 2 => s.stage2 r
      | 3 => s.stage3 r
      | 4 => s.stage4 r
      | 5 => s.stage5 r
      | 6 => if s.portsSettled then s.ready r.elapsed else s
      | _ => s)

/-- KINDLING_STAGE_TIMEOUT (R355): a stage's limit passes; stage 6 then ends at READY unless the 6 s of the whole
kindling passed (`whole`). -/
def execKindlingStageTimeout (whole : Bool) (elapsed : BitVec 16) (s : State) : Host.Outcome State Fault Refusal :=
  let s := s.begin
  .next (if !s.kindling then s
    else if s.kin.stage = 6 && !whole then s.ready elapsed
    else s.kindleFail 11)

/-- KINDLING_RETRY (R364): 2 s after a failed kindling with FAILS below 3 a new one starts.  It is no entry of R354: the
epoch, the tallies and RST_ENTRY stand (log entry 12). -/
def execKindlingRetry (s : State) : Host.Outcome State Fault Refusal :=
  .next (if s.kin.power = .retryWait then { s.begin with kin.power := .kindling, kin.stage := 1 } else s.begin)

/-! ## RST_KIN_CMD (R368) -/

/-- A write of RST_KIN_CMD from a management path: the fields are stored, and the command acts when SEQ differs from
the last one acted on.  `act` answers `none` for a command that answers NACK_ACCESS and changes nothing. -/
def State.kinCmd (s : State) (rq : Req) (cmd : Nat) (seq : BitVec 16) (act : State → Option State) : State :=
  s.control rq true .mgmt fun s =>
    let t := { s with kin.cmd := BitVec.ofNat 2 cmd, kin.cmdSeq := seq }
    if seq = s.kin.cmdActed then t.ok rq
    else match act { t with kin.cmdActed := seq } with
      | some u => u.ok rq
      | none => s.nackAccess rq

/-- REKINDLE: refused while a context is not EMPTY (R367); the answer leaves before the kindling begins. -/
def State.rekindle (s : State) (rq : Req) (seq : BitVec 16) : State :=
  s.control rq true .mgmt fun s =>
    let t := { s with kin.cmd := 1, kin.cmdSeq := seq }
    if seq = s.kin.cmdActed then t.ok rq
    else if !s.allEmpty then s.nackAccess rq
    else { (t.ok rq).kindle 6 with kin.cmd := 1, kin.cmdSeq := seq, kin.cmdActed := seq }

/-- COMMIT: FLOOR and FW_FLOOR rise to the running counters; a floor never falls (R367). -/
def State.commitFloors (s : State) : State :=
  { s with kin.floor := if s.kin.floor.toNat < s.kin.img.counter.toNat then s.kin.img.counter else s.kin.floor,
           kin.fwFloor := if s.kin.fwFloor.toNat < s.kin.fwCounter.toNat then s.kin.fwCounter else s.kin.fwFloor }

/-- REKINDLE (R368). -/
def execRekindle (rq : Req) (seq : BitVec 16) (s : State) : Host.Outcome State Fault Refusal :=
  .next (s.begin.rekindle rq seq)

/-- COMMIT (R367, R368). -/
def execKinCommit (rq : Req) (seq : BitVec 16) (s : State) : Host.Outcome State Fault Refusal :=
  .next (s.begin.kinCmd rq 2 seq fun s => some s.commitFloors)

/-- DISARM (R368): the pending trial of the standby set is cleared. -/
def execKinDisarm (rq : Req) (seq : BitVec 16) (s : State) : Host.Outcome State Fault Refusal :=
  .next (s.begin.kinCmd rq 3 seq fun s => some { s with kin.pending := false })

/-! ## Updates (R366) -/

/-- The standby device: the one that is not LAST_GOOD. -/
def State.standby (s : State) : Bool := !s.kin.lastGood

/-- An update refused with a cause: STATE REFUSED and KIN-031. -/
def State.updRefuse (s : State) (cause : Nat) : State :=
  { s with kin.updState := .refused, kin.updCause := BitVec.ofNat 8 cause }.eventCode 18 31 0 cause

/-- A command given in a state that does not accept it is refused with SEQUENCE (R366 cause 12). -/
def State.updSequence (s : State) : State := s.updRefuse 12

/-- An object put in place of what its target area held. -/
def State.putTarget (s : State) (target : Nat) (b : Bytes) : State :=
  let put (d : NorSet) : NorSet := if target = 0 then { d with image := b } else { d with bundle := b }
  match target with
  | 2 => if s.evr.stopped.contains 1 then s else { s with kin.pack := if b = [] then none else some b }
  | _ => if s.standby then { s with kin.norB := put s.kin.norB } else { s with kin.norA := put s.kin.norA }

/-- OPEN: the target area is erased, STATE BUSY then OPEN; earlier staging is discarded; on the standby device PENDING
clears.  TARGET 3–7 is refused with SEQUENCE. -/
def State.updOpen (s : State) (target : BitVec 3) (length : BitVec 32) : State :=
  if 2 < target.toNat || s.kin.updState = .busy then s.updSequence
  else
    let s := s.putTarget target.toNat []
    { s with kin.updState := .busy, kin.updCause := 0, kin.updCount := 0, kin.updData := [], kin.updOpenTarget := target,
             kin.updOpenLength := length, kin.pending := if target = 2 then s.kin.pending else false }

/-- CLOSE: accepted when COUNT equals LENGTH; the object is read back (`good`: it reads back as written) and verified
under R362 causes 1–7 (image), 8–9 (bundle), or as a pack (R255, `packOk`). -/
def State.updClose (s : State) (good : Bool) (packOk : Bytes → Nat) : State :=
  if s.kin.updState ≠ .opened || s.kin.updCount ≠ s.kin.updOpenLength then s.updSequence
  else if !good then s.updRefuse 11
  else
    let b := s.kin.updData
    let cause := match s.kin.updOpenTarget.toNat with
      | 0 => verifyImage s b
      | 1 => verifyBundle s b
      | _ => packOk b
    if cause ≠ 0 then s.updRefuse cause
    else { (s.putTarget s.kin.updOpenTarget.toNat b) with kin.updState := .staged, kin.updCause := 0 }.event 18 30 0

/-- ARM: accepted when the standby set passes all of R362; packs are not armed. -/
def State.updArm (s : State) : State :=
  if s.kin.updState = .busy || s.kin.updState = .opened then s.updSequence
  else if verifySet s (norSet s s.standby) ≠ 0 then s.updRefuse 13
  else { s with kin.pending := true, kin.updState := .armed, kin.updCause := 0 }.event 18 30 0

/-- ABORT: the staging in progress is discarded. -/
def State.updAbort (s : State) : State :=
  if s.kin.updState = .busy || s.kin.updState = .opened then
    { s with kin.updState := .idle, kin.updCause := 0, kin.updData := [], kin.updCount := 0 }
  else s.updSequence

/-- A write of RST_UPD_CMD from a management path (R368). -/
def State.updCmdWrite (s : State) (rq : Req) (cmd : Nat) (target : BitVec 3) (seq : BitVec 16) (length : BitVec 32)
    (act : State → State) : State :=
  s.control rq true .mgmt fun s =>
    let t := { s with kin.updCmd := BitVec.ofNat 3 cmd, kin.updTarget := target, kin.updSeq := seq,
                      kin.updLength := length }
    if seq = s.kin.updActed then t.ok rq
    else (act { t with kin.updActed := seq }).ok rq

/-- UPD_OPEN (R366). -/
def execUpdOpen (rq : Req) (target : BitVec 3) (seq : BitVec 16) (length : BitVec 32) (s : State) :
    Host.Outcome State Fault Refusal :=
  .next (s.begin.updCmdWrite rq 1 target seq length fun s => s.updOpen target length)

/-- UPD_ERASE_DONE (R366): the erase completes; a failed erase is cause WRITE. -/
def execUpdEraseDone (good : Bool) (s : State) : Host.Outcome State Fault Refusal :=
  let s := s.begin
  .next (if s.kin.updState ≠ .busy then s
    else if good then { s with kin.updState := .opened } else s.updRefuse 11)

/-- 8 bytes are appended to the object being staged; bytes beyond LENGTH are discarded (R366). -/
def State.updAppend (s : State) (data : Word) : State :=
  if s.kin.updState = .opened then
    let room := s.kin.updOpenLength.toNat - s.kin.updData.length
    let b := (natLe 8 data.toNat).take room
    { s with kin.updData := s.kin.updData ++ b, kin.updCount := s.kin.updCount + BitVec.ofNat 32 b.length }
  else s

/-- UPD_DATA_WRITE (R366, R412). -/
def State.updData (s : State) (rq : Req) (data : Word) : State :=
  s.control rq true .mgmt fun s => s.once rq 0x2830 fun s => (s.updAppend data).ok rq

/-- UPD_DATA_WRITE (R366). -/
def execUpdDataWrite (rq : Req) (data : Word) (s : State) : Host.Outcome State Fault Refusal :=
  .next (s.begin.updData rq data)

/-- UPD_ARM (R366). -/
def execUpdArm (rq : Req) (target : BitVec 3) (seq : BitVec 16) (length : BitVec 32) (s : State) :
    Host.Outcome State Fault Refusal :=
  .next (s.begin.updCmdWrite rq 3 target seq length fun s => s.updArm)

/-- UPD_ABORT (R366). -/
def execUpdAbort (rq : Req) (target : BitVec 3) (seq : BitVec 16) (length : BitVec 32) (s : State) :
    Host.Outcome State Fault Refusal :=
  .next (s.begin.updCmdWrite rq 4 target seq length fun s => s.updAbort)

end Sys2Proof.Machine
end

