-- ==== Sys2Proof/Machine/Steps.lean ====
section
/-!
DEFINITION. Sys2Proof/Machine/Steps.lean: the commands of the step contract and of clearing (02, 04).
-/

namespace Sys2Proof.Machine

/-! ## The step record window (R34–R38) -/

/-- VOTE_LAG and CKPT_MODE of a control word (R35). -/
def ctlLag (w : Nat) : Nat := w / 256 % 16
def ctlMode (w : Nat) : Nat := w / 4096 % 4

/-- The record tag (R37). -/
def recordTag (lag mode : Nat) (bytes : Bytes) : Word :=
  BitVec.ofNat 64 (leNat (shake256 (natLe 8 (256 * lag + 4096 * mode) ++ bytes) 8))

/-- The vote-lag limit that VOTE_LAG and the charter give (R35, R337). -/
def voteLagOf (c : Charter) (lag : Nat) : Nat := if lag ≠ 0 then lag else if c.voteLag = 0 then 2 else c.voteLag.toNat

namespace State

/-- A refusal of a control-word write: REFUSE, STP-001 and NACK_BUSY (R36, R38). -/
def refuseStep (s : State) (rq : Req) (code : Nat) (st : Word) (att : BitVec 16) : State :=
  let s := s.modCtx rq.ctx fun c => { c with step.refuse := BitVec.ofNat 4 code }
  (s.record 5 1 (evSource 5 rq.ctx) (BitVec.ofNat 32 code) (st.setWidth 32) (att.setWidth 32)).busy rq code

/-- Condition 1 of R36: the context is not ACTIVE, or a QUIESCE is under way. -/
def recordShut (s : State) (n : Nat) : Bool := (s.ctx n).life.st ≠ .active || (s.ctx n).life.quiescing

/-- Condition 6 of R36. -/
def orderBad (s : State) (n : Nat) (st : Word) (att : BitVec 16) : Bool :=
  let t := (s.ctx n).step
  decide (st.toNat ≠ t.released.toNat + 1) || st = BitVec.allOnes 64 ||
  t.accepted.any fun a => a.step = st && (a.phase = .opened || decide (att.toNat ≤ a.attempt.toNat))

/-- CMD = OPEN: the conditions of R36 in order. -/
def openRecord (s : State) (rq : Req) (ctl : Nat) : State :=
  let n : Nat := rq.ctx
  let w := (s.ctx n).step.window
  let bytes := w.read 8 0xB8
  let st : Word := BitVec.ofNat 64 (w.le 8 8)
  let att : BitVec 16 := BitVec.ofNat 16 (w.le 0x10 2)
  let lat : Latched := { voteLag := BitVec.ofNat 4 (ctlLag ctl), ckptMode := BitVec.ofNat 2 (ctlMode ctl), bytes := bytes }
  let dl := w.le 0x18 8
  if s.recordShut n then s.refuseStep rq 1 st att
  else match s.findAtt n st att with
    | some a => if a.latched = lat then s.ok rq else s.refuseStep rq 7 st att
    | none =>
      if 4 < ctlLag ctl || ctlMode ctl = 3 then s.refuseStep rq 6 st att
      else if w.le 0x40 8 ≠ st.toNat || w.le 0x80 8 ≠ st.toNat then s.refuseStep rq 5 st att
      else if s.orderBad n st att then s.refuseStep rq 2 st att
      else if dl ≤ s.now.toNat then s.refuseStep rq 3 st att
      else if 3600 * second < dl - s.now.toNat then s.refuseStep rq 4 st att
      else
        let a : Attempt := {
          step := st, attempt := att, latched := lat, tag := recordTag (ctlLag ctl) (ctlMode ctl) bytes
          lag := BitVec.ofNat 4 (voteLagOf (s.ctx n).life.charter (ctlLag ctl)), phase := .opened, cause := 0
          origin := 0, hearths := (List.range 4).flatMap s.stagingHearths }
        (s.openAttempt n a).ok rq

/-- CMD = VOID (R38). -/
def voidRecord (s : State) (rq : Req) : State :=
  let n : Nat := rq.ctx
  let w := (s.ctx n).step.window
  let st : Word := BitVec.ofNat 64 (w.le 8 8)
  let att : BitVec 16 := BitVec.ofNat 16 (w.le 0x10 2)
  match s.findAtt n st att with
  | some a => if a.phase = .opened then (s.requestVoid n a).ok rq else s.ok rq
  | none => s.refuseStep rq 2 st att

/-- The control word acts on what the window holds (R34, R36, R38). -/
def actRecord (s : State) (rq : Req) (ctl : Nat) : State :=
  match ctl % 4 with
  | 0 => s.ok rq
  | 1 => s.openRecord rq ctl
  | 2 => s.voidRecord rq
  | _ =>
    let w := (s.ctx rq.ctx).step.window
    s.refuseStep rq (if s.recordShut rq.ctx then 1 else 6) (BitVec.ofNat 64 (w.le 8 8)) (BitVec.ofNat 16 (w.le 0x10 2))

/-- A WR to the context's step record window (R34): the words are stored; a write that covers the control word acts on
it, and CMD reads 0 afterwards. -/
def writeWindow (s : State) (rq : Req) (off : Nat) (data : Bytes) : State :=
  if !s.endpoint rq then s.nackAccess rq
  else if off % 8 ≠ 0 || data.length % 8 ≠ 0 || 256 < off + data.length then s.nackAddress rq
  else
    let s := s.modCtx rq.ctx fun c => { c with step.window := c.step.window.write off data }
    if off ≠ 0 || data = [] then s.ok rq
    else
      let ctl := (s.ctx rq.ctx).step.window.le 0 8
      let s := s.modCtx rq.ctx fun c => { c with step.window := c.step.window.write 0 (natLe 8 (ctl - ctl % 4)) }
      s.actRecord rq ctl

/-- A write from the control word on with the given CMD (R34, R35); a write of fewer bytes than the word is judged as such. -/
def writeControl (s : State) (rq : Req) (cmd : Nat) (data : Bytes) : State :=
  let ctl := Bytes.le data 0 8
  s.osfel rq fun s => s.writeWindow rq 0 ((natLe 8 (ctl - ctl % 4 + cmd)).take data.length ++ data.drop 8)

end State

open State

/-- A request to the context's step record window other than those of the next three commands (R34): a WR with CMD = 0 or
without the control word, or a RD. -/
def State.windowRequest (s : State) (rq : Req) (op : OpCode) (off len : Nat) (data : Bytes) : State :=
  match op with
  | .wr => if off = 0 && data ≠ [] then s.writeControl rq 0 data else s.osfel rq fun s => s.writeWindow rq off data
  | .rd => s.osfel rq fun s =>
    if !s.endpoint rq then s.nackAccess rq
    else if off % 8 ≠ 0 || len % 8 ≠ 0 || 256 < off + len then s.nackAddress rq
    else s.answer rq .ok 0 ((s.ctx rq.ctx).step.window.read off len)
  | _ => s.osfel rq fun s => s.nackAccess rq

/-- STEP_RECORD_STORE (R34). -/
def execStepRecordStore (rq : Req) (op : OpCode) (off len : Nat) (data : Bytes) (s : State) :
    Host.Outcome State Fault Refusal :=
  .next (s.windowRequest rq op off len data)

/-- STEP_OPEN (R36): CMD = OPEN; `data` holds the words from 0x00 on. -/
def execStepOpen (rq : Req) (data : Bytes) (s : State) : Host.Outcome State Fault Refusal :=
  .next (s.writeControl rq 1 data)

/-- STEP_VOID (R38): CMD = VOID. -/
def execStepVoid (rq : Req) (data : Bytes) (s : State) : Host.Outcome State Fault Refusal :=
  .next (s.writeControl rq 2 data)

/-- STEP_RECORD_RESERVED_CMD (R36): CMD = 3. -/
def execStepRecordReservedCmd (rq : Req) (data : Bytes) (s : State) : Host.Outcome State Fault Refusal :=
  .next (s.writeControl rq 3 data)

/-! ## The descriptor table (R85, R86, R105) -/

/-- A configuration half as written (R85). -/
def setDescr (w : Word) (g : Seg) : Seg :=
  { g with elements := w.setWidth 32, group := w.extractLsb' 32 5, cfmt := w.extractLsb' 40 4, rfmt := w.extractLsb' 44 4,
           auto := w.getLsbD 48, sr := w.getLsbD 49 }

/-- The words of a table write stored one by one: a descriptor, or the E0 field of a status word. -/
def writeDescrs (m : Map Seg) : Nat → Nat → Bytes → Map Seg
  | 0, _, _ => m
  | f + 1, i, d =>
    let w : Word := BitVec.ofNat 64 (Bytes.le d 0 8)
    let m := Map.mod {} m (i / 2) fun g =>
      if i % 2 = 0 then setDescr w g else { g with e0 := w.extractLsb' 32 16, initE0 := w.extractLsb' 32 16 }
    writeDescrs m f (i + 1) (d.drop 8)

/-- A segment's descriptor as R85 lays it out. -/
def descrWord (g : Seg) : Word :=
  Word.pack [(0, g.elements.toNat), (32, g.group.toNat), (40, g.cfmt.toNat), (44, g.rfmt.toNat), (48, bit g.auto),
    (49, bit g.sr)]

/-- A segment's status word (R105). -/
def statusWord (g : Seg) : Word :=
  Word.pack [(0, bit g.nonfinite), (1, bit g.winOvf), (2, bit g.range), (3, bit g.forced), (16, g.maxexp.toNat),
    (32, g.e0.toNat), (48, g.attempt.toNat)]

/-- A request to the descriptor table (R86).  Alignment and extent are judged before the context's state, an order R86 does not
give (the model's choice, log entry 93). -/
def State.descrRequest (s : State) (rq : Req) (op : OpCode) (off len : Nat) (data : Bytes) : State :=
  s.osfel rq fun s =>
    let n := match op with | .wr => data.length | _ => len
    if !s.endpoint rq || (op ≠ .wr && op ≠ .rd) then s.nackAccess rq
    else if off % 8 ≠ 0 || n % 8 ≠ 0 || 65520 < off + n then s.nackAddress rq
    else if op = .rd then
      s.answer rq .ok 0 ((List.range (n / 8)).flatMap fun i =>
        let k := off / 8 + i
        let g := s.seg rq.ctx (k / 2)
        natLe 8 (if k % 2 = 0 then descrWord g else statusWord g).toNat)
    else if (s.ctx rq.ctx).life.st ≠ .chartered then s.nackAccess rq
    else (s.modCtx rq.ctx fun c => { c with clr.segs := writeDescrs c.clr.segs (data.length / 8) (off / 8) data }).ok rq

/-- DESCRIPTOR_TABLE_WR (R86). -/
def execDescriptorTableWr (rq : Req) (op : OpCode) (off len : Nat) (data : Bytes) (s : State) :
    Host.Outcome State Fault Refusal :=
  .next (s.descrRequest rq op off len data)

/-! ## Contributions (R84, R87, R88, R437) -/

namespace State

/-- The pairs of a group in which a node takes part. -/
def inPair (s : State) (n : Nat) (g : BitVec 5) (node : BitVec 16) : Bool :=
  (s.pairsOf n g).any fun p => p.defn.primary = node || p.defn.shadow = node || p.defn.referee = node

/-- A WRC whose attempt is OPEN and whose units are well placed is accepted (R87, R88 row 1). -/
def acceptUnits (s : State) (rq : Req) (k : Nat) (gd : GroupDef) (off : Nat) (data : Bytes) (stamp : Stamp) : State :=
  let n : Nat := rq.ctx
  let g := s.seg n k
  let member := gd.list.contains rq.source
  let chunksHit := (((elemsNear g.cfmt.toNat g.elements.toNat off data.length).map fun i => i / 1048576)).eraseDups
  match if member then s.stageChunks n k chunksHit else some s with
  | none => s
  | some s =>
    let now := s.now
    let s := s.modCtx n fun c => match c.wd.acceptedAt with
      | some t => { c with wd := { c.wd with acceptedAt := none, firstGaps := addGap c.wd.firstGaps (now.toNat - t.toNat) } }
      | none => c
    let s := s.takeUnits n k member (s.inPair n g.group rq.source) rq.source (data.length / 256 + 1) off data
    let s := if complete (s.seg n k) rq.source then s.noteArrival n (.member (BitVec.ofNat 12 k) rq.source) stamp else s
    ((s.comparePairs n g.group).reportGroups n).ok rq

/-- Rows 4–9 of R437, once the request names a defined segment and carries its flags. -/
def judgeUnits (s : State) (rq : Req) (x : Ext) (k off : Nat) (data : Bytes) (stamp : Stamp) : State :=
  let n : Nat := rq.ctx
  let g := s.seg n k
  match (s.ctx n).clr.groups.find? fun t => t.defn.group.setWidth 5 = g.group with
  | none => s.nackAccess rq
  | some t =>
    let party := t.defn.list.contains rq.source || (s.pairsOf n g.group).any fun p =>
      p.defn.shadow = rq.source || p.defn.referee = rq.source
    if x.claim ≠ s.memberClaim n rq.source then s.nackClaim rq
    else if !party then s.nackAccess rq
    else match s.openAtt n with
      | some a =>
        if a.step = x.step && a.attempt = x.attempt then
          if a.tag ≠ x.tag then
            ((s.record 6 20 (evSource 5 n) 0 (a.step.setWidth 32) (a.attempt.setWidth 32)).voidMismatch n a).busy rq 8
          else if !(s.awaited n t.defn).contains rq.source then s.busy rq 0x0A
          else
            let b := contribBytes g.cfmt.toNat g.elements.toNat
            if off % 256 ≠ 0 || b < off + data.length || (data.length % 256 ≠ 0 && off + data.length ≠ b) then s.nackAddress rq
            else s.acceptUnits rq k t.defn off data stamp
        else if (s.findAtt n x.step x.attempt).isSome || attBefore x.step x.attempt a.step a.attempt then
          { s with clr.stale := satInc s.clr.stale }.busy rq 9
        else s.busy rq 0x0A
      | none =>
        let closed := (s.findAtt n x.step x.attempt).isSome || match s.newestAtt n with
          | some a => attBefore x.step x.attempt a.step a.attempt
          | none => false
        if closed then { s with clr.stale := satInc s.clr.stale }.busy rq 9 else s.busy rq 0x0A

end State

/-- CONTRIBUTION_WRC (R437): a request to a segment window, at byte `off`, the stamp of its last byte with it. -/
def execContributionWrc (rq : Req) (op : OpCode) (seg : BitVec 12) (off : Nat) (data : Bytes) (stamp : MacStamp)
    (s : State) : Host.Outcome State Fault Refusal :=
  .next (s.osfel rq fun s =>
    let n : Nat := rq.ctx
    match rq.path with
    | .port p =>
      if !(s.ctx n).bind.bound.any (fun b => b.1 = rq.source && b.2.toNat = p.val) then s.sourceDrop p
      else if (s.seg n seg.toNat).elements = 0 then s.nackAddress rq
      else if op ≠ .wrc then s.nackAccess rq
      else match rq.ext with
        | none => s.nackAccess rq
        | some x => if !x.hasAttempt || !x.hasClaim then s.nackAccess rq
          else s.judgeUnits rq x seg.toNat off data (s.ingress rq stamp)
    | _ => s)

/-! ## Upward flow (R92, R93, R97) -/

namespace State

/-- Every other block of the group has been sent: this chunk ends the node's last upward partial (R249). -/
def lastPartial (s : State) (n : Nat) (g : BitVec 5) (k c : Nat) : Bool :=
  (s.groupSegs n g).all fun x => (List.range (blockCount x.2)).all fun b =>
    x.2.sent.contains b || (x.1 = k && b / 16384 = c)

/-- The next block of a chunk that may be sent upward (R92, R249): the lowest unsent one, its inputs in. -/
def mayRise (s : State) (n : Nat) (t : GroupTree) (k b : Nat) : Bool :=
  let g := s.seg n k
  let grp := t.defn.group.setWidth 5
  g.group = grp && decide (b < blockCount g) && !g.sent.contains b &&
  ((chunkBlocks g (b / 16384)).filter fun x => decide (x < b)).all g.sent.contains && s.blockIn n t g b &&
  (!s.lastPartial n grp k (b / 16384) || s.pairsAgree n grp)

/-- An upward block sent; a chunk whose last block has gone frees its staging (R92). -/
def sendUp (s : State) (n : Nat) (a : Attempt) (p : BitVec 16) (k b : Nat) : State :=
  let g := s.seg n k
  let s := s.send { dest := .node (ctxFin n) p, op := .msg, kind := 0x10, hdr := some a.hdr, args := [k, 0], data := upBlock g b }
  s.modSeg n k fun g =>
    let g := { g with sent := putOnce g.sent b }
    if (chunkBlocks g (b / 16384)).all g.sent.contains then unstage (b / 16384) g else g

end State

/-- UPWARD_BLOCK_SEND (R92): block `b` of a segment goes to the parent; the group's VC holds coins. -/
def execUpwardBlockSend (c : Fin 16) (seg : BitVec 12) (b : Nat) (s : State) : Host.Outcome State Fault Refusal :=
  let s := s.begin
  .next (match s.openAtt c, (s.trees c).find? fun t => t.defn.group.setWidth 5 = (s.seg c seg.toNat).group with
    | some a, some t =>
      match t.parent with
      | some p => if (s.seg c seg.toNat).elements ≠ 0 && s.mayRise c t seg.toNat b then s.sendUp c a p seg.toNat b else s
      | none => s
    | _, _ => s)

/-- UPWARD_BLOCK_RECEIVED (R93, R103): accumulated for the OPEN attempt, held for the awaited step, or discarded. -/
def execUpwardBlockReceived (rq : Req) (hdr : AttHdr) (seg : BitVec 12) (data : Bytes) (stamp : MacStamp) (s : State) :
    Host.Outcome State Fault Refusal :=
  .next (s.messageQuiet rq fun s =>
    let n : Nat := rq.ctx
    match s.treeWith n seg.toNat fun t => t.children.contains rq.source with
    | none => s
    | some _ =>
        let hold (s : State) := if (s.findAtt n hdr.step hdr.attempt).isNone && hdr.step = (s.ctx n).step.released + 1 &&
            (s.ctx n).life.st = .active then
          s.modCtx n fun c => { c with clr.held := c.clr.held ++
            [{ up := true, seg := seg, child := rq.source, hdr := hdr, data := data, stamp := s.ingress rq stamp }] }
          else s
        match s.openAtt n with
        | some a =>
          if a.step = hdr.step && a.attempt = hdr.attempt then
            if a.tag ≠ hdr.tag then s.voidMismatch n a else s.takeUp n seg.toNat rq.source data (s.ingress rq stamp)
          else hold s
        | none => hold s)

/-- REPORT_RECEIVED (R97, R98): a group root's report at the step root. -/
def execReportReceived (rq : Req) (hdr : AttHdr) (g : BitVec 5) (segs : List SegReport) (stamp : MacStamp) (s : State) :
    Host.Outcome State Fault Refusal :=
  .next (s.message rq fun s =>
    let n : Nat := rq.ctx
    if !(s.ctx n).life.stepRoot then s
    else
      let hold (s : State) := if (s.findAtt n hdr.step hdr.attempt).isNone && hdr.step = (s.ctx n).step.released + 1 then
        s.modCtx n fun c => { c with clr.heldReports := c.clr.heldReports ++ [(hdr, g, s.ingress rq stamp, segs)] } else s
      match s.openAtt n with
      | some a =>
        if a.step = hdr.step && a.attempt = hdr.attempt then
          if a.tag ≠ hdr.tag then s.voidMismatch n a else s.takeReport n g (s.ingress rq stamp) segs
        else hold s
      | none => hold s)

/-! ## Lag, divergence (R45, R46) -/

/-- LAG_CLEAR_RECEIVED (R45): clearance of a node below, or at the step root of any node that sends directly. -/
def execLagClearReceived (rq : Req) (hdr : AttHdr) (s : State) : Host.Outcome State Fault Refusal :=
  .next (s.message rq fun s =>
    let n : Nat := rq.ctx
    let keep (s : State) := s.modCtx n fun c => { c with step.clears :=
      (c.step.clears.filter fun x => x ≠ (rq.source, hdr)) ++ [(rq.source, hdr)] }
    match s.findAtt n hdr.step hdr.attempt with
    | some a =>
      if a.phase ≠ .opened then s
      else if a.tag ≠ hdr.tag then s.voidMismatch n a
      else ((keep s).sendLag n).decideRelease n
    | none => if (s.ctx n).step.released.toNat < hdr.step.toNat then keep s else s)

/-- DIVERGENT_NOTE_RECEIVED (R46): the step root keeps the earliest divergent step. -/
def execDivergentNoteReceived (rq : Req) (entry : BitVec 16) (step : Word) (s : State) : Host.Outcome State Fault Refusal :=
  let _ := entry
  .next (s.message rq fun s => if (s.ctx rq.ctx).life.stepRoot then s.takeDivergent rq.ctx step else s)

/-! ## Release and delivery (R99, R100) -/

/-- RELEASE_RECEIVED (R99): group 31 stands for no group, as the step root sends it to an Azard outside every tree. -/
def execReleaseReceived (rq : Req) (hdr : AttHdr) (g : BitVec 5) (ms : List (BitVec 12 × BitVec 16))
    (ckpt : Option CkptTag) (s : State) : Host.Outcome State Fault Refusal :=
  .next (s.message rq fun s =>
    let st := (s.ctx rq.ctx).life.st
    if st = .active || st = .quiesced then s.takeRelease rq.ctx hdr (if g = 31 then none else some g) ms ckpt else s)

/-- DOWNWARD_BLOCK_RECEIVED (R99, R74): held before its RELEASE, else forwarded and rounded once; a block in error is
asked for again. -/
def execDownwardBlockReceived (rq : Req) (hdr : AttHdr) (seg : BitVec 12) (data : Bytes) (s : State) :
    Host.Outcome State Fault Refusal :=
  .next (s.messageQuiet rq fun s =>
    let n : Nat := rq.ctx
    let g := s.seg n seg.toNat
    match s.treeWith n seg.toNat fun t => t.parent = some rq.source with
    | none => s
    | some t =>
      if hdr.step = (s.ctx n).step.released + 1 then
        s.modCtx n fun c => { c with clr.held := c.clr.held ++
          [{ up := false, seg := seg, child := rq.source, hdr := hdr, data := data, stamp := 0 }] }
      else if g.elements = 0 || g.rounds.any (fun r => r.step = hdr.step && r.attempt = hdr.attempt) then
        s.downBlock n t seg.toNat hdr rq.source data
      else s)

namespace State

/-- The status word of a segment for a released step (R105). -/
def roundStatus (r : Round) : Word :=
  Word.pack [(0, bit r.nonfinite), (2, bit r.range), (3, bit r.forced), (16, r.maxexp.toNat), (32, r.e0.toNat),
    (48, r.attempt.toNat)]

/-- One rounded chunk written to a receiver's result window, the status word before the WRC that completes the segment
(R100). -/
def deliver (s : State) (n k c : Nat) (node : BitVec 16) (r : Round) (port : Nat) : State :=
  let g := s.seg n k
  let w := resultBytes g.rfmt.toNat
  let lo := 1048576 * c * w
  let hi := min g.elements.toNat (1048576 * (c + 1)) * w
  let spc := 2 * 2 ^ 44 + n * 2 ^ 40
  let rest := (List.range (chunkCount g)).all fun x => x = c || r.delivered.contains (node, x)
  let s := if rest then s.yobelWr (trayFin port) (spc + 0xFFF * 2 ^ 28 + 16 * k + 8) (natLe 8 (roundStatus r).toNat) else s
  let tag := ((s.committedAtt n r.step).map fun a => a.tag).getD 0
  let s := s.request { dest := .yobel (trayFin port), op := .wrc, addr := spc + k * 2 ^ 28 + lo,
                       hdr := some { step := r.step, attempt := r.attempt, tag := tag }, data := r.bytes.read lo (hi - lo) }
  s.modSeg n k fun g => { g with rounds := g.rounds.map fun x =>
    if x.step = r.step then { x with delivered := x.delivered ++ [(node, c)] } else x }

end State

/-- RESULT_DELIVERY (R100): chunk `c` of a segment, rounded for `step`, to a member, shadow or referee on this tray. -/
def execResultDelivery (x : Fin 16) (step : Word) (seg : BitVec 12) (c : Nat) (node : BitVec 16) (s : State) :
    Host.Outcome State Fault Refusal :=
  let s := s.begin
  let g := s.seg x seg.toNat
  .next (match g.rounds.find? (fun r => r.step = step), s.portOfNode x node,
      (s.trees x).find? (fun t => t.defn.group.setWidth 5 = g.group) with
    | some r, some p, some t =>
      if c < chunkCount g && (s.receivers x t.defn).contains node && !r.delivered.contains (node, c) &&
          (chunkBlocks g c).all (fun b => (r.blocks.map Prod.fst).contains b) then s.deliver x seg.toNat c node r p else s
    | _, _, _ => s)

/-! ## Deadlines (R96) -/

/-- EFFECTIVE_DEADLINE (R96) of this node in a group. -/
def execEffectiveDeadline (c : Fin 16) (g : BitVec 5) (s : State) : Host.Outcome State Fault Refusal :=
  let s := s.begin
  .next (match s.openAtt c, (s.trees c).find? fun t => t.defn.group.setWidth 5 = g with
    | some a, some t =>
      if (s.ctx c).clr.judged.contains g then s
      else
        let pass (s : State) := s.modCtx c fun x => { x with clr.judged := x.clr.judged ++ [g] }
        let late := s.lateInputs c a t
        if s.allSent c t || (late = [] && s.pairsAgree c g) then pass s
        else
          let s := { s with clr.late := satAdd s.clr.late late.length }
          (s.record 6 10 (evSource 5 c) 0 (a.step.setWidth 32) (a.attempt.setWidth 32)).voidSelf c a 1
    | _, _ => s)

/-- The step root's report deadline (R95). -/
def reportDeadline (a : Attempt) (gs : List GroupTree) : Nat :=
  (gs.map fun t => deadlineOf a + 1000 * (t.rootAllow + t.reportAllow)).foldl max 0

/-- REPORT_DEADLINE (R96): the step root judges the other group roots' reports; nothing voids an attempt in LAG_WAIT. -/
def execReportDeadline (c : Fin 16) (s : State) : Host.Outcome State Fault Refusal :=
  let s := s.begin
  let x := s.ctx c
  .next (match s.openAtt c with
    | some a =>
      if !x.life.stepRoot || x.step.lagWait then s
      else
        let dl := reportDeadline a x.clr.groups
        let late := x.clr.groups.filter fun t => t.root ≠ x.life.self &&
          !x.clr.reports.any fun r => r.1 = t.defn.group.setWidth 5 && decide (r.2.1 < nsStamp dl)
        if late = [] then s
        else
          let s := { s with clr.late := satAdd s.clr.late late.length }
          (s.record 6 10 (evSource 5 c) 0 (a.step.setWidth 32) (a.attempt.setWidth 32)).voidSelf c a 1
    | none => s)

/-! ## VOID and RESEND -/

/-- VOID_RECEIVED (R102): the OPEN attempt is voided and the VOID relayed; one for an attempt not accepted yet waits for
its record.  At the step root RUNTIME_REQUEST is a request of R38, and its sender is told as well. -/
def execVoidReceived (rq : Req) (hdr : AttHdr) (cause : BitVec 4) (origin : BitVec 16) (segs : List SegReport) (s : State) :
    Host.Outcome State Fault Refusal :=
  .next (s.message rq fun s =>
    let n : Nat := rq.ctx
    match s.findAtt n hdr.step hdr.attempt with
    | some a =>
      if a.phase ≠ .opened then s
      else if (s.ctx n).life.stepRoot && cause = 3 then s.takeVoidRequest n a.step a.attempt origin
      else s.voidAttempt n a cause origin rq.source segs
    | none =>
      if hdr.step = (s.ctx n).step.released + 1 && !(s.ctx n).clr.heldVoids.any (fun v => v.1 = hdr) then
        s.modCtx n fun c => { c with clr.heldVoids := c.clr.heldVoids ++ [(hdr, cause, origin, rq.source, segs)] }
      else s)

/-- RESEND_RECEIVED (R388, R74): the parent asks for a chunk's upward blocks again, a child for its downward blocks. -/
def execResendReceived (rq : Req) (hdr : AttHdr) (seg : BitVec 12) (c : Nat) (s : State) : Host.Outcome State Fault Refusal :=
  .next (s.message rq fun s =>
    let n : Nat := rq.ctx
    let g := s.seg n seg.toNat
    match (s.trees n).find? fun t => t.defn.group.setWidth 5 = g.group with
    | none => s
    | some t =>
      if t.parent = some rq.source then
        match s.openAtt n with
        | some a => if a.hdr = hdr then
            ((chunkBlocks g c).filter g.sent.contains).foldl (fun (s : State) b => s.sendUp n a rq.source seg.toNat b) s
          else s
        | none => s
      else if t.children.contains rq.source then
        match g.rounds.find? fun r => r.step = hdr.step with
        | some r => ((chunkBlocks g c).filter fun b => (r.blocks.map Prod.fst).contains b).foldl (fun (s : State) b =>
            s.send { dest := .node rq.ctx rq.source, op := .msg, kind := 0x10, hdr := some hdr, args := [seg.toNat, 1],
                     data := Map.get [] r.blocks b }) s
        | none => s
      else s)

end Sys2Proof.Machine
end

