-- ==== Sys2Proof/Machine/Contain.lean ====
section
/-!
DEFINITION. Sys2Proof/Machine/Contain.lean: what containment shares with the life of a context: joining a Yobel (07 R178–R182),
activation (11 R268–R271, 14 R334), wiping, eviction, context and hearth resets (16), a failed hearth or stack (01 R17–R20),
and ports that leave UP (12 R296, R302).
-/

namespace Sys2Proof.Machine

namespace State

/-! ## A node's Yobel (R178, R180, R229) -/

/-- The REQ_IDs of the requests that a state has sent beyond an earlier one. -/
def newIds (before after : State) : List (BitVec 32) := (after.ctl.out.drop before.ctl.out.length).map fun o => o.id

/-- The status tables of the result windows, written to a Yobel (R180). -/
def sendTables (s : State) (n k : Nat) : State :=
  (s.segsOf n).foldl (fun (s : State) x =>
    s.yobelWr (trayFin k) (2 * 2 ^ 44 + n * 2 ^ 40 + 0xFFF * 2 ^ 28 + 16 * x.1) (natLe 8 (descrWord x.2).toNat)) s

/-- YBL_CTX_CAPTURE as Azard writes it: the reset values of R177, TILES 16 and WINDOW_LOG2 16 (log entry 21). -/
def captureWord : Word := Word.pack [(0, 16), (8, 16)]

/-- YBL_CTX_CAPTURE, YBL_CTX_CLAIM and YBL_CTX_NODE in the order of R178. -/
def joinYobel (s : State) (n k : Nat) (node : BitVec 16) : State :=
  let b := 0x100 + 0x40 * n
  let s := s.yobelWr (trayFin k) (b + 0x38) (natLe 8 captureWord.toNat)
  let s := s.yobelWr (trayFin k) (b + 0x08) (natLe 8 (s.memberClaim n node).toNat)
  s.yobelWr (trayFin k) b (natLe 8 (Word.pack [(0, node.toNat), (16, (s.ctx n).life.self.toNat), (32, 1)]).toNat)

/-- Slots, images and hyper bytes of every local entry of a node (R229 steps 2 and 3). -/
def sendSlots (s : State) (n : Nat) (node : BitVec 16) : State :=
  ((s.entriesOf n).filter fun e => !e.2.role && e.2.owner = node && e.2.st ≠ .retiring).foldl (fun (s : State) e =>
    match s.takeSlot n e.1 with
    | none => s
    | some s => (s.takeProgram n e.1).sendProgram n e.1) s

/-- REMOVE for a context sent to the Yobel of a tray port whose link is UP; Azard's record of its slots there ends (R194). -/
def sendRemove (s : State) (n k : Nat) : State :=
  let s := s.modPort k fun p => { p with slotsUsed := p.slotsUsed.filter fun x => (s.entry x.entry.toNat).ctx.toNat ≠ n }
  let s := s.modTstPort k fun t => { t with tagStep := t.tagStep.filter fun x => x.1 ≠ n }
  if s.portUp k then
    let seq := s.ctl.nextId.toNat % 65536
    s.yobelWr (trayFin k) (0x100 + 0x40 * n + 0x28) (natLe 8 (Word.pack [(0, 1), (16, seq)]).toNat)
  else s

/-! ## Activation (R268–R271, R334) -/

/-- Root staging spread evenly over the powered regions, the rest from any (R268). -/
def takeRoot (s : State) (k : Nat) : State × List (Nat × Nat) :=
  let on := (List.range 4).filter s.powered
  let share (i : Nat) : Nat := k / on.length + (if i < k % on.length then 1 else 0)
  let (s, l) := on.zipIdx.foldl (fun (x : State × List (Nat × Nat)) q =>
    let (s, l) := x.1.takeFrom (share q.2) [2 * q.1, 2 * q.1 + 1]
    (s, x.2 ++ l)) (s, [])
  let (s, r) := s.takeFrom (k - pageCount l) (List.range 8)
  (s, l ++ r)

/-- Root staging of every group whose root this Azard is (R94, R268). -/
def rootDemand (s : State) (n : Nat) : Nat := ((s.ctx n).clr.groups.map fun g => g.rootPages).sum

/-- What an activation that does not complete has taken goes back: its pages were never written (R266). -/
def undoDemand (s : State) (n : Nat) : State :=
  if !(s.ctx n).life.activating then s
  else
    let s := s.returnClean (s.ctx n).clr.rootAlloc
    let s := (s.entriesOf n).foldl (fun (s : State) e =>
      if e.2.st = .retiring then s else (s.returnClean e.2.alloc).modEntry e.1 fun x => { x with alloc := [], mem := [] }) s
    let ports := ((s.ctx n).bind.bound.map fun b => b.2.toNat).eraseDups
    let s := ports.foldl (fun (s : State) k => s.sendRemove n k) s
    s.modCtx n fun c => { c with bind := { c.bind with bound := [], ever := [] } }

/-- ALC_ACT_LAST and the answer that a repeat of the command's SEQ gets (R269, R271). -/
def refuseActivation (s : State) (n code : Nat) : State :=
  let s := s.undoDemand n
  let s := { s with alc.actLastCtx := BitVec.ofNat 4 n, alc.actLastCause := BitVec.ofNat 8 code }
  s.modCtx n fun c => { c with
    life := { c.life with st := .chartered, outcome := .busy (BitVec.ofNat 8 (code + 0x1F)), waitReq := none, checks := []
                          activating := false, transfers := [], stepRoot := false }
    clr := { segs := c.clr.segs } }

/-- A context in WAIT_CLEAN leaves it for CHARTERED: its pages return CLEAN (R266, R271). -/
def dropWaiter (s : State) (n : Nat) : State :=
  let mine := s.alc.waiters.filter fun w => w.ctx.val = n
  let s := mine.foldl (fun (s : State) w => s.returnClean w.held) s
  { s with alc.waiters := s.alc.waiters.filter fun w => w.ctx.val ≠ n }

/-- The activation completes: ACTIVE, a new context epoch, the status registers at their activation values (R31, R45, R55,
R167, R219, R230, R334, R370, R386). -/
def enterActive (s : State) (n : Nat) : State :=
  let s := s.raiseEpoch n
  let base := (s.ctx n).life.charter.startStep
  let now := s.now
  s.modCtx n fun c =>
    let ch := c.life.charter
    { c with
      life := { c.life with st := .active, activating := false, transfers := [], checks := [], receiptStep := 0, issued := base
                            firstReceipt := true, restoredSeq := none, notes := [] }
      step := { window := c.step.window, released := base, voted := base, baseStep := base }
      prog := { slots := c.prog.slots, hyper := c.prog.hyper }
      bind := { bound := c.bind.bound, ever := c.bind.ever }
      esc := { steps := ch.ckptSteps, seconds := ch.ckptSeconds.setWidth 17, baseEvery := BitVec.ofNat 8 (baseEvery ch)
               targets := BitVec.ofNat 3 ch.flues.length, refStep := base, refTime := now }
      wd := { armed := true, limit := BitVec.ofNat 32 (s.kin.img.wdFloor.toNat * 1000) } }

/-- A logical node is the primary of a pair (R247). -/
def pairPrimary (s : State) (n : Nat) (node : BitVec 16) : Bool := (s.ctx n).clr.pairs.any fun p => p.defn.primary = node

/-- A logical node is bound to tray port k: TST_PAIR_TPk shows the pair whose primary it is (R264). -/
def bindPair (s : State) (n : Nat) (node : BitVec 16) (k : Nat) : State :=
  match (s.ctx n).clr.pairs.find? fun p => p.defn.primary = node with
  | none => s
  | some p => s.modTstPort k fun t => { t with
      pairValid := true, pairCtx := BitVec.ofNat 4 n, pairShadow := p.defn.shadow, pairStatus := p.status }

/-- The demand of an activation is available: pages taken, nodes bound to their tray ports, and every entry's program sent;
the activation completes when all of it is acknowledged (R117, R164, R178, R269). -/
def takeDemand (s : State) (n : Nat) : State :=
  let (s, root) := s.takeRoot (s.rootDemand n)
  -- a node that the table places on the spare port is bound only by the runtime (R29)
  let nodes := (s.localNodes n).filter fun x => x.2.toNat ≠ s.kin.img.sparePort.toNat
  let s := s.modCtx n fun c => { c with
    clr.rootAlloc := root, bind.bound := nodes, bind.ever := nodes.map Prod.fst
    life.stepRoot := decide (c.clr.root = c.life.self) }
  let s := nodes.foldl (fun (s : State) x => s.bindPair n x.1 x.2.toNat) s
  let s := ((s.entriesOf n).filter fun e => e.2.alloc = [] && e.2.st ≠ .retiring).foldl
    (fun (s : State) e => s.allocEntry e.1) s
  let t := nodes.foldl (fun (s : State) x => s.sendSlots n x.1) s
  let t := ((t.entriesOf n).filter fun e => !e.2.role && e.2.st ≠ .retiring).foldl (fun (s : State) e =>
    let s := s.takeProgram n e.1
    s.sync n e.1 .update 0 (programData (s.entry e.1))) t
  let t := nodes.foldl (fun (s : State) x => (s.sendTables n x.2.toNat).joinYobel n x.2.toNat x.1) t
  let ids := newIds s t
  let t := t.modCtx n fun c => { c with life := { c.life with activating := true, transfers := ids } }
  if ids = [] then t.enterActive n else t

/-- CLEAN pages go to the waiting contexts in order; one whose whole demand is held leaves WAIT_CLEAN (R270). -/
def serveWaiters (s : State) : State :=
  let (s, ws) := s.feedWaiters s.alc.waiters
  let full (w : Waiter) : Bool := waiterOpen w = 0
  let s := { s with alc.waiters := ws.filter fun w => !full w }
  (ws.filter full).foldl (fun (s : State) w => (s.returnClean w.held).takeDemand w.ctx) s

/-- The demand test of R269 rows 8 and 9 for a context, the pages it holds counted first against its mirror-page demand
(R271): none, or the refusal's code. -/
def demandCode (s : State) (ahead : Nat) (mirror root held : Nat) : Option Nat :=
  let have_ := s.cleanMirror + s.dirtyMirror - ahead
  let m := mirror - held
  let r := root - (held - mirror)
  if have_ < m then some 8 else if have_ < m + r then some 9 else none

/-- Each waiting context is judged again after a stack failure (R271). -/
def recheckWaiters (s : State) : State :=
  let rec go (s : State) (ahead : Nat) : List Waiter → State
    | [] => s
    | w :: r =>
      match s.demandCode ahead w.mirrorDemand w.rootDemand (pageCount w.held) with
      | some k => go ((s.dropWaiter w.ctx).refuseActivation w.ctx k) ahead r
      | none => go s (ahead + waiterOpen w) r
  (go s 0 s.alc.waiters).serveWaiters

/-! ## WIPING and EMPTY (R334, R350) -/

/-- A context whose last page is CLEAN becomes EMPTY: charter, key release, receipts and keys are erased (R334, R350). -/
def tryEmpty (s : State) (n : Nat) : State :=
  if (s.ctx n).life.st ≠ .wiping || s.hasDirty (ctxFin n) then s
  else
    let s := s.modCtx n fun c => { c with
      life := { cmd := c.life.cmd, seq := c.life.seq, acted := c.life.acted, outcome := c.life.outcome, cause := c.life.cause
                relCause := c.life.relCause, receiptStep := c.life.receiptStep }
      clr := {}
      prog := { c.prog with slots := [], hyper := [] }
      step := { c.step with window := [] }
      esc := { c.esc with key := none, rstKeys := [], chain := [] } }
    let s := { s with ports := Map.mapVals {} s.ports fun _ (p : Port) =>
      { p with closedFor := p.closedFor.filter fun k => k ≠ n, rewired := p.closedFor.any fun k => k ≠ n } }
    (s.zeroised 1).drainIfEmpty

/-- The pages of the wipe queue are all gone for some context or entry: EMPTY and FREE follow (R117, R267). -/
def settleWipes (s : State) : State :=
  let s := (s.mir.entries.filter fun e => e.2.st = .retiring).foldl (fun (s : State) e => s.freeEntry e.2.ctx.toNat e.1) s
  ctxNums.foldl (fun (s : State) (n : Fin 16) => s.tryEmpty n) s

/-- A command that waited for its answer is answered CONTEXT_STATE, since its context has left the state it needs (R335). -/
def dropWait (s : State) (n : Nat) : State :=
  match (s.ctx n).life.waitReq with
  | some q => (s.modCtx n fun c => { c with life := { c.life with waitReq := none, outcome := .busy 1 } }).busy q 1
  | none => s

/-- The context that a request sent by this Azard serves; 16 for none. -/
def msgScope (s : State) (m : Msg) : Nat :=
  match m.dest with
  | .node c _ => c
  | .yobel _ =>
    let sp := m.addr / 17592186044416
    if sp = 0 then
      (match m.addr, m.args with | 0x1000, [_, _, i, _] => (s.entry i).ctx.toNat | _, _ => 16)
    else if sp = 4 && m.addr / 4294967296 % 256 = 15 then 16
    else m.addr / 1099511627776 % 16
  | _ => 16

/-- A context leaves the states in which its requests are needed: they end unanswered (R411); a RESET_NOTE or an ABANDON goes on. -/
def dropRequests (s : State) (n : Nat) : State :=
  { s with ctl.out := s.ctl.out.filter fun o => !(s.msgScope o.msg = n && o.msg.kind ≠ 0x16 && o.msg.kind ≠ 0x33) }

/-- A context goes WIPING: its work ends, its checkpoint is abandoned, its entries go RETIRING, its Yobels get REMOVE, its
pages become DIRTY (R103, R194, R242, R334, R375). -/
def goWiping (s : State) (n : Nat) : State :=
  let s := ((s.dropWait n).dropWaiter n).abandonCkpt n 6
  let s := s.dropRequests n
  let ports := ((s.ctx n).bind.bound.map fun b => b.2.toNat).eraseDups
  let s := s.modCtx n fun c => { c with step := { c.step with
    accepted := [], updating := [], voting := [], clears := [], clearSent := none, committed := none, restored := [] } }
  let s := { s with engines := s.engines.filter fun e =>
    !(e.2.ctx.val = n && (match e.2.copy with | .mirror _ => true | _ => false)) }
  let s := (s.entriesOf n).foldl (fun (s : State) e => s.retire n e.1) s
  let s := ports.foldl (fun (s : State) k => s.sendRemove n k) s
  let s := s.makeDirty (some (ctxFin n)) .mirror (s.ctx n).clr.rootAlloc
  let s := s.modCtx n fun c => { c with
    life := { c.life with st := .wiping, quiescing := false, resuming := false, evictDue := false, activating := false, transfers := []
                          checks := [], waitReq := none, notes := [], receipts := [], stepRoot := false, relKeys := [], relKeysN := 0 }
    clr := { segs := Map.mapVals {} c.clr.segs fun _ (x : Seg) => { dropStaging x with rounds := [] } }
    bind := { c.bind with bound := [], ever := [] }
    wd := {} }
  (s.settleWipes).serveWaiters

/-! ## Out of service (R381, R382) -/

/-- A context goes EVICTING (R382). -/
def evictNow (s : State) (n : Nat) : State :=
  let stop := s.now + BitVec.ofNat 64 (s.kin.img.evict.toNat * second)
  let s := (s.dropWait n).modCtx n fun c => { c with
    life := { c.life with st := .evicting, quiescing := false, resuming := false, evictDue := false } }
  { s with rst.evictEnd := stop }.event 19 30 (evSource 5 n)

/-- A QUIESCED context with an eviction notice goes EVICTING once its parked copies are home (R276; log entry 82). -/
def tryEvict (s : State) (n : Nat) : State :=
  let l := (s.ctx n).life
  if l.evictDue && l.st = .quiesced && s.parkedOf n = [] then s.evictNow n else s

/-- An eviction notice: ACTIVE and QUIESCED go EVICTING, an activation under way is refused (R382); a QUIESCED context first
has its parked copies brought home (R276). -/
def evict (s : State) (n : Nat) : State :=
  match (s.ctx n).life.st with
  | .active => s.evictNow n
  | .quiesced =>
    if s.parkedOf n = [] then s.evictNow n
    else
      let s := (s.dropWait n).modCtx n fun c => { c with life := { c.life with evictDue := true, resuming := false } }
      s.askParked n
  | .waitClean => (s.dropWaiter n).refuseActivation n 1
  | .chartered => if (s.ctx n).life.activating then s.refuseActivation n 1 else s
  | _ => s

/-- Azard goes out of service with a cause (R381); its contexts get their notices (R382). -/
def outOfService (s : State) (cause : Nat) : State :=
  if s.rst.oos then s
  else
    let s := s.setOos cause
    (ctxNums.foldl (fun (s : State) (n : Fin 16) => s.evict n) s).drainIfEmpty

/-! ## Context reset (R374, R375, R381) -/

/-- A counting reset: the list of the last sixteen, and out of service when ESC_RESETS of them lie in one window (R381). -/
def escalate (s : State) : State :=
  let l := s.rst.counting ++ [s.now]
  let l := if 16 < l.length then l.drop 1 else l
  let s := { s with rst.counting := l }
  let k := s.kin.img.escResets.toNat
  match (l.drop (l.length - k)).head? with
  | some t => if k ≤ l.length && decide (s.now.toNat < t.toNat + s.kin.img.escMinutes.toNat * 60 * second) then s.outOfService 1 else s
  | none => s

/-- A RESET_NOTE for a node of a context, sent once per reset to the step root or taken there (R378). -/
def noteReset (s : State) (n : Nat) (node : BitVec 16) (ep : Nat) : State :=
  let c := s.ctx n
  if c.clr.root = 0xFFFF then s
  else if c.life.stepRoot then s.takeResetNote n node (BitVec.ofNat 32 ep)
  else if c.step.resetNotes.contains (node, BitVec.ofNat 32 ep) then s
  else
    let s := s.modCtx n fun c => { c with step.resetNotes := c.step.resetNotes ++ [(node, BitVec.ofNat 32 ep)] }
    s.note (ctxFin n) c.clr.root 0x16 none [node.toNat, ep]

/-- A reset at a node of the context's slice becomes known by a newer epoch (R39, R204, R378): an attempt whose last partial
has not gone to that tree neighbour is voided with NODE_RESET, the checkpoint is abandoned, the step root is told. -/
def learnReset (s : State) (n : Nat) (node : BitVec 16) (ep : Nat) : State :=
  let near (t : GroupTree) : Bool := (t.parent = some node || t.children.contains node) && !s.allSent n t &&
    !(s.ctx n).clr.judged.contains (t.defn.group.setWidth 5)
  let s := match s.openAtt n with
    | some a => if (s.trees n).any near then s.voidSelf n a 7 else s
    | none => s
  let s := if (s.ctx n).esc.curSeq = 0 then s else (s.abandonCkpt n 6).resumeSeals n
  s.noteReset n node ep

/-- The context's epoch has risen: its requests accepted and not yet answered are answered NACK_RETRY with the new value (R371). -/
def retryOpen (s : State) (n : Nat) : State :=
  let s := (s.entriesOf n).foldl (fun (s : State) e =>
    (e.2.windowWrites.foldl (fun (s : State) w => s.nackRetry w.req) s).modEntry e.1 fun x => { x with windowWrites := [] }) s
  match (s.ctx n).life.waitReq with
  | some r => (s.modCtx n fun c => { c with life := { c.life with waitReq := none } }).nackRetry r
  | none => s

/-- A context reset (R375): cause 1 RUNTIME, 2 MANAGEMENT, 3 WATCHDOG; EMPTY and WIPING ignore it (R374). -/
def contextReset (s : State) (n cause : Nat) : State :=
  let st := (s.ctx n).life.st
  if st = .empty || st = .wiping then s
  else
    let counted := decide (cause = 2 || cause = 3)
    let s := (s.raiseEpoch n).eventCode 19 1 (evSource 5 n) cause
    let s := { s with rst := { s.rst with
      lastCtx := BitVec.ofNat 4 n, lastCause := BitVec.ofNat 4 cause, lastCounted := counted, lastTime := s.now
      ctxResets := satInc s.rst.ctxResets } }
    let s := s.bumpTally 8
    let s := s.retryOpen n
    let s := if (s.ctx n).life.stepRoot then s else s.noteReset n (s.ctx n).life.self (s.ctx n).epoch.toNat
    let s := s.goWiping n
    let s := s.modCtx n fun c => { c with
      step := {}, prog := { slots := c.prog.slots, hyper := c.prog.hyper }, esc := {}, bind := {}, wd := {} }
    if counted then s.escalate else s

/-! ## Hearths (R17, R18, R376) -/

/-- A region's hearths in one role. -/
def hearthsIn (s : State) (q : Nat) (r : HearthRole) : List Nat :=
  ((List.range 17).map (17 * q + ·)).filter fun h => (s.hearth h).role = r

/-- Hearths that a region runs on: a hearth that an in-field test takes out of service does not count (R18). -/
def workingHearths (s : State) (q : Nat) : Nat :=
  ((s.hearthsIn q .active).filter fun h => !(s.hearth h).testing).length + (s.hearthsIn q .outgoing).length

/-- The region's capacity is reported (R18): HRT-021. -/
def reportCapacity (s : State) (q : Nat) : State := s.event 3 21 (evSource 4 q)

/-- A hearth hands its role to the region's spare; a spare under test ends its test and takes the work (R17, R258). -/
def handOver (s : State) (h : Nat) : State :=
  let q := h / 17
  let was := (s.hearth h).role
  let s := if (s.region q).outgoing.toNat = h then s.modRegion q fun r => { r with outgoing := 0x7F } else s
  let s := if (s.region q).testHearth.toNat = h then s.modRegion q fun r => { r with testing := false, testHearth := 0x7F } else s
  if was = .active || was = .outgoing then
    match (s.hearthsIn q .spare).filter fun x => x ≠ h with
    | sp :: _ =>
      let s := if (s.region q).testHearth.toNat = sp then s.modRegion q fun r => { r with testing := false, testHearth := 0x7F } else s
      s.modHearth sp fun x => { x with role := .active, testing := false, gated := false }
    | [] => s
  else s

/-- An attempt's chunk is lost with the hearth: one staged in the SRAM of its region while the hearth is one of the
attempt's staging hearths, or the HBM chunk slot it was adding into (R17). -/
def stagingLost (s : State) (n : Nat) (a : Attempt) (h : Nat) (adding : List ChunkRef) : Bool :=
  (s.ctx n).clr.segs.any fun x =>
    (a.hearths.contains h && x.2.sramChunks.any fun c => c.2 = h / 17) ||
    x.2.hbmChunks.any fun c => adding.any fun r => r.ctx.val = n && r.seg.toNat = x.1 && r.chunk = c.1

/-- Attempts that lose staging are voided with HEARTH_RESET, and their contexts' epochs rise (R17, R370). -/
def voidStaging (s : State) (h : Nat) (adding : List ChunkRef) : State :=
  ctxNums.foldl (fun (s : State) (n : Fin 16) => match s.openAtt n with
    | some a => if s.stagingLost n a h adding then ((s.raiseEpoch n).retryOpen n).voidSelf n a 6 else s
    | none => s) s

/-- A chunk whose downward blocks the reset hearth was forwarding or rounding is requested again from the parent; a group root
recomputes it from its kept sum, which gives the same blocks (R17, R388). -/
def askDownAgain (s : State) (r : ChunkRef) : State :=
  let n := r.ctx.val
  let k := r.seg.toNat
  match (s.trees n).find? fun t => t.defn.group.setWidth 5 = (s.seg n k).group && t.clearing && !t.isRoot,
        (s.seg n k).rounds.head? with
  | some t, some rd =>
    match t.parent, s.committedAtt n rd.step with
    | some p, some a => s.note (ctxFin n) p 0x15 (some a.hdr) [k, r.chunk]
    | _, _ => s
  | _, _ => s

/-- A hearth reset (R17, R376): the run on it starts again elsewhere from its page version; `adding` names the chunk slots it
was adding into and the chunks whose downward blocks it was forwarding or rounding; it then awaits its structural test. -/
def hearthReset (s : State) (h : Nat) (adding : List ChunkRef) : State :=
  if (s.hearth h).role = .failed then s
  else
    let s := { s with rst.hearthResets := satInc s.rst.hearthResets }.bumpTally 9
    let s := (adding.foldl (fun (s : State) r => s.askDownAgain r) (s.voidStaging h adding)).setEngine h {}
    let s := (s.handOver h).resendFills (h / 17)
    s.modHearth h fun x => { role := .resetting, lastPass := x.lastPass, uncovered := x.uncovered, testFailed := x.testFailed
                             testing := true, unitErrs := x.unitErrs }

/-- A hearth is marked failed until the next package recovery (R17, R18, R376). -/
def hearthFail (s : State) (h : Nat) : State :=
  let s := (s.setEngine h {}).handOver h
  let s := s.modHearth h fun x => { x with role := .failed, testing := false, gated := false }
  s.reportCapacity (h / 17)

/-! ## Stacks (R20, R113, R128) -/

/-- A partner copy lost on this Azard: the local Azard is told (R130). -/
def losePartnerCopy (s : State) (n i : Nat) (bad : Bool := false) : State :=
  let e := s.entry i
  let s := s.givePages n bad e.alloc
  let s := (s.stopRun i).modEntry i fun e => { e with degradedP := true, queued := [], repairing := [], alloc := [], mem := []
                                                      waitEscrow := none, scrubLines := [] }
  ((s.sync n i .drop).updWaiting).settleAll n

/-- The page of an entry's copy lost on this Azard, whichever role the entry has. -/
def loseCopy (s : State) (n i : Nat) (bad : Bool := false) : State :=
  let e := s.entry i
  if e.role then (if e.degradedP then s else s.losePartnerCopy n i bad)
  else if e.degradedL then s else s.loseLocal n i bad

/-- CLEAN mirror pages of the other stacks make up the reserve and escrow pages lost with one, an even share each; what a stack
lacks is owed, and paid from the CLEAN pages of the others now or as pages are wiped (R20). -/
def makeUp (s : State) (k : Nat) (toEscrow : Bool) : State :=
  let alive := (List.range 8).filter fun i => !(s.hbm i).failed
  alive.zipIdx.foldl (fun (s : State) x =>
    let h := s.hbm x.1
    let want := k / alive.length + (if x.2 < k % alive.length then 1 else 0)
    let t := min want h.cleanMirror
    let s := s.setHbm x.1 { h with cleanMirror := h.cleanMirror - t, cleanEscrow := if toEscrow then h.cleanEscrow + t else h.cleanEscrow }
    if toEscrow then { s with alc.oweEscrow := s.alc.oweEscrow + (want - t) }
    else { s with alc.oweReserve := s.alc.oweReserve + (want - t) }) s

/-- A stack fails (R20): its pages are retired, copies on it are lost, checkpoints with an escrow page on it are abandoned,
reserve and escrow are made up from mirror pages, the shard ledger's copy is rebuilt, waiting contexts are judged again. -/
def stackFail (s : State) (i : Nat) : State :=
  let h := s.hbm i
  if h.failed then s
  else
    let escUsed := (s.ctxs.map fun c => (c.2.esc.pages.filter fun p => p.stack = i).length).sum
    let escDirty := ((s.alc.dirty.filter fun r => r.part = .escrow && r.stack = i).map fun r => r.count).sum
    let alive := ((List.range 8).filter fun j => !(s.hbm j).failed).length
    let s := (s.setHbm i { h with failed := true, cleanMirror := 0, cleanEscrow := 0 }).event 4 40 (evSource 3 i)
    let s := s.storeSignature 1 i 3
    let s := { s with alc.dirty := s.alc.dirty.filter fun r => r.stack ≠ i }
    let s := { s with alc.waiters := s.alc.waiters.map fun (w : Waiter) => { w with held := w.held.filter fun x => x.1 ≠ i } }
    let s := ((s.makeUp (8192 / alive) false).makeUp (h.cleanEscrow + escUsed + escDirty) true).payOwed
    let s := ctxNums.foldl (fun (s : State) (n : Fin 16) =>
      if (s.ctx n).esc.pages.any fun p => p.stack = i then s.abandonCkpt n 2 else s) s
    let s := { s with alc.dirty := s.alc.dirty.filter fun r => r.stack ≠ i }
    let lost := (s.mir.entries.filter fun e => e.2.alloc.any fun x => x.1 = i)
    let s := lost.foldl (fun (s : State) e =>
      (s.modEntry e.1 fun x => { x with alloc := x.alloc.filter fun y => y.1 ≠ i }).loseCopy e.2.ctx.toNat e.1) s
    let s := { s with ctxs := Map.mapVals {} s.ctxs fun _ (c : Ctx) =>
      { c with clr.rootAlloc := c.clr.rootAlloc.filter fun x => x.1 ≠ i } }
    (((s.rebuildTable i).recheckWaiters).settleWipes).damper

/-- A stack with more than 1,024 RETIRED pages fails (R389). -/
def judgeRetired (s : State) : State :=
  ((List.range 8).filter fun i => decide (1024 < (s.hbm i).retiredPages)).foldl (fun (s : State) i => s.stackFail i) s

/-! ## Verdicts (09 R225, R226; 11 R278) -/

/-- The position of a port's peer is a spill peer's; a revision-2 peer is none (R275, R300). -/
def isSpillPeer (s : State) (p : Nat) : Bool :=
  [s.kin.img.spillPeer0, s.kin.img.spillPeer1].any fun w => w.getLsbD 63 && posEq w (s.port p).peerPos && (s.port p).peerOsfel ≠ 2

/-- The verdict that the evidence gives, with the evidence's code (R225). -/
def verdictOf (s : State) (p : Nat) : Verdict × Nat :=
  let q := s.port p
  if !q.everUp then (.none, 0)
  else
    let ms := 1000000
    let up := q.state = .up
    let fault := (List.range 16).any fun i => q.faultMap.getLsbD i && (s.input i).asserted
    let down (d : Nat) : Bool := !up && (match q.downSince with | some t => s.outside t d | none => true)
    let lost := [(7, q.peerOos), (5, fault), (4, decide (q.state = .quarantine)), (3, down (100 * ms)), (2, s.outside q.heard (100 * ms))]
    let silent := [(3, !up), (2, s.outside q.heard (5 * ms))]
    match lost.find? Prod.snd, silent.find? Prod.snd with
    | some x, _ => (.lost, x.1)
    | none, some x => (.silent, x.1)
    | none, none => (.alive, if q.epochChanged then 6 else 1)

/-- VERDICT as LNK_VERDICT codes it (R227). -/
def verdictNum : Verdict → Nat
  | .none => 0
  | .alive => 1
  | .silent => 2
  | .lost => 3

/-- A port's verdict is formed anew; a change is event LIV-001 (R225, R226). -/
def noteVerdict (s : State) (p : Nat) : State :=
  let (v, e) := s.verdictOf p
  let old := (s.port p).verdict
  let s := s.modPort p fun q => { q with verdict := v, evidence := BitVec.ofNat 4 e }
  if v = old then s
  else (s.modPort p fun q => { q with changes := satInc q.changes }).eventCode 12 1 (evSource 1 p) (verdictNum v)

/-! ## Ports (R296, R302) -/

/-- Link keys are zeroised (R331, R350). -/
def dropKeys (s : State) (p : Nat) : State :=
  if (s.port p).keysSet then
    (s.modPort p fun q => { q with keyOut := 0, keyIn := 0, saltOut := 0, saltIn := 0, captureKey := 0, keysSet := false
                                   finishSent := false, finishGot := false, nonceIn := 0 }).modLinkEnd p
      (fun v => { v with captureKey := 0, link := {} }) |>.zeroised 2
  else s

/-- UP fabric ports whose peer takes announcements. -/
def fabricUp (s : State) : List (Fin 25) := (List.finRange 25).filter fun p => decide (9 ≤ p.val) && s.portUp p

/-- The fields of an announcement as a message carries them. -/
def topoArgs (t : Topo) : List Nat :=
  [t.pos.toNat, t.coord.toNat, t.revision.toNat, t.firmware.toNat, t.seq, bit t.outOfService, bit t.flue] ++ t.links.map fun l => l.toNat

/-- This Azard's announcement goes to every UP fabric neighbour (R301). -/
def announce (s : State) : State :=
  let s := { s with fabric.topoSeq := s.fabric.topoSeq + 1 }
  let t : Topo := { pos := s.fabric.selfPos, coord := s.fabric.selfCoord, revision := 3, firmware := s.kin.fwVersion
                    seq := s.fabric.topoSeq
                    links := s.fabricUp.map fun (p : Fin 25) => barePos (s.port p).peerPos, outOfService := s.rst.oos, flue := false }
  s.fabricUp.foldl (fun (s : State) p => s.send { dest := .link p, op := .msg, kind := 4, args := topoArgs t }) s

/-! ## The time tree (R317) -/

def peerTime (s : State) (p : Nat) : PeerTime := Map.get {} s.tim.peer p
def modPeerTime (s : State) (p : Nat) (f : PeerTime → PeerTime) : State := { s with tim.peer := Map.mod {} s.tim.peer p f }

/-- TIM_PEER.VALID: an exchange completed within the last 10 ms (R326). -/
def peerValid (s : State) (p : Nat) : Bool :=
  match (s.peerTime p).lastDone with
  | some t => !s.outside t 10000000
  | none => false

/-- Eligible ports of a follower (R317). -/
def eligible (s : State) : List Nat :=
  (List.range 25).filter fun p => decide (9 ≤ p) && s.portUp p && (s.port p).peerOsfel = 3 && (s.port p).peerRole = 0 && s.peerValid p

/-- The order of parents: HOPS, then ROOT, then port (R317). -/
def parentKey (s : State) (p : Nat) : Nat :=
  ((s.peerTime p).hops.toNat * 18446744073709551616 + (s.peerTime p).root.toNat) * 32 + p

/-- The parent is chosen: HOPS, ROOT, TIM-004 and TIM-005 (R317).  A follower without a parent is in holdover once 10 ms have
passed without a completed exchange (R318, R325). -/
def chooseParent (s : State) : State :=
  if s.tim.source ≠ 0 then s
  else
    let es := s.eligible
    let roots := ((es.map fun p => (s.peerTime p).root).filter fun r => r ≠ 0).eraseDups
    let s := if 1 < roots.length then s.event 16 4 0 else s
    let best := (sortBy (fun a b => decide (s.parentKey a ≤ s.parentKey b)) es).head?
    let ok := best.filter fun p => decide ((s.peerTime p).hops.toNat + 1 ≤ 254)
    let old := s.tim.parent
    let new : BitVec 5 := match ok with | some p => BitVec.ofNat 5 p | none => 0x1F
    let s := match ok with
      | some p => { s with tim.hops := (s.peerTime p).hops + 1, tim.root := (s.peerTime p).root, tim.parent := new }
      | none => { s with tim.hops := 0xFF, tim.root := 0, tim.parent := new }
    if new = old then s
    else { s with tim.good := 0, tim.bad := 0 }.event 16 5 (if new = 0x1F then 0 else evSource 1 new.toNat)

/-- A link has changed state: Azard announces it (R301), and chooses its parent again (R317, R325). -/
def linkChanged (s : State) : State := if s.linksHello then s.announce.chooseParent else s

/-- A port's link ends: packets in flight are lost, and what the hello gave ends (R302, R331). -/
def portDrop (s : State) (p : Nat) (st : LinkState) : State :=
  let was := (s.port p).state
  let now := s.now
  let s := (s.modPort p fun q => { q with
    state := st, helloSent := [], helloGot := none, conformed := false, probeRunning := false, retryDue := false
    qcause := 0, qNow := 0, vcq := []
    downSince := if was = .up then some now else q.downSince
    -- link retry and an Osfel-L link's RSNs start anew (R293, R303)
    rxSeq := 0, lastGood := 0xFFFF, nackDue := false, discarding := false, resendTries := 0, resendsInMs := 0
    rsnIn := 0, gapDue := false, rsnOut := 0, rsnTries := 0, retrainDue := false }).resetEgress p
  -- an exchange half done is discarded (R325)
  let s := { s with tim.peer := Map.mod {} s.tim.peer p fun (t : PeerTime) => { t with sentReq := [], waiting := [] } }
  let s := s.dropKeys p
  if was = st then s else s.linkChanged

/-- RETRAINS and the tally of link retrains (R296). -/
def countRetrain (s : State) (p : Nat) : State := (s.modPort p fun q => { q with retrains := satInc q.retrains }).bumpTally 25

/-- A copy is no longer parked: nothing of it is asked of its spill peer any more. -/
def unpark (s : State) (i : Nat) : State :=
  { s.modEntry i fun e => { e with parked := false, parkedLeft := [], parkedAt := 0 } with
    alc.parkedPages := s.alc.parkedPages.filter fun x => x.entry ≠ i }

/-- A spill peer is lost (R278): the copies parked there are lost; so is the replay content there, and its port fails. -/
def spillLost (s : State) (p : Nat) : State :=
  if !s.isSpillPeer p then s
  else
    let pos := (s.port p).peerPos
    let mine := s.mir.entries.filter fun e => e.2.parked && posEq e.2.parkedAt pos
    let s := mine.foldl (fun (s : State) e =>
      (s.unpark e.1).losePartnerCopy e.2.ctx.toNat e.1) s
    let s := (s.spilledPorts pos).foldl (fun (s : State) q =>
      let up := s.portUp q
      let s := (s.loseSpilled q).portDrop q .training
      (if up then s.countRetrain q else s).noteVerdict q) s
    s.event 14 20 (evSource 1 p)

/-- A port's verdict is judged: a spill peer's LOST loses what is kept there (R225, R226, R278). -/
def judgeVerdict (s : State) (p : Nat) : State :=
  let old := (s.port p).verdict
  let s := s.noteVerdict p
  if (s.port p).verdict = .lost && old ≠ .lost then s.spillLost p else s

/-- A port leaves the state it is in, and its verdict is judged. -/
def portLeave (s : State) (p : Nat) (st : LinkState) : State := (s.portDrop p st).judgeVerdict p

/-- A retrain (R296). -/
def retrain (s : State) (p : Nat) : State :=
  let up := s.portUp p
  let s := s.portLeave p .training
  if up then s.countRetrain p else s

/-- A port goes to QUARANTINE with QCAUSE (R296, R299): LNK-002. -/
def quarantine (s : State) (p cause : Nat) : State :=
  let now := s.now
  let s := s.modPort p fun q => { q with state := .quarantine, qcause := BitVec.ofNat 4 cause, conformed := false
                                         captureKey := if q.state = .up then 0 else q.captureKey
                                         probeRunning := false, downSince := if q.state = .up then some now else q.downSince }
  ((s.eventCode 15 2 (evSource 1 p) cause).linkChanged).judgeVerdict p

/-- A port becomes UP (R296): LNK-001. -/
def portRises (s : State) (p : Nat) : State :=
  let s := s.modPort p fun q => { q with state := .up, qcause := 0, everUp := true, downSince := none, heard := s.now }
  -- a tray port's accelerator is due from its first UP (R260)
  let s := if p < 9 && (s.tstPort p).due = 0 then
      s.modTstPort p fun t => { t with due := s.now + BitVec.ofNat 64 (s.tst.accelH.toNat * 3600 * second) }
    else s
  let s := if p < 9 then s.resumeFills p else s
  (((s.event 15 1 (evSource 1 p)).pumpPort p).linkChanged).judgeVerdict p

/-- A port becomes UP after a hello: a peer other than the one before re-wires the port, which closes it to the contexts that
are ACTIVE or QUIESCED now (R302). -/
def linkUp (s : State) (p : Nat) : State :=
  let s := if !(s.port p).rewireDue then s
    else
      let cs := (List.range 16).filter fun n => (s.ctx n).life.st = .active || (s.ctx n).life.st = .quiesced
      ((s.modPort p fun q => { q with rewireDue := false, closedFor := cs, rewired := cs ≠ [] }).dropClosed p).event 15 11 (evSource 1 p)
  s.portRises p

end State

end Sys2Proof.Machine
end

