-- ==== Sys2Proof/Machine/Store.lean ====
section
/-!
DEFINITION. Sys2Proof/Machine/Store.lean: the program store of a context (06 R160–R163): slot table, image windows, hyper area.
-/

namespace Sys2Proof.Machine

/-- Size of the unit that begins at `off` in a window of `len` bytes (R87). -/
def unitSize (off len : Nat) : Nat := min 256 (len - off)

/-- The unit rules of R87 for a WRC into a window of `len` bytes. -/
def unitsOk (off n len : Nat) : Bool :=
  off % 256 = 0 && decide (off + n ≤ len) && (n % 256 = 0 || off + n = len)

/-- The units that a WRC carries. -/
def unitsOf (off n : Nat) : List Nat := (List.range ((n + 255) / 256)).map (off / 256 + ·)

/-- A grain that is a multiple of 2,048 and at least that (R163). -/
def grainOk (g : Nat) : Bool := g % 2048 = 0 && decide (2048 ≤ g)

/-- A section is absent. -/
def absent (e : Nat) : Bool := e = 0xFFFFFFFF

/-- Check SECTIONS of R163. -/
def sectionsOk (h : ProgHdr) : Bool :=
  let e (i : Nat) := h.entries.getD i 0
  decide (1 ≤ h.codeWords) && decide (h.codeWords ≤ 130880) && decide (e 0 < h.codeWords) &&
  ([1, 2, 3, 4].all fun i => absent (e i) || decide (e i < h.codeWords)) && h.programId ≠ 0 &&
  h.scratch % 64 = 0 && decide (h.scratch ≤ 65536) && decide (8 ≤ h.hyperMin) && decide (h.hyperMin ≤ 1048576) &&
  decide (1 ≤ h.insnLimit) && decide (h.insnLimit ≤ 2 ^ 40) &&
  (if absent (e 1) then h.sweepGrain = 0 && h.sweepCountAt = 0
   else grainOk h.sweepGrain && h.sweepCountAt % 8 = 0 && decide (h.sweepCountAt < h.hyperMin)) &&
  (if absent (e 3) then h.bodyGrain = 0 else grainOk h.bodyGrain)

namespace State

def modSlot (s : State) (n k : Nat) (f : Slot → Slot) : State :=
  s.modCtx n fun c => { c with prog.slots := Map.mod {} c.prog.slots k f }

/-- STATE of a slot as R161 codes it. -/
def slotNum : SlotState → Nat
  | .empty => 0
  | .loading => 1
  | .installed => 2
  | .refused => 3

/-- The bytes of a slot descriptor (R161). -/
def slotBytes (p : Slot) : Bytes :=
  natLe 8 (Word.pack [(0, slotNum p.st), (8, p.cmd.toNat), (16, p.cause.toNat), (24, p.seq.toNat)]).toNat ++
  natLe 8 (Word.pack [(0, p.length.toNat), (32, p.count.toNat)]).toNat ++ natLe 8 p.programId.toNat ++ digestBytes p.digest ++
  List.replicate 8 0

/-- The check of a complete image: the first check of R163 that fails, 0 when it passes. -/
def imageCause (s : State) (n k : Nat) : Nat :=
  let c := s.ctx n
  let p : Slot := Map.get {} c.prog.slots k
  let h := parseProg p.bytes
  let len := p.length.toNat
  let img := p.bytes.read 0 len
  let others := c.prog.slots.filter fun x => x.1 ≠ k && x.2.st = .installed
  if h.magic ≠ 0x50535A41 || h.format ≠ 1 || !h.reserved then 1
  else if h.length ≠ len || 1048576 < len || len ≠ 0x100 + 8 * h.codeWords + 1280 then 2
  else if !Config.falconVerify c.life.charter.sigKey (img.take (len - 1280)) (img.drop (len - 1280)) then 3
  else if h.charterDigest ≠ 0 && h.charterDigest ≠ c.life.digest then 4
  else if !sectionsOk h then 5
  else if others.any fun x => x.2.programId = h.programId then 6
  else if 16777216 < len + (others.map fun x => x.2.length.toNat).sum then 7
  else 0

/-- COUNT has reached LENGTH: INSTALLED, or REFUSED with CAUSE and VEC-010 (R162, R163). CAUSE stays that of the last refusal
(R161). -/
def checkImage (s : State) (n k : Nat) : State :=
  let p : Slot := Map.get {} (s.ctx n).prog.slots k
  let why := s.imageCause n k
  if why = 0 then
    s.modSlot n k fun x => { x with
      st := .installed, programId := (parseProg p.bytes).programId, digest := hash256 (p.bytes.read 0 p.length.toNat) }
  else
    (s.modSlot n k fun x => { x with st := .refused, cause := BitVec.ofNat 8 why }).record 8 10 (evSource 5 n)
      (BitVec.ofNat 32 why) (BitVec.ofNat 32 k) 0

/-- A CLEAR of a slot (R162). -/
def clearSlot (s : State) (rq : Req) (k : Nat) (seq : BitVec 16) : State :=
  let n : Nat := rq.ctx
  let c := s.ctx n
  let p : Slot := Map.get {} c.prog.slots k
  let s := s.modSlot n k fun x => { x with cmd := 1, seq := seq, acted := seq }
  if c.life.st ≠ .chartered && c.life.st ≠ .quiesced then s.busy rq 1
  else if p.acted = seq then s.ok rq
  else if p.st = .installed && (s.entriesOf n).any fun e => e.2.program = p.programId then
    (s.modSlot n k fun x => { x with cause := 8 }).ok rq
  else (s.modSlot n k fun _ => { cmd := 1, seq := seq, acted := seq }).ok rq

/-- A WR of LENGTH (R162): writable while EMPTY or REFUSED; a length that is not 0 makes the slot LOADING. -/
def setLength (n k : Nat) (s : State) (len : BitVec 32) : State :=
  s.modSlot n k fun x => { x with
    length := len, st := if len = 0 then x.st else .loading, count := if len = 0 then x.count else 0
    bytes := if len = 0 then x.bytes else [], units := if len = 0 then x.units else [] }

/-- A WR of the slot table (R160–R162). -/
def slotWrite (s : State) (rq : Req) (k b : Nat) (data : Bytes) : State :=
  let n : Nat := rq.ctx
  let p : Slot := Map.get {} (s.ctx n).prog.slots k
  let ws := (bytesWords data).zipIdx.map fun x => (b / 8 + x.2, x.1)
  let w0 := (ws.find? fun x => x.1 = 0).map Prod.snd
  let w1 := (ws.find? fun x => x.1 = 1).map Prod.snd
  if w0.isNone && w1.isNone then s.nackAccess rq
  else if w1.isSome && p.st ≠ .empty && p.st ≠ .refused then s.nackAccess rq
  else
    let s := match w1 with | some w => setLength n k s (w.extractLsb' 0 32) | none => s
    match w0 with
    | none => s.ok rq
    | some w =>
      let seq := w.extractLsb' 24 16
      if w.extractLsb' 8 4 = 1 then s.clearSlot rq k seq
      else (s.modSlot n k fun x => { x with cmd := w.extractLsb' 8 4, seq := seq }).ok rq

/-- A WRC into a slot's image window (R160, R162). -/
def imageWrite (s : State) (rq : Req) (k off : Nat) (data : Bytes) : State :=
  let n : Nat := rq.ctx
  let p : Slot := Map.get {} (s.ctx n).prog.slots k
  if p.st ≠ .loading then s.nackAccess rq
  else if 1048576 < off + data.length || !unitsOk off data.length p.length.toNat then s.nackAddress rq
  else
    let new := (unitsOf off data.length).filter fun u => !p.units.contains u
    let got := (new.map fun u => unitSize (256 * u) p.length.toNat).sum
    let s := s.modSlot n k fun x => { x with
      bytes := new.foldl (fun m u => Mem.write m (256 * u) ((data.drop (256 * u - off)).take 256)) x.bytes
      units := x.units ++ new, count := x.count + BitVec.ofNat 32 got }
    let p : Slot := Map.get {} (s.ctx n).prog.slots k
    (if p.count = p.length then s.checkImage n k else s).ok rq

/-- A request to the hyper area (R160). -/
def hyperAccess (s : State) (rq : Req) (op : OpCode) (off len : Nat) (data : Bytes) : State :=
  let c := s.ctx rq.ctx
  match op with
  | .rd => if 1048576 < off + len then s.nackAddress rq else s.answer rq .ok 0 (c.prog.hyper.read off len)
  | .wr =>
    if c.life.st ≠ .chartered && c.life.st ≠ .quiesced then s.nackAccess rq
    else if 1048576 < off + data.length then s.nackAddress rq
    else (s.modCtx rq.ctx fun c => { c with prog.hyper := Mem.write c.prog.hyper off data }).ok rq
  | _ => s.nackAccess rq

/-- A request to the slot table (R160). -/
def slotTable (s : State) (rq : Req) (op : OpCode) (off len : Nat) (data : Bytes) : State :=
  let k := off / 64
  let b := off % 64
  let n := match op with | .wr => data.length | _ => len
  match op with
  | .wr | .rd =>
    if 256 ≤ k || b % 8 ≠ 0 || n % 8 ≠ 0 || 64 < b + n then s.nackAddress rq
    else if op = .wr then s.slotWrite rq k b data
    else s.answer rq .ok 0 (((slotBytes (Map.get {} (s.ctx rq.ctx).prog.slots k)).drop b).take n)
  | _ => s.nackAccess rq

/-- A request to the program store (R160): only the charter's runtime endpoints reach it, and only their own context's store;
`at_` holds the context in bits [43:40] and the offset within the area in bits [31:0]. -/
def storeAccess (s : State) (rq : Req) (op : OpCode) (area at_ len : Nat) (data : Bytes) : State :=
  s.osfel rq fun s =>
    let off := at_ % 1099511627776
    if !s.endpoint rq || (s.ctx rq.ctx).life.st = .empty || at_ / 1099511627776 % 16 ≠ rq.ctx.val then s.nackAccess rq
    else match area with
      | 0 => s.slotTable rq op off len data
      | 1 =>
        if 268435456 ≤ off then s.nackAddress rq
        else if op ≠ .wrc then s.nackAccess rq
        else s.imageWrite rq (off / 1048576) (off % 1048576) data
      | 2 => s.hyperAccess rq op off len data
      | _ => s.nackAddress rq

end State

/-! ## The commands -/

/-- SLOT_LENGTH_WR (R162), and every other access to the program store's areas but those of the next three commands
(R160). -/
def execSlotLengthWr (rq : Req) (op : OpCode) (area : BitVec 8) (off len : Nat) (data : Bytes) (s : State) :
    Host.Outcome State Fault Refusal :=
  .next (s.storeAccess rq op area.toNat off len data)

/-- IMAGE_WRC (R162). -/
def execImageWrc (rq : Req) (slot : BitVec 8) (off : Nat) (data : Bytes) (s : State) : Host.Outcome State Fault Refusal :=
  .next (if 1048576 ≤ off % 1099511627776 then s.osfel rq fun s => s.nackAddress rq
    else s.storeAccess rq .wrc 1 (slot.toNat * 1048576 + off) 0 data)

/-- CLEAR (R162): a WR of the slot's first word with CMD = 1. -/
def execSlotClear (rq : Req) (slot : BitVec 8) (seq : BitVec 16) (s : State) : Host.Outcome State Fault Refusal :=
  .next (s.storeAccess rq .wr 0 (rq.ctx.val * 1099511627776 + slot.toNat * 64) 0 (natLe 8 (0x100 + seq.toNat * 16777216)))

/-- HYPER_WR (R160). -/
def execHyperWr (rq : Req) (op : OpCode) (off len : Nat) (data : Bytes) (s : State) : Host.Outcome State Fault Refusal :=
  .next (s.storeAccess rq op 2 off len data)

end Sys2Proof.Machine
end

