-- ==== Sys2Proof/Machine/Charter.lean ====
section
/-!
DEFINITION. Sys2Proof/Machine/Charter.lean: charters and key releases (14 R336–R340), target space 0x5 (R34, R240, R333, R347,
R403), and the messages of a context's charter and receipts.
-/

namespace Sys2Proof.Machine

/-! ## The charter's layout (R82, R247, R337) -/

/-- A 256-bit field. -/
def Mem.digest (m : Mem) (a : Nat) : Digest := BitVec.ofNat 256 (m.le a 32)

/-- Every byte of a range is 0. -/
def Mem.zero (m : Mem) (a n : Nat) : Bool := (m.read a n).all fun b => b = 0

/-- LENGTH of the smallest and of the greatest charter. -/
def charterMin : Nat := 5248
def charterMax : Nat := 4194304

/-- Entry i of the node, endpoint, group and redundancy tables. -/
def nodeAt (m : Mem) (i : Nat) : Nat := m.le 0x80 4 + 16 * i
def endpointAt (m : Mem) (i : Nat) : Nat := m.le 0x84 4 + 40 * i
def groupAt (m : Mem) (i : Nat) : Nat := m.le 0x88 4 + 64 * i
def pairAt (m : Mem) (i : Nat) : Nat := m.le 0x8C 4 + 8 * i

/-- A node table entry. -/
def parseNode (m : Mem) (a : Nat) : NodeDef :=
  { pos := BitVec.ofNat 64 (m.le a 8), lnode := BitVec.ofNat 16 (m.le (a + 8) 2), role := m.byte (a + 10) }

/-- A group table entry with its member list. -/
def parseGroup (m : Mem) (a : Nat) : GroupDef :=
  let n := m.le (a + 8) 4
  let l := m.le (a + 12) 4
  { group := m.byte a, vc := m.byte (a + 1), shape := BitVec.ofNat 2 (m.le (a + 2) 1), order := BitVec.ofNat 3 (m.le (a + 2) 1 / 4)
    hopAllow := BitVec.ofNat 16 (m.le (a + 4) 2), lhAllow := BitVec.ofNat 16 (m.le (a + 6) 2), members := n
    list := (List.range n).map fun i => BitVec.ofNat 16 (m.le (l + 2 * i) 2) }

/-- A redundancy table entry. -/
def parsePair (m : Mem) (a : Nat) : PairDef :=
  { primary := BitVec.ofNat 16 (m.le a 2), shadow := BitVec.ofNat 16 (m.le (a + 2) 2)
    referee := BitVec.ofNat 16 (m.le (a + 4) 2), group := BitVec.ofNat 5 (m.le (a + 6) 2) }

/-- A charter's fields read from its bytes. -/
def parseCharter (m : Mem) : Charter :=
  { startStep := BitVec.ofNat 64 (m.le 0x10 8), entryFirst := m.le 0x18 4, entryCount := m.le 0x1C 4, actTimeout := m.le 0x20 4
    voteLag := m.byte 0x24, ckptSteps := BitVec.ofNat 32 (m.le 0x28 4), ckptSeconds := BitVec.ofNat 32 (m.le 0x2C 4)
    baseEvery := m.byte 0x30, lineage := m.digest 0x40, ledgerBase := m.digest 0x60, length := m.le 8 4
    flues := (List.range (m.le 0x25 1)).map fun i => BitVec.ofNat 16 (m.le (0x38 + 2 * i) 2)
    nodes := (List.range (m.le 0xC 4)).map fun i => parseNode m (nodeAt m i)
    endpoints := (List.range (m.le 7 1)).map fun i => (BitVec.ofNat 16 (m.le (endpointAt m i) 2), m.digest (endpointAt m i + 8))
    groups := (List.range (m.le 6 1)).map fun i => parseGroup m (groupAt m i)
    pairs := (List.range (m.le 0x26 2)).map fun i => parsePair m (pairAt m i)
    sigKey := m.read 0x100 1793, kemKey := m.read 0x808 1568 }

/-- Ends of the tables, then of the member lists. -/
def tableEnds (m : Mem) : List Nat :=
  [nodeAt m (m.le 0xC 4), endpointAt m (m.le 7 1), groupAt m (m.le 6 1), pairAt m (m.le 0x26 2)]
def listEnds (m : Mem) : List Nat :=
  (List.range (m.le 6 1)).map fun i => m.le (groupAt m i + 12) 4 + 2 * m.le (groupAt m i + 8) 4

/-- Check FORMAT: magic, format, reserved bytes and bits, tables and lists within `len`.  The lists are looked at only when
the tables lie within the charter. -/
def formatOk (m : Mem) (len : Nat) : Bool :=
  m.le 0 4 = 0x48435A41 && m.le 4 2 = 1 &&
  m.zero 0x31 7 && m.zero 0x90 0x70 && m.zero 0x801 7 && m.zero 0xE28 0xD8 &&
  (tableEnds m).all (fun e => decide (e ≤ len)) &&
  (List.range (m.le 0xC 4)).all (fun i => m.zero (nodeAt m i + 11) 5) &&
  (List.range (m.le 7 1)).all (fun i => m.zero (endpointAt m i + 2) 6) &&
  (List.range (m.le 6 1)).all (fun i =>
    let a := groupAt m i
    m.le a 1 < 32 && m.le (a + 1) 1 < 32 && m.le (a + 2) 1 < 32 && m.zero (a + 3) 1 && m.zero (a + 16) 48) &&
  (List.range (m.le 0x26 2)).all (fun i => m.le (pairAt m i + 6) 2 < 32) &&
  (listEnds m).all (fun e => decide (e ≤ len))

/-- Check FIELD: the ranges of R337. -/
def fieldsOk (m : Mem) (c : Charter) : Bool :=
  let within (lo hi x : Nat) : Bool := decide (lo ≤ x) && decide (x ≤ hi)
  let ends := tableEnds m ++ listEnds m
  let offs := [m.le 0x80 4, m.le 0x84 4, m.le 0x88 4, m.le 0x8C 4] ++ (List.range (m.le 6 1)).map fun i => m.le (groupAt m i + 12) 4
  let nodes := c.nodes.map fun d => d.lnode
  let eps := c.endpoints.map Prod.fst
  within 1 28 (m.le 6 1) && within 1 8 (m.le 7 1) && within 1 131072 (m.le 0xC 4) && within 0 65535 c.entryFirst &&
  within 1 (65536 - c.entryFirst) c.entryCount && within 1 3600000 c.actTimeout && within 0 4 c.voteLag.toNat &&
  within 1 4 (m.le 0x25 1) && within 0 32768 (m.le 0x26 2) &&
  (c.ckptSeconds = 0 || within 10 86400 c.ckptSeconds.toNat) &&
  (List.range 4).all (fun i => decide (i < m.le 0x25 1) || m.le (0x38 + 2 * i) 2 = 0) &&
  offs.all (fun o => o % 8 = 0 && decide (0xF00 ≤ o)) &&
  ends.all (fun e => decide ((e + 7) / 8 * 8 + 1280 ≤ c.length)) &&
  c.nodes.all (fun d => decide (d.role.toNat ≤ 3)) &&
  nodes.eraseDups.length = nodes.length && !nodes.contains 0xFFFF &&
  eps.eraseDups.length = eps.length && !eps.contains 0xFFFF &&
  eps.all fun e => c.nodes.any fun d => d.lnode = e && d.role = 3

namespace State

/-! ## Charter loading (R336) -/

def modLife (s : State) (n : Nat) (f : Life → Life) : State := s.modCtx n fun c => { c with life := f c.life }

/-- This Azard's logical node in a charter: the ROLE 0 entry at its position. -/
def selfNode (s : State) (c : Charter) : Option (BitVec 16) :=
  (c.nodes.find? fun d => d.role = 0 && posEq d.pos s.fabric.selfPos).map fun d => d.lnode

/-- The entry range of a charter meets another context's (check RANGE). -/
def rangeTaken (s : State) (n : Nat) (c : Charter) : Bool :=
  ctxNums.any fun (k : Fin 16) =>
    let o := (s.ctx k).life
    k.val ≠ n && o.st ≠ .empty && decide (c.entryFirst < o.charter.entryFirst + o.charter.entryCount) &&
      decide (o.charter.entryFirst < c.entryFirst + c.entryCount)

/-- The first check of R336 that a complete charter fails, 0 when it passes. -/
def charterCause (s : State) (n : Nat) (m : Mem) (len : Nat) : Nat :=
  if !formatOk m len then 1
  else if charterMax < m.le 8 4 || m.le 8 4 ≠ len then 2
  else if !Config.falconVerify (m.read 0x100 1793) (m.read 0 (len - 1280)) (m.read (len - 1280) 1280) then 3
  else if s.sec.lc ≠ .owned || s.sec.error then 4
  else
    let c := parseCharter m
    if (s.selfNode c).isNone then 5
    else if s.rangeTaken n c then 6
    else if !fieldsOk m c then 7
    else 0

/-- A refused charter: CAUSE and SEC-020; the context stays EMPTY (R336). -/
def refuseCharter (s : State) (n code : Nat) : State :=
  (s.modLife n fun l => { l with cause := BitVec.ofNat 4 code }).eventCode 17 20 (evSource 5 n) code

/-- COUNT has reached LENGTH: CHARTERED with its charter and digest, or refused (R334, R336). -/
def checkCharter (s : State) (n len : Nat) : State :=
  let m := (s.ctx n).life.bytes
  let why := s.charterCause n m len
  if why ≠ 0 then s.refuseCharter n why
  else
    let c := parseCharter m
    s.modLife n fun l => { l with
      st := .chartered, charter := c, digest := hash256 (m.read 0 len), self := (s.selfNode c).getD 0xFFFF }

/-- The bytes of a table of held units below `len`. -/
def unitsBytes (us : List Nat) (len : Nat) : Nat := (us.map fun u => unitSize (256 * u) len).sum

/-- A WRC of charter units while EMPTY (R87, R336). -/
def charterWrite (s : State) (rq : Req) (n off : Nat) (data : Bytes) : State :=
  let l := (s.ctx n).life
  let b := l.length.getD charterMax
  if !unitsOk off data.length b then s.nackAddress rq
  else
    let new := (unitsOf off data.length).filter fun u => !l.units.contains u
    let m := new.foldl (fun m u => Mem.write m (256 * u) ((data.drop (256 * u - off)).take 256)) l.bytes
    let us := l.units ++ new
    let len := m.le 8 4
    if l.length.isNone && new.contains 0 && (decide (len < charterMin) || decide (charterMax < len)) then
      ((s.modLife n fun l => { l with bytes := [], units := [], count := 0 }).refuseCharter n 2).ok rq
    else
      let first := l.length.isNone && us.contains 0
      let ext := if first then some len else l.length
      let b := ext.getD charterMax
      let us := us.filter fun u => decide (256 * u < b)
      let m := if first then m.filter fun x => decide (x.1 < b) else m
      let got := unitsBytes us b
      let s := s.modLife n fun l => { l with bytes := m, units := us, length := ext, count := BitVec.ofNat 24 got }
      (if new ≠ [] && ext = some got then s.checkCharter n got else s).ok rq

/-! ## Key releases (R340) -/

/-- LENGTH of a key release of `n` keys. -/
def releaseLength (n : Nat) : Nat := 0x660 + 40 * n + 16 + 1280

/-- The keys that the plaintext of a release lists. -/
def parseKeys (b : Bytes) : List (BitVec 32 × Digest) :=
  (List.range (b.length / 40)).map fun i => (BitVec.ofNat 32 (Bytes.le b (40 * i) 4), BitVec.ofNat 256 (Bytes.le b (40 * i + 8) 32))

/-- The Azards of a charter but this one. -/
def charterAzards (s : State) (n : Nat) : List (BitVec 16) :=
  ((s.ctx n).life.charter.nodes.filter fun d => d.role = 0 && d.lnode ≠ (s.ctx n).life.self).map fun d => d.lnode

/-- RECIPIENT names this Azard, and this Azard is the step root as far as the tree is built. -/
def recipientOk (s : State) (n : Nat) (pos : Word) : Bool :=
  posEq pos s.fabric.selfPos && ((s.ctx n).clr.root = 0xFFFF || (s.ctx n).life.stepRoot)

/-- A complete key release: the first check of R340 that fails, or the keys. -/
def judgeRelease (s : State) (n : Nat) (m : Mem) (len : Nat) : Except Nat (List (BitVec 32 × Digest)) :=
  let l := (s.ctx n).life
  let k := m.le 6 2
  if m.le 0 4 ≠ 0x524B5A41 || m.le 4 2 ≠ 1 || k = 0 || 255 < k || !m.zero 0xC 4 then .error 1
  else if m.le 8 4 ≠ releaseLength k || m.le 8 4 ≠ len then .error 2
  else if !Config.falconVerify l.charter.sigKey (m.read 0 (len - 1280)) (m.read (len - 1280) 1280) then .error 3
  else if m.digest 0x10 ≠ l.digest then .error 4
  else if !s.recipientOk n (BitVec.ofNat 64 (m.le 0x30 8)) then .error 5
  else if l.relKeysN ≠ 0 && m.le 0x38 8 ≤ l.relSeq.toNat then .error 6
  else
    let secret := Config.kemDecap s.sec.kemKey (m.read 0x40 1568)
    match Config.gcmOpen secret 0 (m.read 0 0x660) (m.read 0x660 (40 * k + 16)) with
    | none => .error 7
    | some p => if l.st ≠ .chartered && l.st ≠ .quiesced then .error 8 else .ok (parseKeys p)

/-- Keys as message words. -/
def keyArgs (ks : List (BitVec 32 × Digest)) : List Nat := ks.flatMap fun k => [k.1.toNat, k.2.toNat]

/-- A complete key release is judged; its bytes are not kept (R340). -/
def checkRelease (s : State) (n len : Nat) : State :=
  let m := (s.ctx n).life.relBytes
  let s' := s.modLife n fun l => { l with relBytes := [], relUnits := [] }
  match s.judgeRelease n m len with
  | .error c => s'.modLife n fun l => { l with relCause := BitVec.ofNat 4 c }
  | .ok ks =>
    let s := s'.modLife n fun l => { l with
      relKeys := ks, relKeysN := BitVec.ofNat 16 ks.length, relSeq := BitVec.ofNat 64 (m.le 0x38 8) }
    s.notes (ctxFin n) (s.charterAzards n) 0x34 none (1 :: keyArgs ks)

/-- A key release whose bytes are all here is judged, once no SELECT is in progress (R340, R352). -/
def settleRelease (s : State) (n : Nat) : State :=
  let l := (s.ctx n).life
  let b := l.relBytes.le 8 4
  if l.relUnits.contains 0 && unitsBytes l.relUnits b = b && (s.ctx n).esc.rstState ≠ 1 then s.checkRelease n b else s

/-- A WRC of key-release units (R340), under the unit rules of R87; the extent is the longest release until unit 0 gives
LENGTH. -/
def releaseWrite (s : State) (rq : Req) (n off : Nat) (data : Bytes) : State :=
  let l := (s.ctx n).life
  let known (us : List Nat) (m : Mem) : Nat := if us.contains 0 then m.le 8 4 else releaseLength 255
  if !unitsOk off data.length (known l.relUnits l.relBytes) then s.nackAddress rq
  else
    let new := (unitsOf off data.length).filter fun u => !l.relUnits.contains u
    let m := new.foldl (fun m u => Mem.write m (256 * u) ((data.drop (256 * u - off)).take 256)) l.relBytes
    let us := l.relUnits ++ new
    let b := known us m
    if b < releaseLength 1 || releaseLength 255 < b then
      (s.modLife n fun l => { l with relBytes := [], relUnits := [], relCause := 2 }).ok rq
    else
      let us := us.filter fun u => decide (256 * u < b)
      let m := m.filter fun x => decide (x.1 < b)
      ((s.modLife n fun l => { l with relBytes := m, relUnits := us }).settleRelease n).ok rq

/-! ## Space 0x5 (R34, R240, R333, R347, R403) -/

/-- A RD of `len` bytes of a read-only object of `size` bytes. -/
def readObject (s : State) (rq : Req) (off len : Nat) (b : Bytes) : State :=
  if b.length < off + len then s.nackAddress rq else s.answer rq .ok 0 ((b.drop off).take len)

/-- The committed record of a context (R240): the committed step, then the latched bytes of its attempt.  After a restore
the records at 0x40 are the restored ones (R215); what has no committed attempt behind it is a free value (log entry 3). -/
def committedRecord (s : State) (n : Nat) : Bytes :=
  let t := (s.ctx n).step
  let open_ : Bytes := natLe 0xB8 (s.freeBits 1472).toNat
  natLe 8 t.released.toNat ++
    (match t.committed with
      | some a => Bytes.at a.latched.bytes 0 0xB8
      | none => if t.restored = [] then open_ else open_.take 0x38 ++ Bytes.at t.restored 0 0x80) ++ List.replicate 0x40 0

/-- The window table of a context (R240): E0 and MAXEXP of the committed step.  Before the first one a defined segment's E0
is a free value (log entry 3). -/
def windowTable (s : State) (n : Nat) : Bytes :=
  ((List.range 4095).flatMap fun k =>
    let g := s.seg n k
    if g.elements = 0 then natLe 4 0x80000000
    else match g.commMax with
      | some m => natLe 4 (g.commE0.toNat + 65536 * m.toNat)
      | none => natLe 4 ((s.freeBits 16).toNat + 0x80000000)) ++ List.replicate 4 0

/-- The committed position is readable (R240). -/
def positionShown (st : CtxState) : Bool := st = .active || st = .quiesced || st = .evicting

/-- Area 0: the step record window, the committed records and the window tables. -/
def areaSteps (s : State) (rq : Req) (op : OpCode) (off len : Nat) (data : Bytes) : State :=
  let n : Nat := rq.ctx
  if 0x10000 ≤ off && off < 0x11000 then
    if !s.endpoint rq || (off - 0x10000) / 0x100 ≠ n then s.nackAccess rq
    else match op with
      | .wr => s.writeWindow rq (off % 0x100) data
      | .rd =>
        if off % 8 ≠ 0 || len % 8 ≠ 0 || 256 < off % 0x100 + len then s.nackAddress rq
        else s.answer rq .ok 0 ((s.ctx n).step.window.read (off % 0x100) len)
      | _ => s.nackAccess rq
  else if 0x20000 ≤ off && off < 0x21000 then
    if !s.endpoint rq || (off - 0x20000) / 0x100 ≠ n || op ≠ .rd || !positionShown (s.ctx n).life.st then s.nackAccess rq
    else s.useFree.readObject rq (off % 0x100) len (s.committedRecord n)
  else if 0x30000 ≤ off && off < 0x70000 then
    if !s.endpoint rq || (off - 0x30000) / 0x4000 ≠ n || op ≠ .rd || !positionShown (s.ctx n).life.st then s.nackAccess rq
    else s.useFree.readObject rq (off % 0x4000) len (s.windowTable n)
  else s.nackAddress rq

/-- Area 1 with bits [35:32] = 1: a key release, by an endpoint of the context it names (R340). -/
def areaRelease (s : State) (rq : Req) (op : OpCode) (n off : Nat) (data : Bytes) : State :=
  if !s.endpoint rq || rq.ctx.val ≠ n || op ≠ .wrc then s.nackAccess rq else s.releaseWrite rq n off data

/-- Area 2: receipts (R347). -/
def areaReceipts (s : State) (rq : Req) (op : OpCode) (off len : Nat) : State :=
  let n := off / 2 ^ 36 % 16
  let b := off % 2 ^ 36
  if !s.endpoint rq || rq.ctx.val ≠ n || op ≠ .rd then s.nackAccess rq
  else if 0x600 * 16384 < b + len then s.nackAddress rq
  else s.answer rq .ok 0 ((List.range len).map fun i =>
    (Map.get [] (s.ctx n).life.receipts ((b + i) / 0x600)).getD ((b + i) % 0x600) 0)

/-- Area 3: the public credentials (R333). -/
def areaCredentials (s : State) (rq : Req) (op : OpCode) (off len : Nat) : State :=
  let chain := natLe 4 s.sec.identityChain.length ++ natLe 4 0 ++ s.sec.identityChain
  if op ≠ .rd then s.nackAccess rq
  else if off < 0x10000 then s.readObject rq off len chain
  else s.readObject rq (off - 0x10000) len s.sec.kemCert

/-- A request to space 0x5 by Osfel, at any node number; charter loading and the credentials are open to every Osfel
requester, so R338 is not asked of them (R343). -/
def space5 (s : State) (rq : Req) (op : OpCode) (off len : Nat) (data : Bytes) : State :=
  match rq.path with
  | .port _ =>
    let s := s.begin
    let low := off % 2 ^ 40
    let any := { rq with node := 0xFFFF }
    match off / 2 ^ 40 with
    | 0 => s.judge rq false fun s => s.areaSteps rq op low len data
    | 1 =>
      let n := low / 2 ^ 36
      match low / 2 ^ 32 % 16 with
      | 0 => s.admitWith false any false fun s =>
        if op ≠ .wrc || (s.ctx n).life.st ≠ .empty then s.nackAccess rq else s.charterWrite rq n (low % 2 ^ 32) data
      | 1 => s.judge rq false fun s => s.areaRelease rq op n (low % 2 ^ 32) data
      | _ => s.judge rq false fun s => s.nackAddress rq
    | 2 => s.judge rq false fun s => s.areaReceipts rq op low len
    | 3 => s.admitWith false any false fun s => s.areaCredentials rq op low len
    | 15 => s.judge rq false fun s => if 2 < low / 2 ^ 32 % 16 then s.nackAddress rq else s.nackAccess rq
    | _ => s.judge rq false fun s => s.nackAddress rq
  | _ => s.begin

/-! ## Restored positions (R54, R215) -/

/-- A selected checkpoint is accepted at this node: the committed step, the segments' windows, the restored records and the
key chain (R45, R50, R54, R67, R215).  The attempts accepted in this activation stay on record (R32; the model's choice, log
entry 91). -/
def acceptRestore (s : State) (n : Nat) (m : RestoreDist) : State :=
  s.modCtx n fun c => { c with
    step := { c.step with
      released := m.step, voted := m.step, baseStep := m.step, updating := [], voting := [], stuck := [], committed := none
      divergent := none, restored := m.plain, clears := [], clearSent := none }
    clr.segs := Map.mapVals {} c.clr.segs fun k (x : Seg) => match m.windows.find? fun w => w.1.toNat = k with
      | some w => if x.elements = 0 then x
        else { x with commE0 := w.2.1, commMax := some w.2.2, forceFor := none, rounds := [] }
      | none => x
    esc.rstKeys := m.keys, esc.rstSeq := m.seq, esc.rstStep := m.step }

end State

/-! ## The commands -/

/-- CHARTER_WRC (R336): a request to space 0x5 at a 44-bit offset; a WRC to area 1 is charter loading. -/
def execCharterWrc (rq : Req) (op : OpCode) (off len : Nat) (data : Bytes) (s : State) : Host.Outcome State Fault Refusal :=
  .next (s.space5 rq op off len data)

/-- KEY_RELEASE (R340): a request to a context's key release in area 1 of space 0x5. -/
def execKeyRelease (rq : Req) (op : OpCode) (n : Fin 16) (off : Nat) (data : Bytes) (s : State) :
    Host.Outcome State Fault Refusal :=
  .next (s.osfel rq fun s => s.areaRelease rq op n (off % 2 ^ 32) data)

/-- RESTORE_DIST_RECEIVED (R215, R340): keys of a release, or a selected checkpoint, from the step root. -/
def execRestoreDistReceived (rq : Req) (m : RestoreDist) (s : State) : Host.Outcome State Fault Refusal :=
  .next (s.message rq fun s =>
    let n : Nat := rq.ctx
    let c := s.ctx n
    if m.release then
      if c.life.st = .empty || c.life.st = .wiping || !(s.charterAzards n).contains rq.source then s
      else s.modLife n fun l => { l with relKeys := m.keys, relKeysN := BitVec.ofNat 16 m.keys.length }
    else if c.life.st = .quiesced && rq.source = c.clr.root then s.acceptRestore n m
    else s)

/-- VOTE_NOTE_RECEIVED (R344): a node's note for a step at the step root. -/
def execVoteNoteReceived (rq : Req) (step : Word) (roots : VoteRoots) (s : State) :
    Host.Outcome State Fault Refusal :=
  .next (s.message rq fun s =>
    let c := s.ctx rq.ctx
    if c.life.stepRoot && c.clr.azards.contains rq.source then
      s.takeNote rq.ctx { node := rq.source, step := step, roots := roots.roots, included := roots.included }
    else s)

end Sys2Proof.Machine
end

