-- ==== Sys2Proof/Machine/Contexts.lean ====
section
/-!
DEFINITION. Sys2Proof/Machine/Contexts.lean: the commands of CTX_CMD (14 R334, R335, R339; 11 R269–R274), of the page queues, and
CTX_BIND_CMD (09 R228–R230).
-/

namespace Sys2Proof.Machine

namespace State

/-! ## Activation (R269, R339) -/

/-- Node of a pair's contributor port at one Azard: its place in the node table, when it is an accelerator on a tray port
other than the spare port (R29, R247). -/
def contributorAt (s : State) (n : Nat) (node : BitVec 16) : Option Word :=
  match (s.ctx n).life.charter.nodes.find? fun d => d.lnode = node && d.role = 1 with
  | some d =>
    let k := (d.pos.extractLsb' 42 5).toNat
    if k < 9 && k ≠ s.kin.img.sparePort.toNat then some (d.pos.setWidth 42 |>.setWidth 64) else none
  | none => none

/-- The nodes a pair names. -/
def pairNodes (p : PairDef) : List (BitVec 16) :=
  [p.primary, p.shadow] ++ if p.referee = 0xFFFF then [] else [p.referee]

/-- PAIR_FORMAT (R247). -/
def pairsBad (s : State) (n : Nat) : Bool :=
  let c := (s.ctx n).life.charter
  let member (g : BitVec 5) (m : BitVec 16) : Bool := c.groups.any fun d => d.group.setWidth 5 = g && d.list.contains m
  let all := c.pairs.flatMap pairNodes
  all.eraseDups.length ≠ all.length ||
  c.pairs.any fun p =>
    !member p.group p.primary || member p.group p.shadow || (p.referee ≠ 0xFFFF && member p.group p.referee) ||
    (s.contributorAt n p.primary).isNone || (pairNodes p).any fun m => s.contributorAt n m ≠ s.contributorAt n p.primary

/-- An Azard at a position may hold no context role: Osfel revision 2, or a firmware version that FW_MATCH does not accept
(R300). -/
def roleBarred (s : State) (pos : Word) : Bool :=
  (s.fabric.topo.any fun t => posEq t.pos pos && t.revision = 2) ||
  (s.ports.any fun p => decide (9 ≤ p.1) && p.2.state = .up && posEq p.2.peerPos pos &&
    (p.2.peerOsfel = 2 || (p.2.fwMatch && p.2.fwDiff)))

/-- The definition needs a barred node as a clearing node, the step root, a partner, or, under FW_MATCH, on the route to
this node's parent (R300). -/
def rolesBad (s : State) (n : Nat) (c : ClrCtx) : Bool :=
  let used (m : BitVec 16) : Bool := c.groups.any (fun g => g.nodes.contains m) || c.root = m ||
    (s.entriesOf n).any fun e => e.2.partner = m || e.2.peer = m
  ((s.ctx n).life.charter.nodes.any fun d => d.role = 0 && used d.lnode && s.roleBarred d.pos) ||
  c.groups.any fun g => g.parentPort ≠ 0x1F && (s.port g.parentPort.toNat).fwMatch && (s.port g.parentPort.toNat).fwDiff

/-- Rows 1–7 of R269: the context's clearing state, or the code of the first condition that matches. -/
def judgeDefinition (s : State) (n : Nat) : Except Nat ClrCtx :=
  if s.rst.oos then .error 1
  else match s.clearingDefn n with
    | .error .segFormat => .error 2
    | .error .groupFormat => .error 3
    | r =>
      if s.pairsBad n then .error 4
      else match r with
        | .error .portAbsent => .error 5
        | .error _ => .error 6
        | .ok c =>
          if s.rolesBad n c then .error 6
          else if c.groups.any fun g => (g.clearing || g.transit) && s.vcBusy g.defn.vc n then .error 7
          else
            let mine := (s.localNodes n).map Prod.fst
            .ok { c with pairs := ((s.ctx n).life.charter.pairs.filter fun p => mine.contains p.primary).map fun p => { defn := p } }

/-- An activation is refused: ALC_ACT_LAST and NACK_BUSY with the cause of its code (R269, R407); pages it gives back go to the
queue's head (R270). -/
def refuseNow (s : State) (rq : Req) (n code : Nat) : State := ((s.refuseActivation n code).busy rq (code + 0x1F)).serveWaiters

/-- The checks of R269; what passes takes its pages, or waits for them (R270). -/
def judgeActivation (s : State) (rq : Req) (n : Nat) : State :=
  let s := s.modLife n fun l => { l with waitReq := none, checks := [] }
  match s.judgeDefinition n with
  | .error code => s.refuseNow rq n code
  | .ok c =>
    let s := s.modCtx n fun x => { x with clr := c }
    let mirror := s.mirrorDemand n
    let root := s.rootDemand n
    match s.demandCode s.openDemand mirror root 0 with
    | some code => s.refuseNow rq n code
    | none =>
      if mirror + root ≤ s.freeClean then (s.takeDemand n).ok rq
      else
        let stop := s.now + BitVec.ofNat 64 ((s.ctx n).life.charter.actTimeout * 1000000)
        let w : Waiter := { ctx := ctxFin n, held := [], mirrorDemand := mirror, rootDemand := root, deadline := stop }
        let s := s.modLife n fun l => { l with st := .waitClean }
        ({ s with alc.waiters := s.alc.waiters ++ [w] }.serveWaiters).ok rq

/-- The wiring neighbours that the charter names with ROLE 0 (R339). -/
def charterNeighbours (s : State) (n : Nat) : List (BitVec 16) :=
  ((s.ctx n).life.charter.nodes.filter fun d =>
    d.role = 0 && d.lnode ≠ (s.ctx n).life.self && (s.portTo d.pos).isSome).map fun d => d.lnode

/-- An accepted ACTIVATE: the charter digest goes to the neighbours first (R339). -/
def activate (s : State) (rq : Req) (n : Nat) : State :=
  match s.charterNeighbours n with
  | [] => s.judgeActivation rq n
  | ns =>
    let s := s.notes (ctxFin n) ns 0x35 none [0, (s.ctx n).life.digest.toNat]
    s.modLife n fun l => { l with checks := ns, waitReq := some rq }

/-- A neighbour's answer to CHARTER_CHECK (R339): another digest refuses with TOPOLOGY, unless a row above it in R269 matches. -/
def charterAnswer (s : State) (n : Nat) (node : BitVec 16) (d : Digest) : State :=
  let l := (s.ctx n).life
  match l.waitReq with
  | some q =>
    if !l.checks.contains node then s
    else if d ≠ l.digest then
      s.refuseNow q n (match s.judgeDefinition n with | .error code => min code 6 | .ok _ => 6)
    else
      let left := l.checks.filter (· ≠ node)
      let s := s.modLife n fun l => { l with checks := left }
      if left = [] then s.judgeActivation q n else s
  | none => s

/-! ## QUIESCE, RESUME (R138, R164, R276, R334) -/

/-- An entry's program has changed since it was sent (R164). -/
def programChanged (s : State) (n : Nat) (e : Entry) : Bool :=
  match s.progSlot n e.program with
  | none => false
  | some (_, p) => e.image ≠ p.bytes.read 0 p.length.toNat ||
      e.hyperBytes ≠ (s.ctx n).prog.hyper.read e.hyper.toNat (parseProg p.bytes).hyperMin

/-- Parked copies are asked home as CLEAN pages are found (R276); a RESUME is answered once pages stand for every one. -/
def fetchParked (s : State) (n : Nat) : State :=
  let s := s.askParked n
  if (s.parkedOf n).any fun e => e.2.alloc = [] then s
  else match (s.ctx n).life.waitReq with
    | some q => (s.modLife n fun l => { l with waitReq := none }).ok q
    | none => s

/-- A RESUME is done: SEALs, transfers and parked copies (R334). -/
def resumeDone (s : State) (n : Nat) : Bool :=
  let l := (s.ctx n).life
  l.resuming && l.st = .quiesced && l.transfers = [] && s.parkedOf n = [] &&
    (s.entriesOf n).all fun e => !e.2.sealDue && e.2.closing ≠ .seal

/-- The context returns to ACTIVE once nothing of its RESUME is left (R334). -/
def tryResume (s : State) (n : Nat) : State :=
  if s.resumeDone n then s.modLife n fun l => { l with st := .active, resuming := false } else s

/-- An accepted RESUME (R138, R164, R276, R334). -/
def resume (s : State) (rq : Req) (n : Nat) : State :=
  let s := s.modLife n fun l => { l with resuming := true, waitReq := some rq }
  let s := ((s.entriesOf n).filter fun e => !e.2.role && e.2.editOpen).foldl (fun (s : State) e => s.sealEntry n e.1) s
  let t := ((s.entriesOf n).filter fun e => !e.2.role && e.2.st ≠ .retiring && s.programChanged n e.2).foldl (fun (s : State) e =>
    let s := (s.takeProgram n e.1).sendProgram n e.1
    s.sync n e.1 .update 0 (programData (s.entry e.1))) s
  let ids := newIds s t
  ((t.modLife n fun l => { l with transfers := ids }).fetchParked n).tryResume n

/-! ## CTX_CMD (R335) -/

/-- A command of CTX_CMD: who may write it, a repeat of its SEQ, the states that accept it (R335). -/
def ctxCommand (s : State) (rq : Req) (n : Fin 16) (cmd : Nat) (seq : BitVec 16) (who : Who) (okIn : State → Bool)
    (k : State → State) : State :=
  s.begin.control rq false who fun s =>
    if !management rq && rq.ctx ≠ n then s.nackAccess rq
    else
      let l := (s.ctx n).life
      let s := s.modLife n fun l => { l with cmd := BitVec.ofNat 3 cmd, seq := seq }
      if l.acted = seq then
        if l.waitReq.isSome then s.modLife n fun l => { l with waitReq := some rq }
        else match l.outcome with
          | .ok => s.ok rq
          | .busy c => s.busy rq c.toNat
      else
        let s := s.modLife n fun l => { l with acted := seq, outcome := .ok }
        if okIn s then k s
        else (s.modLife n fun l => { l with cause := 8, outcome := .busy 1 }).busy rq 1

/-- CMD = ACTIVATE (R269, R339). -/
def ctxActivate (s : State) (rq : Req) (n : Fin 16) (seq : BitVec 16) : State :=
  s.ctxCommand rq n 1 seq .charter (fun s => (s.ctx n).life.st = .chartered && !(s.ctx n).life.activating)
    fun s => s.activate rq n

/-- CMD = QUIESCE (R334): an OPEN attempt is voided as under CMD = VOID. -/
def ctxQuiesce (s : State) (rq : Req) (n : Fin 16) (seq : BitVec 16) : State :=
  s.ctxCommand rq n 2 seq .charter (fun s => (s.ctx n).life.st = .active) fun s =>
    if (s.ctx n).life.quiescing then s.ok rq
    else
      let s := s.modLife n fun l => { l with quiescing := true }
      let s := match s.openAtt n with
        | some a => s.requestVoid n a
        | none => s
      (s.settleQuiesce n).ok rq

/-- CMD = RESUME (R334). -/
def ctxResume (s : State) (rq : Req) (n : Fin 16) (seq : BitVec 16) : State :=
  s.ctxCommand rq n 3 seq .charter (fun s => (s.ctx n).life.st = .quiesced) fun s =>
    if (s.ctx n).life.resuming then s.ok rq else s.resume rq n

/-- CMD = RELEASE (R334). -/
def ctxRelease (s : State) (rq : Req) (n : Fin 16) (seq : BitVec 16) : State :=
  s.ctxCommand rq n 4 seq .both (fun s => (s.ctx n).life.st ≠ .empty && (s.ctx n).life.st ≠ .wiping) fun s =>
    (s.goWiping n).ok rq

/-- CMD = CLEAR (R335). -/
def ctxClear (s : State) (rq : Req) (n : Fin 16) (seq : BitVec 16) : State :=
  s.ctxCommand rq n 5 seq .both (fun s => (s.ctx n).life.st = .empty) fun s =>
    (s.modLife n fun l => { l with bytes := [], units := [], length := none, count := 0 }).ok rq

/-! ## Moving pages (R273, R274) -/

/-- No work is in progress on an entry's copy, and it stands at the newest RELEASED step (R273). -/
def movable (s : State) (i : Nat) : Bool :=
  let e := s.entry i
  (s.runOfEntry i).isNone && e.queued = [] && e.repairing = [] && e.windowWrites = [] && e.closing = .none && !e.sealDue &&
  e.st ≠ .filling && e.st ≠ .free && e.st ≠ .retiring && e.waitEscrow.isNone && e.votes.all fun v => v.outcome.isSome

/-- A copy is split over regions (R268). -/
def isSplit (e : Entry) : Bool := match e.alloc with
  | [] => false
  | a :: r => r.any fun x => regionOf x.1 ≠ regionOf a.1

/-- Pages of a copy in region q. -/
def pagesIn (e : Entry) (q : Nat) : Nat := pageCount (e.alloc.filter fun x => regionOf x.1 = q)

/-- The home region of a split copy: the one with most of its pages, the lowest on a tie (log entry 85). -/
def homeRegion (e : Entry) : Nat :=
  ((sortBy (fun a b => decide (pagesIn e b < pagesIn e a || (pagesIn e b = pagesIn e a && a ≤ b))) [0, 1, 2, 3]).head?).getD 0

/-- Region q's HBM-level stall cycles in the last step of a context exceeded MIGRATE_PCT of its cycles (R273). -/
def overloaded (s : State) (n q : Nat) : Bool :=
  let l := Map.get {} s.alc.lastLoad n
  decide (s.alc.migratePct.toNat * l.cycles < 100 * Map.get 0 l.stall q)

/-- The copy of a context with the most HBM traffic in region q during its last step, the lowest entry on a tie (R273). -/
def hottest (s : State) (n q : Nat) : Option Nat :=
  let l := Map.get {} s.alc.lastLoad n
  let heat (i : Nat) : Nat := Map.get 0 l.traffic i
  let here := ((s.entriesOf n).filter fun e => pagesIn e.2 q ≠ 0).map Prod.fst
  (sortBy (fun a b => decide (heat b < heat a || (heat b = heat a && a ≤ b))) here).head?

/-- The region that a copy of `k` pages moves to for balance: of those powered with room, the one with the fewest stalls, the
lowest on a tie (R273). -/
def calmRegion (s : State) (n src k : Nat) : Option Nat :=
  let l := Map.get {} s.alc.lastLoad n
  let st (q : Nat) : Nat := Map.get 0 l.stall q
  (sortBy (fun a b => decide (st a < st b || (st a = st b && a ≤ b)))
    ((List.range 4).filter fun q => q ≠ src && s.powered q && decide (k ≤ s.cleanRegion q))).head?

/-- Why a copy moves: a region to be gated, consolidation, balance (R273); the rest of the copy finds room where it goes. -/
def mayMove (s : State) (i : Nat) (src dst : Nat) (reason : BitVec 2) : Bool :=
  let e := s.entry i
  let n := e.ctx.toNat
  let moved := (Map.get 0 s.alc.movedStep n)
  let cap := s.alc.migratePages.toNat
  let q := regionOf src
  let there := regionOf dst
  s.movable i && e.alloc.any (fun x => x.1 = src && x.2 ≠ 0) && dst < 8 && q ≠ there &&
  (s.hbm dst).cleanMirror ≠ 0 && s.freeClean ≠ 0 && s.powered there && decide (pagesIn e q ≤ s.cleanRegion there) &&
  match reason.toNat with
  | 0 => (s.region q).power = .gating && (cap = 0 || decide (moved < cap))
  | 1 => isSplit e && homeRegion e = there && decide (pageCount e.alloc - pagesIn e there ≤ s.cleanRegion there) && decide (moved < cap)
  | 2 => decide (moved < cap) && (s.alc.moving.contains i ||
      (s.overloaded n q && s.hottest n q = some i && s.calmRegion n q (pagesIn e q) = some there))
  | _ => false

/-- Pages of a copy by stack, with one of `src` now on `dst`. -/
def shiftPage (l : List (Nat × Nat)) (src dst : Nat) : List (Nat × Nat) :=
  let l := (l.map fun x => if x.1 = src then (x.1, x.2 - 1) else x).filter fun x => x.2 ≠ 0
  if l.any fun x => x.1 = dst then l.map fun x => if x.1 = dst then (x.1, x.2 + 1) else x else l ++ [(dst, 1)]

/-- One page moved: its page-table entry switches, its source becomes DIRTY (R266, R273). -/
def movePage (s : State) (i src dst : Nat) (last : Bool) : State :=
  let n := (s.entry i).ctx.toNat
  let s := s.modHbm dst fun h => { h with cleanMirror := h.cleanMirror - 1 }
  let s := (s.modEntry i fun e => { e with alloc := shiftPage e.alloc src dst }).makeDirty (some (ctxFin n)) .mirror [(src, 1)]
  { s with
    alc.moved := satInc s.alc.moved
    alc.movedStep := Map.mod 0 s.alc.movedStep n (· + 1)
    alc.moving := (s.alc.moving.filter (· ≠ i)) ++ if last then [] else [i] }

/-! ## CTX_BIND_CMD (R228, R229) -/

/-- The condition of R228 that refuses a bind. -/
def bindCause (s : State) (n : Nat) (logical : BitVec 16) (port : BitVec 4) : Option Nat :=
  let c := s.ctx n
  let p := s.port port.toNat
  if c.life.st ≠ .active && c.life.st ≠ .quiesced then some 1
  else if !c.bind.ever.contains logical then some 2
  else if decide (9 ≤ port.toNat) || p.state ≠ .up || !p.conformed then some 3
  else if c.bind.bound.any fun b => b.2 = port && b.1 ≠ logical then some 4
  else if (s.entriesOf n).any fun e => !e.2.role && e.2.owner = logical && e.2.st = .live then some 5
  else none

/-- A slot for a local entry at the node's Yobel: the slot it has there is written again, or a free one taken (R229). -/
def bindSlot (s : State) (n i k : Nat) : State :=
  match s.slotOf n i with
  | some (_, sl) => (s.modPort k fun p => { p with slotsUsed := p.slotsUsed.filter fun x => x.slot ≠ sl }).writeSlot n i k sl
  | none => match s.freeSlot k with
    | some sl => s.writeSlot n i k sl
    | none => s

/-- An accepted bind (R229). -/
def bindPort (s : State) (n : Nat) (logical : BitVec 16) (port : BitVec 4) : State :=
  let old := s.portOfNode n logical
  let k := port.toNat
  let moved := old ≠ some k
  let t := match old with
    | some o => if moved then s.sendRemove n o else s
    | none => s
  let t := t.modCtx n fun c => { c with bind.bound := (c.bind.bound.filter fun b => b.1 ≠ logical) ++ [(logical, port)] }
  -- the pair's primary is bound here now, and no longer where it was (R264)
  let t := if moved && t.pairPrimary n logical then old.elim t fun o => t.modTstPort o fun x => { x with pairValid := false } else t
  let t := t.bindPair n logical k
  let mine := (t.entriesOf n).filter fun e => !e.2.role && e.2.owner = logical && e.2.st ≠ .free
  let t := mine.foldl (fun (s : State) e => s.bindSlot n e.1 k) t
  -- a MIRROR fill begins anew at the slot written, once R231 holds again (R221, R242)
  let t := mine.foldl (fun (s : State) e =>
    if e.2.st = .filling && e.2.fillSource = 3 && !e.2.unrecoverable then
      s.modEntry e.1 fun x => { x with fill := {}, fillDone := 0, fillNext := 0 }
    else s) t
  let t := mine.foldl (fun (s : State) e => s.sendProgram n e.1) t
  let t := (t.sendTables n k).joinYobel n k logical
  let ids := newIds s t
  t.modCtx n fun c => { c with bind := { c.bind with
    st := 1, cause := 0, ids := ids
    oldPort := match old with | some o => if moved then BitVec.ofNat 4 o else 0xF | none => 0xF } }

/-- CTX_BIND_CMD written by an endpoint of the context (R228, R230). -/
def bindCommand (s : State) (rq : Req) (n : Fin 16) (logical : BitVec 16) (port : BitVec 4) (seq : BitVec 16) : State :=
  s.control rq false .charter fun s =>
    if rq.ctx ≠ n then s.nackAccess rq
    else
      let old := (s.ctx n).bind.acted
      let s := s.modCtx n fun c => { c with bind := { c.bind with logical := logical, port := port, seq := seq, acted := seq } }
      if old = seq then s.ok rq
      else
        let s := s.modCtx n fun c => { c with bind := { c.bind with stSeq := seq, stLogical := logical } }
        match s.bindCause n logical port with
        | some c => (s.modCtx n fun x => { x with bind := { x.bind with
            st := 3, cause := BitVec.ofNat 8 c, oldPort := 0xF, ids := [] } }).ok rq
        | none => (s.bindPort n logical port).ok rq

end State

/-! ## The commands -/

/-- ACTIVATE (R269, R339). -/
def execCtxActivate (rq : Req) (n : Fin 16) (seq : BitVec 16) (s : State) : Host.Outcome State Fault Refusal :=
  .next (s.ctxActivate rq n seq)

/-- CHARTER_CHECK_RECEIVED (R339): a neighbour's question is answered with this Azard's charter digest, zero when it holds
none; a neighbour's answer is judged. -/
def execCharterCheckReceived (rq : Req) (answer : Bool) (digest : Digest) (s : State) : Host.Outcome State Fault Refusal :=
  .next (s.message rq fun s =>
    if answer then s.charterAnswer rq.ctx rq.source digest
    else s.note rq.ctx rq.source 0x35 none [1, (s.ctx rq.ctx).life.digest.toNat])

/-- QUIESCE (R334): an OPEN attempt is voided as under CMD = VOID; the state changes once none is OPEN. -/
def execCtxQuiesce (rq : Req) (n : Fin 16) (seq : BitVec 16) (s : State) : Host.Outcome State Fault Refusal :=
  .next (s.ctxQuiesce rq n seq)

/-- RESUME (R334). -/
def execCtxResume (rq : Req) (n : Fin 16) (seq : BitVec 16) (s : State) : Host.Outcome State Fault Refusal :=
  .next (s.ctxResume rq n seq)

/-- RESUME_COMPLETE (R334). -/
def execResumeComplete (n : Fin 16) (s : State) : Host.Outcome State Fault Refusal :=
  .next (s.begin.tryResume n)

/-- RELEASE (R334). -/
def execCtxRelease (rq : Req) (n : Fin 16) (seq : BitVec 16) (s : State) : Host.Outcome State Fault Refusal :=
  .next (s.ctxRelease rq n seq)

/-- CTX_CLEAR (R335): a refused or partly loaded charter is erased. -/
def execCtxClear (rq : Req) (n : Fin 16) (seq : BitVec 16) (s : State) : Host.Outcome State Fault Refusal :=
  .next (s.ctxClear rq n seq)

/-- PAGE_WIPE_DONE (R266): the wipe queue's head page has been wiped and read back. -/
def execPageWipeDone (good : Bool) (s : State) : Host.Outcome State Fault Refusal :=
  let s := ((s.begin.wipeHead good).judgeRetired.serveWaiters).settleWipes.damper
  .next (State.ctxNums.foldl (fun (s : State) (n : Fin 16) => if (s.ctx n).life.resuming then s.fetchParked n
    else if (s.ctx n).life.evictDue then s.askParked n else s) s)

/-- CLEAN_TIMEOUT (R271): a waiting context's window has ended. -/
def execCleanTimeout (n : Fin 16) (s : State) : Host.Outcome State Fault Refusal :=
  let s := s.begin
  if s.alc.waiters.any fun w => w.ctx = n && decide (w.deadline.toNat ≤ s.now.toNat) then
    .next (((((s.dropWaiter n).refuseActivation n 10).event 14 10 (evSource 5 n))).serveWaiters)
  else .next s

/-- PARKED_TIMEOUT (R276): no pages for a parked copy before the activation timeout; RESUME answers PARKED and the context
stays QUIESCED; an eviction notice takes effect with copies still parked (log entry 82). -/
def execParkedTimeout (n : Fin 16) (s : State) : Host.Outcome State Fault Refusal :=
  let s := s.begin
  let l := (s.ctx n).life
  match l.waitReq with
  | some q =>
    if l.resuming && l.st = .quiesced then
      .next ((s.modLife n fun l => { l with resuming := false, waitReq := none, outcome := .busy 0x0C }).busy q 0x0C)
    else .next s
  | none => .next (if l.evictDue && l.st = .quiesced then s.evictNow n else s)

/-- PAGE_MOVE (R273): one page of a copy goes from a stack to a stack of another region; `last` ends the move. -/
def execPageMove (e : BitVec 16) (src dst : Fin 8) (reason : BitVec 2) (last : Bool) (s : State) :
    Host.Outcome State Fault Refusal :=
  let s := s.begin
  .next (if s.mayMove e.toNat src dst reason then s.movePage e.toNat src dst last else s)

/-- BIND (R228): CTX_BIND_CMD of context `n`. -/
def execBindNode (rq : Req) (n : Fin 16) (logical : BitVec 16) (port : BitVec 4) (seq : BitVec 16) (s : State) :
    Host.Outcome State Fault Refusal :=
  .next (s.begin.bindCommand rq n logical port seq)

end Sys2Proof.Machine
end

