-- ==== Sys2Proof/Machine/Drain.lean ====
section
/-!
DEFINITION. Sys2Proof/Machine/Drain.lean: the shared operations of the flue: objects and their keys (08 R209, R212, R213), the
drain of a checkpoint (R206, R207), its manifests and commit (R212–R214), and the RESTORE fill (R216).
-/

namespace Sys2Proof.Machine

/-! ## Objects (R209, R212, R213) -/

/-- The page key of a shard and claim (R209). -/
def pageKey (key : Digest) (shard claim : Word) : Digest :=
  hash256 ([0x41, 0x5A, 0x50, 0x59] ++ digestBytes key ++ natLe 8 shard.toNat ++ natLe 8 claim.toNat)

/-- The nonce of a PAGE object: SHARD_ID, then PAGE (R209). -/
def pageNonce (shard : Word) (p : Nat) : BitVec 96 := BitVec.ofNat 96 (shard.toNat + p * 18446744073709551616)

/-- The fields of an object header that its writer chooses (R209). -/
structure FlueHdr where
  kind : Nat
  length : Nat
  seq : BitVec 32
  page : Nat := 0
  step : Word
  shard : Word := 0
  claim : Word := 0
  version : BitVec 32 := 0
  plen : Nat := 0
  digest : Digest := 0
  deriving DecidableEq, Repr

/-- The 128-byte header of an object (R209). -/
def flueHeader (lineage : Digest) (h : FlueHdr) : Bytes :=
  [0x41, 0x5A, 0x46, 0x4F] ++ natLe 2 1 ++ natLe 1 h.kind ++ natLe 1 0 ++ natLe 8 h.length ++ digestBytes lineage ++
    natLe 4 h.seq.toNat ++ natLe 4 h.page ++ natLe 8 h.step.toNat ++ natLe 8 h.shard.toNat ++ natLe 8 h.claim.toNat ++
    natLe 4 h.version.toNat ++ natLe 4 h.plen ++ natLe 8 0 ++ digestBytes h.digest

/-- A length brought up to a multiple of 8. -/
def pad8 (n : Nat) : Nat := (n + 7) / 8 * 8

/-- A digest at an offset of a byte string. -/
def Bytes.digest (b : Bytes) (off : Nat) : Digest := BitVec.ofNat 256 (Bytes.le b off 32)

namespace State

/-- Bytes of a manifest of `n` bytes once certificate chain and signature follow it (R213). -/
def signedLen (s : State) (n : Nat) : Nat := pad8 (n + 8 + s.sec.identityChain.length) + 1280

/-- A manifest with its certificate chain and the signature by the device's identity key (R213). -/
def signed (s : State) (b : Bytes) : Bytes :=
  let c := s.sec.identityChain
  let b := Bytes.at (b ++ natLe 4 c.length ++ natLe 4 0 ++ c) 0 (pad8 (b.length + 8 + c.length))
  b ++ Bytes.at (Config.falconSign s.sec.identityKey b) 0 1280

/-- A WRC that PUTs an object to flue target t (R210): the slot's descriptor and data are one request (log entry 30). -/
def putFlue (s : State) (n : Nat) (node : BitVec 16) (kind e p : Nat) (data : Bytes) : State :=
  s.request { dest := .node (ctxFin n) node, op := .wrc, addr := 6 * 17592186044416 + 1099511627776
              args := [1, kind, e, p, (s.ctx n).esc.curSeq.toNat], data := data }

/-! ## The drain (R206, R207) -/

/-- A PAGE object (R209). -/
def pageObject (s : State) (n i p : Nat) (d : Bytes) : Bytes :=
  let e := s.entry i
  let c := s.ctx n
  let v := Map.get 0 e.snapVoted p
  let h := flueHeader c.life.charter.lineage
    { kind := 1, length := 128 + d.length + 16, seq := c.esc.curSeq, page := p, step := c.esc.ckptStep, shard := e.shardId
      claim := e.claim, version := e.snapVersion, plen := d.length, digest := v }
  h ++ Config.gcmSeal (pageKey (c.esc.key.getD 0) e.shardId e.claim) (pageNonce e.shardId p) h d

/-- The shard's flue target can take another PUT (R206). -/
def mayPut (s : State) (n i : Nat) : Bool :=
  match s.flueOf n (s.entry i).owner with
  | none => false
  | some (t, _) => decide (((s.ctx n).esc.puts.filter fun x => x.target.toNat = t).length < s.esc.outstanding.toNat)

/-- A PUT goes to a flue target and stands outstanding there (R206). -/
def putOut (s : State) (n t : Nat) (node : BitVec 16) (kind i p : Nat) (data : Bytes) : State :=
  (s.modCtx n fun c => { c with esc.puts := c.esc.puts ++ [{ target := BitVec.ofNat 8 t, kind := kind, entry := i, page := p }] }).putFlue
    n node kind i p data

/-- The held content of page p goes to the flue. -/
def sendPage (s : State) (n i p : Nat) (d : Bytes) : State :=
  match s.flueOf n (s.entry i).owner with
  | none => s
  | some (t, node) => s.putOut n t node 1 i p (s.pageObject n i p d)

/-- The next page of an entry's drain set, in ascending page index; none when it may not be sent yet (R206). -/
def nextPage (s : State) (n i : Nat) : Option Nat :=
  let e := s.entry i
  let out (p : Nat) : Bool := (s.ctx n).esc.puts.any fun x => x.kind = 1 && x.entry = i && x.page = p
  match e.drainSet.find? fun p => !e.acked.contains p && !out p with
  | none => none
  | some p => if (e.snapVoted.any fun x => x.1 = p) && !e.heldAsked.contains p then some p else none

/-- This copy drains the shard now. -/
def drains (e : Entry) : Bool := e.drainOwner && !e.listing && !e.drainStop

/-- The held content's digest at the snapshot version is the voted one (R206). -/
def heldOk (s : State) (i p : Nat) (d : Bytes) : Bool :=
  let e := s.entry i
  pageDigest e.shardId p e.snapVersion d = Map.get 0 e.snapVoted p

/-- A page is verified and sent, or its held content is asked of the other mirror (R206). -/
def drainPage (s : State) (n i p : Nat) : State :=
  let d := s.heldContent n i p
  if s.heldOk i p d then s.sendPage n i p d
  else if otherLost (s.entry i) then s.abandonCkpt n 4
  else
    let s := { s with esc.refetch := satInc s.esc.refetch }.record 10 11 (evSource 5 n i) 0 (BitVec.ofNat 32 p) 0
    (s.modEntry i fun e => { e with heldAsked := e.heldAsked ++ [p] }).sync n i .held p

/-- The other mirror's held page is sent to the drain owner (R206). -/
def giveHeld (s : State) (n i p : Nat) : State :=
  let e := s.entry i
  s.partnerPage n i .held p e.snapVersion (Map.get 0 e.snapVoted p) (p * 2097152) (s.heldContent n i p)

/-- A held page has come from the other mirror: it goes out when it digests to the voted value (R206). -/
def takeHeld (s : State) (n i p : Nat) (d : Bytes) : State :=
  if !(s.entry i).heldAsked.contains p then s
  else
    let s := s.modEntry i fun e => { e with heldAsked := e.heldAsked.filter (· ≠ p) }
    if s.heldOk i p d then s.sendPage n i p d else s.abandonCkpt n 4

/-! ## SHARD_MANIFEST (R212) -/

/-- The page entries of a shard's manifest: a page acknowledged in this checkpoint lies under its sequence. -/
def pageEntries (s : State) (n i : Nat) : Bytes :=
  let e := s.entry i
  let c := s.ctx n
  let t := e.owner.toNat % c.life.charter.flues.length
  (List.range e.pages.toNat).flatMap fun p =>
    let x := if e.acked.contains p then (c.esc.curSeq, BitVec.ofNat 8 t) else Map.get (0, 0) e.src p
    digestBytes (Map.get 0 e.snapVoted p) ++ natLe 4 x.1.toNat ++ natLe 1 x.2.toNat ++ natLe 3 0

/-- A SHARD_MANIFEST object. -/
def shardManifest (s : State) (n i : Nat) : Bytes :=
  let e := s.entry i
  let c := s.ctx n
  let h := flueHeader c.life.charter.lineage
    { kind := 2, length := s.signedLen (0x140 + 40 * e.pages.toNat), seq := c.esc.curSeq, step := c.esc.ckptStep
      shard := e.shardId, claim := e.claim }
  s.signed (h ++ natLe 8 e.shardId.toNat ++ natLe 8 e.length.toNat ++ natLe 2 e.owner.toNat ++ natLe 2 e.partner.toNat ++
    natLe 2 e.program.toNat ++ natLe 1 e.group.toNat ++ natLe 1 0 ++ natLe 4 e.snapVersion.toNat ++ natLe 4 e.pages.toNat ++
    natLe 2 e.segFirst.toNat ++ natLe 2 e.segCount.toNat ++ natLe 4 e.stream.toNat ++ natLe 4 e.windowBase.toNat ++ natLe 4 0 ++
    natLe 8 e.hyper.toNat ++ natLe 8 0 ++ digestBytes e.snapRoot ++ digestBytes (hash256 e.image) ++
    digestBytes (hash256 e.hyperBytes) ++ natLe 4 0 ++ natLe 4 (bit c.esc.base) ++ List.replicate 24 0 ++ s.pageEntries n i)

/-- Every page of the drain set is acknowledged and every page voted: the manifest is due (R212). -/
def manifestDue (s : State) (n i : Nat) : Bool :=
  let e := s.entry i
  (s.ctx n).esc.curSeq ≠ 0 && drains e && !e.manifestSent && e.drainSet.all e.acked.contains &&
    e.snapVoted.length = e.pages.toNat

/-- A shard's manifest goes out when it is due. -/
def tryManifest (s : State) (n i : Nat) : State :=
  if !s.manifestDue n i || !s.mayPut n i then s
  else match s.flueOf n (s.entry i).owner with
    | none => s
    | some (t, node) => (s.modEntry i fun e => { e with manifestSent := true }).putOut n t node 2 i 0 (s.shardManifest n i)

/-- The next thing the drain sends: the included entries in ascending index (R206). -/
def drainStep (s : State) (n : Nat) : State :=
  let mine := (s.ctx n).esc.included.filter fun i => drains (s.entry i.toNat)
  let es := sortBy (fun (a b : BitVec 16) => decide (a.toNat ≤ b.toNat)) mine
  match es.find? fun i => (s.nextPage n i.toNat).isSome && s.mayPut n i.toNat with
  | some i => match s.nextPage n i.toNat with
    | some p => s.drainPage n i.toNat p
    | none => s
  | none => match es.find? fun i => s.manifestDue n i.toNat && s.mayPut n i.toNat with
    | some i => s.tryManifest n i.toNat
    | none => s

/-! ## SHARD_DONE, CHECKPOINT_MANIFEST, commit (R213, R214) -/

/-- The step root collects a SHARD_DONE; a later one of the same shard replaces it (R213). -/
def takeShardDone (s : State) (n : Nat) (seq : BitVec 32) (d : ShardDone) : State :=
  if !(s.ctx n).life.stepRoot || (s.ctx n).esc.curSeq ≠ seq || seq = 0 then s
  else s.modCtx n fun c => { c with esc.doneList := (c.esc.doneList.filter fun x => x.shardId ≠ d.shardId) ++ [d] }

/-- The drain owner's SHARD_DONE, once its manifest is acknowledged (R213). -/
def sendShardDone (s : State) (n i : Nat) (obj : Bytes) : State :=
  let e := s.entry i
  let c := s.ctx n
  let t := e.owner.toNat % c.life.charter.flues.length
  let named := (((List.range e.pages.toNat).filter fun p => !e.acked.contains p).map fun p => (Map.get (0, 0) e.src p).1).eraseDups
  let d : ShardDone :=
    { shardId := e.shardId, claim := e.claim, target := BitVec.ofNat 8 t, digest := hash256 obj, named := named }
  if c.life.stepRoot then s.takeShardDone n c.esc.curSeq d
  else s.note (ctxFin n) c.clr.root 0x31 none
    ([c.esc.curSeq.toNat, d.shardId.toNat, d.claim.toNat, t, d.digest.toNat] ++ named.map BitVec.toNat)

/-- The shards of the checkpoint in progress, once every node's note for S has named those it includes (R199). -/
def ckptShards (s : State) (n : Nat) : Option (List (Word × Digest)) :=
  let c := s.ctx n
  let notes := c.life.notes.filter fun x => x.step = c.esc.ckptStep
  if c.esc.head.isSome then some c.esc.shards
  else if c.clr.azards ≠ [] && c.clr.azards.all fun z => notes.any fun x => x.node = z then some (notes.flatMap fun x => x.included)
  else none

/-- This node is the step root and holds the SHARD_DONE of every included shard (R213, R219). -/
def allDone (s : State) (n : Nat) : Bool :=
  (s.ctx n).life.stepRoot && (s.ctx n).esc.curSeq ≠ 0 &&
    (s.ckptShards n).any fun l => l.all fun x => (s.ctx n).esc.doneList.any fun d => d.shardId = x.1

/-- Every SHARD_DONE is in, S is VOTED and its receipt is issued (R213, R344). -/
def manifestReady (s : State) (n : Nat) : Bool :=
  let c := s.ctx n
  s.allDone n && !c.esc.manifestPut && c.esc.head.isSome && s.isVoted n c.esc.ckptStep.toNat

/-- WINDOWS of a CHECKPOINT_MANIFEST (R213). -/
def windowsBytes (ws : List (BitVec 12 × BitVec 16 × BitVec 16)) : Bytes :=
  ((List.range 4095).flatMap fun k => match ws.find? fun w => w.1.toNat = k with
    | some w => natLe 4 (w.2.1.toNat + 65536 * w.2.2.toNat)
    | none => natLe 4 0x80000000) ++ natLe 4 0

/-- A CHECKPOINT_MANIFEST object (R213). -/
def checkpointManifest (s : State) (n : Nat) : Bytes :=
  let c := s.ctx n
  let e := c.esc
  -- the keys of the other checkpoints that the page entries name (R213; log entry 98)
  let ch := (e.chain.filter fun k => k.1 ≠ e.curSeq && e.doneList.any fun d => d.named.contains k.1).reverse
  let done := sortBy (fun (a b : ShardDone) => decide (a.shardId.toNat ≤ b.shardId.toNat))
    (e.doneList.filter fun d => e.shards.any fun x => x.1 = d.shardId)
  let table := done.flatMap fun d =>
    natLe 8 d.shardId.toNat ++ natLe 8 d.claim.toNat ++ natLe 1 d.target.toNat ++ natLe 7 0 ++ digestBytes d.digest
  let h := flueHeader c.life.charter.lineage
    { kind := 3, length := s.signedLen (0x4758 + 128 + 40 * ch.length + 16 + 56 * done.length), seq := e.curSeq
      step := e.ckptStep }
  let plain := Bytes.at e.latched 0 128 ++ ch.flatMap fun k => natLe 4 k.1.toNat ++ natLe 4 0 ++ digestBytes k.2
  s.signed (h ++ natLe 8 e.ckptStep.toNat ++ natLe 4 e.curSeq.toNat ++ natLe 4 e.doneSeq.toNat ++
    natLe 4 (if e.base then e.curSeq.toNat else e.baseSeq.toNat) ++ natLe 4 done.length ++ natLe 8 e.snapTime.toNat ++
    digestBytes c.life.digest ++ digestBytes (e.head.getD 0) ++ digestBytes (merkle (e.shards.map Prod.snd)) ++
    Bytes.at e.kemCt 0 1568 ++ Bytes.at e.wrap 0 48 ++ natLe 4 ch.length ++ natLe 4 0 ++ windowsBytes e.windows ++
    Config.gcmSeal (e.key.getD 0) (BitVec.ofNat 96 (0xFFFFFFFF * 18446744073709551616)) h plain ++ table)

/-- Flue targets that get the CHECKPOINT_MANIFEST: those that hold a shard, FLUE[0] when there is none (R213). -/
def manifestTargets (s : State) (n : Nat) : List Nat :=
  let e := (s.ctx n).esc
  if e.shards = [] then [0]
  else (List.range (s.ctx n).life.charter.flues.length).filter fun t =>
    e.doneList.any fun d => d.target.toNat = t && e.shards.any fun x => x.1 = d.shardId

/-- The CHECKPOINT_MANIFEST goes to its targets (R213). -/
def putManifest (s : State) (n : Nat) : State :=
  if !s.manifestReady n then s
  else
    let m := s.checkpointManifest n
    let nodes := (s.manifestTargets n).filterMap fun t => ((s.ctx n).life.charter.flues[t]?).map fun x => (t, x)
    let s := s.modCtx n fun c => { c with esc.manifestPut := true, esc.manifestsOut := nodes.length }
    nodes.foldl (fun (s : State) x => s.putOut n x.1 x.2 3 0 x.1 m) s

/-- The checkpoint commits: CKPT_COMMIT goes to every other node and acts here (R213, R214). -/
def commitAll (s : State) (n : Nat) : State :=
  let seq := (s.ctx n).esc.curSeq
  ((s.notes (ctxFin n) (s.otherAzards n) 0x32 none [seq.toNat]).commitCkpt n).resumeSeals n

/-! ## Answers to PUTs -/

/-- A PUT outstanding at a flue target: KIND, entry, page (or target), of the checkpoint in progress. -/
def putOf (s : State) (n : Nat) (m : Msg) : Option (Nat × Nat × Nat) :=
  match m.op, m.args with
  | .wrc, [1, kind, e, p, seq] => if seq = (s.ctx n).esc.curSeq.toNat && seq ≠ 0 then some (kind, e, p) else none
  | _, _ => none

/-- A PUT stands outstanding no longer. -/
def putBack (s : State) (n kind i p : Nat) : State :=
  s.modCtx n fun c => { c with esc.puts := c.esc.puts.filter fun x => !(x.kind = kind && x.entry = i && x.page = p) }

/-- A PUT is answered OK: a page is acknowledged, here and at the other mirror; a shard's manifest sends SHARD_DONE; the last
CHECKPOINT_MANIFEST commits (R206, R207, R212, R213). -/
def putOk (s : State) (n : Nat) (m : Msg) : State :=
  match s.putOf n m with
  | none => s
  | some (kind, i, p) =>
    let s := { s with esc.bytes := satAdd s.esc.bytes m.data.length }.modCtx n fun c => { c with
      esc.drained := c.esc.drained + m.data.length }
    let s := s.putBack n kind i p
    match kind with
    | 1 =>
      let s := { s with esc.sent := satInc s.esc.sent }.modEntry i fun e => { e with
        acked := if e.acked.contains p then e.acked else e.acked ++ [p] }
      let s := s.endHold n i p
      let e := s.entry i
      let s := if e.degradedP then s
        else s.note (ctxFin n) e.peer 0x25 none [e.shardId.toNat, (s.ctx n).esc.curSeq.toNat, p]
      (s.tryManifest n i).resumeSeals n
    | 2 => s.sendShardDone n i m.data
    | _ =>
      let k := (s.ctx n).esc.manifestsOut - 1
      let s := s.modCtx n fun c => { c with esc.manifestsOut := k }
      if k = 0 then s.commitAll n else s

/-- A PUT is refused: a stale claim stops the drain of the shard, NACK_ACCESS and NACK_ADDRESS abandon the checkpoint (R204,
R211, R406). -/
def putRefused (s : State) (n : Nat) (m : Msg) (r : Result) : State :=
  match s.putOf n m with
  | none => s
  | some (kind, i, p) =>
    match r with
    | .nackClaim =>
      let s := s.putBack n kind i p
      if kind = 3 then s
      else s.modEntry i fun e => { e with drainStop := true, manifestSent := e.manifestSent && kind ≠ 2 }
    | _ => (s.abandonCkpt n 5).resumeSeals n

/-- The answer to a takeover's LIST: the pages present are not sent again (R206). -/
def listAnswer (s : State) (n i : Nat) (seq : Nat) (d : Bytes) : State :=
  if seq ≠ (s.ctx n).esc.curSeq.toNat || seq = 0 || !(s.entry i).listing then s
  else
    let have_ := (List.range (d.length / 4)).map fun k => Bytes.le d (4 * k) 4
    let s := s.modEntry i fun e => { e with
      listing := false, acked := e.acked ++ have_.filter fun p => e.drainSet.contains p && !e.acked.contains p }
    let s := have_.foldl (fun (s : State) p => s.endHold n i p) s
    (s.tryManifest n i).resumeSeals n

/-! ## FILL from RESTORE (R216) -/

/-- The manifest of the shard in the selected checkpoint is asked of its flue target. -/
def startRestore (s : State) (n i : Nat) : State :=
  let e := s.entry i
  let c := (s.ctx n).esc
  let bad := s.modEntry i fun e => { e with result := 0x13 }
  if c.rstSeq = 0 then bad
  else match s.flueOf n e.owner with
    | none => bad
    | some (_, node) => s.flueAsk n node [2, 2, i, 0, c.rstSeq.toNat, e.shardId.toNat]

/-- One PAGE object is asked of the target that its page entry names. -/
def getPage (s : State) (n i p : Nat) : State :=
  let e := s.entry i
  match e.fill.pages[p]? with
  | none => s
  | some (_, seq, t) =>
    match (s.ctx n).life.charter.flues[t.toNat]? with
    | none => s
    | some node => s.flueAsk n node [2, 1, i, p, seq.toNat, e.shardId.toNat]

/-- PAGE objects are asked for in order, sixteen at a time (R216; the number is this model's, log entry 31). -/
def getPump (s : State) (n i : Nat) : Nat → State
  | 0 => s
  | f + 1 =>
    let e := s.entry i
    if e.st ≠ .filling || e.fillSource ≠ 2 || decide (16 ≤ e.fill.out.length) || decide (e.pages.toNat ≤ e.fill.next) then s
    else
      let p := e.fill.next
      let s := s.modEntry i fun e => { e with fill := { e.fill with next := p + 1, out := e.fill.out ++ [(p, 0)] } }
      (s.getPage n i p).getPump n i f

/-- A manifest's page entries (R212). -/
def parseEntries (d : Bytes) (pages : Nat) : List (Digest × BitVec 32 × BitVec 8) :=
  (List.range pages).map fun p =>
    let o := 0x140 + 40 * p
    (Bytes.digest d o, BitVec.ofNat 32 (Bytes.le d (o + 32) 4), BitVec.ofNat 8 (Bytes.le d (o + 36) 1))

/-- The shard's manifest has come, empty when ABSENT: the checks of R216, then the fill at the manifest's VERSION. -/
def restoreManifest (s : State) (n i : Nat) (d : Bytes) : State :=
  let e := s.entry i
  let res (r : Nat) : State := s.modEntry i fun e => { e with result := BitVec.ofNat 8 r }
  if e.result ≠ 1 || e.req ≠ 2 || e.st = .filling then s
  else if decide (d.length < 0x140) || Bytes.le d 6 1 ≠ 2 || Bytes.le d 0x88 5 ≠ e.length.toNat then res 0x13
  else if Bytes.digest d 0xE0 ≠ hash256 e.image || Bytes.digest d 0x100 ≠ hash256 e.hyperBytes then res 0x19
  else
    let s := s.startFill n i 2 (BitVec.ofNat 32 (Bytes.le d 0x98 4))
    (s.modEntry i fun x => { x with fill := { x.fill with pages := parseEntries d e.pages.toNat } }).getPump n i 16

/-- The plaintext of a PAGE object that passes every check of R216: its sequence's checkpoint key, tag and digest. -/
def openPage (s : State) (n i p : Nat) (d : Bytes) : Option Bytes :=
  let e := s.entry i
  match e.fill.pages[p]? with
  | none => none
  | some (dg, seq, _) =>
    let c := s.ctx n
    match (c.esc.rstKeys ++ c.life.relKeys).find? fun k => k.1 = seq with
    | none => none
    | some (_, key) =>
      let shard := Bytes.word d 0x40
      match Config.gcmOpen (pageKey key shard (Bytes.word d 0x48)) (pageNonce shard p) (d.take 128) (d.drop 128) with
      | none => none
      | some pt => if pageDigest e.shardId p e.version pt = dg then some pt else none

/-- A PAGE object has come: the page is placed in every copy; a page that fails is fetched once more, then ends the request
as UNRECOVERABLE and leaves the entry in the state it had before (R116, R216, R217). -/
def restorePage (s : State) (n i p : Nat) (d : Bytes) : State :=
  let e := s.entry i
  if e.st ≠ .filling || e.fillSource ≠ 2 then s
  else match e.fill.out.find? fun x => x.1 = p with
    | none => s
    | some (_, tries) =>
      match s.openPage n i p d with
      | some pt =>
        let s := s.modEntry i fun e => { e with fill := { e.fill with out := e.fill.out.filter fun x => x.1 ≠ p } }
        (s.placePage n i p pt true).getPump n i 16
      | none =>
        if tries = 0 then
          (s.modEntry i fun e => { e with fill := { e.fill with
            out := e.fill.out.map fun x => if x.1 = p then (p, 1) else x } }).getPage n i p
        else
          { s with esc.digestFail := satInc s.esc.digestFail }.modEntry i fun e => { e with
            st := e.fill.was, result := 0x20, fill := {}, closing := .none, votes := [] }

end State

end Sys2Proof.Machine
end

