-- ==== Sys2Proof/Machine/Entries.lean ====
section
/-!
DEFINITION. Sys2Proof/Machine/Entries.lean: the commands of the shard ledger, of the mirrors and of claims (05, 09 R220–R237).
-/

namespace Sys2Proof.Machine

/-- REQ codes of R115. -/
def reqDefine : Nat := 1
def reqFill : Nat := 2
def reqSeal : Nat := 3
def reqRemirror : Nat := 4
def reqDrop : Nat := 5
def reqRetire : Nat := 6

namespace State

/-! ## Requests (R115, R116) -/

/-- The entry state a request is accepted in (R115). -/
def reqStateOk (e : Entry) (req src : Nat) : Bool :=
  match req with
  | 1 => e.st = .free
  | 2 => (e.st = .defined && decide (src < 3)) || (e.st = .fenced && src = 3) || (e.st = .divergent && src = 2)
  | 3 => (e.st = .filling && e.fillSource = 1) || (e.st = .live && e.editOpen)
  | 4 => (e.st = .live || e.st = .fenced) && (e.degradedL || e.degradedP)
  | 5 => e.st = .live || e.st = .fenced || e.st = .filling
  | _ => e.st ≠ .free && e.st ≠ .retiring

/-- The context state a request requires (R115). -/
def reqCtxOk (st : CtxState) (req src : Nat) : Bool :=
  match req with
  | 1 => st = .chartered || st = .active || st = .quiesced
  | 2 => st = .quiesced || (src = 3 && st = .active)
  | 3 => st = .quiesced
  | 4 => st = .quiesced
  | 5 => st = .active || st = .quiesced || st = .evicting
  | _ => true

/-- The partner copy is dropped on request (R130). -/
def dropPartner (s : State) (n i : Nat) : State :=
  let s := if (s.entry i).degradedP then s else s.sync n i .drop
  (s.losePartner n i).modEntry i fun e => { e with result := 2 }

/-- A request of a local entry is judged and, when accepted, started (R115–R117). -/
def startReq (s : State) (n i req src : Nat) : State :=
  let e := s.entry i
  let res (r : Nat) : State := s.modEntry i fun e => { e with result := BitVec.ofNat 8 r }
  if 7 ≤ req || (req = reqFill && 3 < src) then res 0x10
  else if !reqStateOk e req src then res 0x11
  else if !reqCtxOk (s.ctx n).life.st req src then res 0x12
  else if req = reqDefine then s.define n i
  else
    let s := res 1
    if req = reqFill then
      if src = 0 then (s.startFill n i 0 1).readPump n i 16
      else if src = 1 then
        -- the request is done once the entry is FILLING: its SEAL is a request of its own (R115, R120; log entry 41)
        (s.startFill n i 1 0).finishReq i 2
      else if src = 2 then s.startRestore n i
      else
        let s := s.modEntry i fun e => { e with
          st := .filling, fillSource := 3, fill := {}, fillDone := 0, fillNext := 0, unrecoverable := false }
        let s := if e.degradedP then s else s.sync n i .update
        s.feedSwitch n i
    else if req = reqSeal then s.sealEntry n i
    else if req = reqRemirror then s.startRemirror n i
    else if req = reqDrop then s.dropPartner n i
    else s.retire n i

/-- A write of an entry's state word (R112, R115, R118): REQ, FILL_SOURCE and REQ_SEQ read back as last written. -/
def stateWrite (s : State) (rq : Req) (i req src seq : Nat) (done : State → State) : State :=
  let n : Nat := rq.ctx
  let e := s.entry i
  let keep (s : State) : State := s.modEntry i fun e => { e with
    ctx := BitVec.ofNat 4 n, req := BitVec.ofNat 4 req, fillField := BitVec.ofNat 4 src, reqSeq := BitVec.ofNat 16 seq }
  if req = 0 then done (keep s)
  else if e.seqActed = some (BitVec.ofNat 16 seq) then done s
  else if e.role && req ≠ reqDefine then s.nackAccess rq
  else if e.result = 1 && !(req = reqRetire && e.st = .filling && e.fillSource = 3) then
    -- RETIRE alone ends a MIRROR fill in progress (R236)
    s.busy rq 0x11
  else if e.result ≠ 1 && 4096 ≤ s.pinned then s.busy rq 0x10
  else
    let now := s.now
    let s := (keep s).modEntry i fun e => { e with seqActed := some (BitVec.ofNat 16 seq), reqAt := now }
    done (s.startReq n i req src)

/-- A request written to an entry by WR, or by CAS when `cmp` gives the compare value (R109, R115). -/
def entryReq (s : State) (rq : Req) (e : BitVec 16) (cmp : Option Word) (req src : Nat) (seq : BitVec 16) : State :=
  s.ledgerAccess rq (e.toNat * 256) fun s i _ =>
    let found := stateWord { s.entry i with ctx := BitVec.ofNat 4 rq.ctx }
    match cmp with
    | none => s.stateWrite rq i req src seq.toNat fun t => t.ok rq
    | some v =>
      if v ≠ found then s.answer rq .ok 0 (natLe 8 found.toNat)
      else s.stateWrite rq i req src seq.toNat fun t => t.answer rq .ok 0 (natLe 8 found.toNat)

/-- A WR of whole words that holds runtime-written ones (R111). -/
def ledgerWrite (s : State) (rq : Req) (i b : Nat) (data : Bytes) : State :=
  let n : Nat := rq.ctx
  let e := s.entry i
  let ws := (bytesWords data).zipIdx.map fun x => (b / 8 + x.2, x.1)
  let rt := ws.filter fun x => runtimeWord x.1
  let st := ws.find? fun x => x.1 = 0
  if rt = [] && st.isNone then s.nackAccess rq
  else if !(rt.all fun x => mayWrite e ((s.ctx n).life.st = .quiesced) x.1) then s.nackAccess rq
  else
    let store (s : State) : State := s.modEntry i fun e => { rt.foldl (fun e x => writeEntryWord e x.1 x.2) e with ctx := BitVec.ofNat 4 n }
    match st with
    | none => (store s).ok rq
    | some (_, w) =>
      let t := (store s).stateWrite rq i (w.extractLsb' 8 4).toNat (w.extractLsb' 12 4).toNat (w.extractLsb' 16 16).toNat
        fun t => t.ok rq
      -- a refused state word refuses the whole write (R111)
      if t.answers.any fun a => a.result ≠ .ok then { s with answers := t.answers } else t

/-- A CAS of the state word or of CLAIM: the compare value, then the new value (R109, R115, R220). -/
def ledgerCas (s : State) (rq : Req) (i b : Nat) (data : Bytes) : State :=
  let cmp := BitVec.ofNat 64 (Bytes.le data 0 8)
  let new := BitVec.ofNat 64 (Bytes.le data 8 8)
  if b ≠ 0 && b ≠ 8 then s.nackAccess rq
  else if data.length ≠ 16 then s.nackAddress rq
  else if b = 8 then s.claimCas rq i cmp new
  else
    let found := stateWord { s.entry i with ctx := BitVec.ofNat 4 rq.ctx }
    if cmp ≠ found then s.answer rq .ok 0 (natLe 8 found.toNat)
    else s.stateWrite rq i (new.extractLsb' 8 4).toNat (new.extractLsb' 12 4).toNat (new.extractLsb' 16 16).toNat
      fun t => t.answer rq .ok 0 (natLe 8 found.toNat)

/-- A request to the shard ledger by its address: reads, writes of words, CAS, and what is refused (R109, R111). -/
def ledgerOther (s : State) (rq : Req) (op : OpCode) (off len : Nat) (data : Bytes) : State :=
  s.ledgerAccess rq off fun s i b =>
    let n := match op with | .rd => len | _ => data.length
    let e := { s.entry i with ctx := BitVec.ofNat 4 rq.ctx }
    match op with
    | .wr =>
      if b % 8 ≠ 0 || n % 8 ≠ 0 || 256 < b + n then s.nackAddress rq else s.ledgerWrite rq i b data
    | .rd =>
      if b % 8 ≠ 0 || n % 8 ≠ 0 || 256 < b + n then s.nackAddress rq
      else s.answer rq .ok 0 ((entryBytes e).drop b |>.take n)
    | .cas => s.ledgerCas rq i b data
    | _ => s.nackAccess rq

/-! ## Messages between the two Azards of a shard -/

/-- The entry of a shard on this Azard, local or partner; an entry whose DEFINE is in progress is still FREE. -/
def findShard (s : State) (n : Nat) (shard : Word) (role : Bool) : Option Nat :=
  (s.mir.entries.find? fun e => (e.2.st ≠ .free || e.2.result = 1) && e.2.ctx.toNat = n && e.2.shardId = shard &&
    e.2.role = role).map Prod.fst

/-- STATE as a message codes it. -/
def numState (x : BitVec 3) : EntryState :=
  match x.toNat with
  | 1 => .defined
  | 2 => .filling
  | 3 => .live
  | 4 => .fenced
  | 5 => .divergent
  | 6 => .retiring
  | _ => .free

/-- The highest FREE index of the context's range (R118). -/
def highestFree (s : State) (n : Nat) : Option Nat :=
  let c := (s.ctx n).life.charter
  ((List.range c.entryCount).reverse.map (c.entryFirst + ·)).find? fun i => (s.entry i).st = .free && (s.entry i).result ≠ 1

/-- The answer to a create: the message is acknowledged, and the result code and the index go back (R118, R119). -/
def createReply (s : State) (rq : Req) (shard : Word) (res idx : Nat) : State :=
  (s.note rq.ctx rq.source 0x20 none [syncNum .reply, idx, 0, 0, res, shard.toNat]).ok rq

/-- The image that came with an ENTRY_SYNC is the one its DIGEST names (R164); a message without an image passes. -/
def imageGood (m : EntrySync) : Bool := m.image = [] || hash256 m.image = m.digest

/-- A partner entry is asked for (R117–R119), or one whose copy was lost or dropped is asked for again by REMIRROR: it takes new
pages (R131). The rule of R26 on power domains is judged here, where both are known (log entry 94). -/
def createPartner (s : State) (rq : Req) (m : EntrySync) : State :=
  let n : Nat := rq.ctx
  let st := (s.ctx n).life.st
  let pages := pagesFor m.fields.length
  let refuse (s : State) (res : Nat) : State := s.createReply rq m.fields.shardId res 0
  let old := (s.entriesOf n).find? fun e => e.2.role && e.2.shardId = m.fields.shardId && e.2.peer = rq.source && e.2.st ≠ .retiring
  match old with
  | some (i, e) =>
    if !e.degradedP || m.state = 0 then s.createReply rq m.fields.shardId 2 i
    else
      let s := ((s.stopRun i).makeDirty (some rq.ctx) .mirror e.alloc).modEntry i fun e => { e with alloc := [], mem := [] }
      if !s.poolHas n pages then refuse s 0x15
      else
        let s := s.modEntry i fun e => { e with
          degradedP := false, claim := m.claim, st := numState m.state, queued := [], repairing := [], digestsOut := [], scrubLines := []
          partnerEntry := m.localIdx }
        (s.allocEntry i).createReply rq m.fields.shardId 2 i
  | none =>
    if m.domain = s.kin.img.powerDomain then refuse s 0x16
    else if !(st = .chartered || st = .active || st = .quiesced) || s.placementBad n rq.source then refuse s 0x18
    else match s.highestFree n with
      | none => refuse s 0x18
      | some i =>
        if !s.poolHas n pages then refuse s 0x15
        else
          let f := m.fields
          let e : Entry := {
            st := if m.state = 0 then .defined else numState m.state, ctx := BitVec.ofNat 4 n, claim := m.claim
            shardId := f.shardId, length := f.length, pages := BitVec.ofNat 32 pages, owner := f.owner, partner := f.partner
            windowBase := f.windowBase, program := f.program, group := f.group, role := true, partnerEntry := m.localIdx
            hyper := f.hyper, segFirst := f.segFirst, segCount := f.segCount, stream := f.stream, peer := rq.source
            image := m.image, hyperBytes := m.hyperBytes, fillSource := m.fillSource }
          let s := s.setEntry i e
          (if st = .chartered then s else s.allocEntry i).createReply rq f.shardId 2 i

/-- A message that needs the bytes of a parked copy waits, unanswered, until the copy is home (R276; log entry 82). -/
def needsCopy (k : EntrySyncKind) : Bool := [.seal, .digest, .fetch, .held, .line].contains k

/-- A partner's source page of a fill goes out once it digests to the voted digest (R232). -/
def votedHere (e : Entry) (p : Nat) : Bool :=
  versionAt e e.votedStep = e.version && (e.votedPages.any fun x => x.1 = p && x.2 = entryDigest e p)

/-- An ENTRY_SYNC acts on the entry it concerns (R117, R118, R130, R131, R138, R232). -/
def takeSync (s : State) (rq : Req) (m : EntrySync) : State :=
  let n : Nat := rq.ctx
  -- an image that does not digest to DIGEST is not taken: unanswered, it is sent again (R164, R411)
  if !imageGood m then s
  else if m.kind = .create then s.createPartner rq m
  else
    match s.findShard n m.fields.shardId true, s.findShard n m.fields.shardId false with
    | some i, _ =>
      let e := s.entry i
      if e.peer ≠ rq.source then s.ok rq
      else if e.parked && needsCopy m.kind then s
      else match m.kind with
        | .update =>
          let stop := numState m.state = .divergent
          let s := if stop && e.st ≠ .divergent then s.shardDivergent n (BitVec.ofNat 64 m.page) else s
          let s := s.modEntry i fun e => { e with
            st := if e.st = .retiring then .retiring else numState m.state
            fillSource := m.fillSource, stream := m.fields.stream, program := m.fields.program, hyper := m.fields.hyper
            image := if m.image = [] then e.image else m.image
            hyperBytes := if m.image = [] then e.hyperBytes else m.hyperBytes
            queued := if stop then [] else e.queued
            -- a local copy that is lost repairs nothing more (R127)
            degradedL := m.lost, repairing := if stop || m.lost then [] else e.repairing }
          let s := s.heldGone n i
          let s := if m.src = [] then s else s.restored n i m.src
          ((if stop then s.stopRun i else s).settleAll n).ok rq
        | .retire => (s.retire n i false).ok rq
        | .drop =>
          let s := (s.stopRun i).modEntry i fun e => { e with degradedP := true, queued := [], repairing := [] }
          (s.settleAll n).ok rq
        | .seal =>
          match s.sealCow n i with
          | none => s
          | some s =>
            let s := s.modEntry i fun e => { e with
              version := e.version + 1, committed := if e.st = .filling then (s.ctx n).step.released else e.committed }
            let e := s.entry i
            ((List.range e.pages.toNat).foldl (fun (s : State) p =>
              (s.trackWrite i p).partnerDigest n i p e.version (entryDigest e p) false) s).ok rq
        | .digest =>
          ((List.range e.pages.toNat).foldl (fun (s : State) p =>
            s.partnerDigest n i p e.version (entryDigest e p) false) s).ok rq
        | .fetch =>
          let fill : Bool := m.state = 2
          if fill && !votedHere e m.page then s
          else (s.partnerPage n i (if fill then .fill else .remirror) m.page e.version (entryDigest e m.page) (m.page * 2097152)
            (pageBytes e m.page)).ok rq
        | .line => (s.partnerPage n i .line m.page e.version (entryDigest e m.page) (m.page * 2097152) (pageBytes e m.page)).ok rq
        | .held => (s.giveHeld n i m.page).ok rq
        | .create | .reply => s
    | none, some i =>
      if m.kind = .reply then (s.defineAnswer n i m.page m.localIdx.toNat).ok rq
      else if (s.entry i).peer ≠ rq.source then s.ok rq
      else match m.kind with
        | .retire => (s.modEntry i fun e => { e with peerFree := true }).ok rq
        | .drop => ((if (s.entry i).degradedP then s else s.losePartner n i).settleAll n).ok rq
        | .held => (s.giveHeld n i m.page).ok rq
        | .line =>
          let e := s.entry i
          (if e.degradedL then s
           else s.partnerPage n i .line m.page e.version (entryDigest e m.page) (m.page * 2097152) (pageBytes e m.page)).ok rq
        | _ => s.ok rq
    | none, none => s.ok rq

/-- Digests that the local Azard has not acknowledged go again under the new claim; under the old one they are not repeated
(R222). -/
def resendDigests (s : State) (n i : Nat) : State :=
  let l := (s.entry i).digestsOut
  let shard := (s.entry i).shardId.toNat
  let old (o : Outstanding) : Bool := o.msg.kind = 0x23 && o.msg.op = .msg && o.msg.dest = .node (ctxFin n) (s.entry i).peer &&
    o.msg.args.head? = some shard && o.msg.args.getD 4 0 = 0
  let s := { s with ctl.out := s.ctl.out.filter fun o => !old o }
  let s := s.modEntry i fun e => { e with digestsOut := [] }
  l.foldl (fun (s : State) x => s.partnerDigest n i x.1 x.2.1 x.2.2 false) s

/-- A page arriving over VC1 at the partner copy (R120, R127, R137, R223). -/
def pageAtPartner (s : State) (rq : Req) (i page : Nat) (v : BitVec 32) (why : PagePurpose) (d : Digest) (off : Nat)
    (data : Bytes) : State :=
  let n : Nat := rq.ctx
  let e := s.entry i
  match why with
  | .fill | .remirror =>
    match s.writeCopy n i page (page * 2097152) data with
    | none => s
    | some s =>
      let s := s.modEntry i fun e => { e with version := v, committed := (s.ctx n).step.released }
      (s.partnerDigest n i page v (entryDigest (s.entry i) page) false).ok rq
  | .repair =>
    -- a copy that has gone on past v′ shows it by its digests, and the repair is sent again for that version (R127; log entry 94)
    if laterVersion v (s.copyVersion i page) ≠ v then s.ok rq
    else if s.copyVersion i page ≠ v || e.version ≠ v then s.busy rq 0x14
    else match s.installOrWait n i page v data with
      | (s, none) => s
      | (_, some s) =>
        let dg := entryDigest (s.entry i) page
        let s := if dg = d then s.modEntry i fun e => { e with repairing := e.repairing.filter fun r => r.page ≠ page } else s
        (s.partnerDigest n i page v dg true).ok rq
  | .window =>
    match s.writeCopy n i page off data with
    | none => s
    | some s => s.ok rq
  | .held => (s.takeHeld n i page data).ok rq
  | .line => (s.landLines i page v data).ok rq

/-- A page arriving over VC1 at the local Azard: a source page of a fill goes on to the accelerator, a page of a lost local
copy is taken in, lines that scrub asked for land (R131, R232, R388). -/
def pageAtLocal (s : State) (n i page : Nat) (v : BitVec 32) (why : PagePurpose) (data : Bytes) : State :=
  let e := s.entry i
  match why with
  | .fill =>
    if e.st = .filling && e.fill.fromPartner && v = e.fill.version then
      (s.statePortWr n i (page * 2097152) data).installRec n i 2 page v (fillDigest e page)
    else s
  | .remirror => if e.rebuildL then s.rebuildPage n i page data else s
  | .held => s.takeHeld n i page data
  | .line => s.landLines i page v data
  | _ => s

/-- An outcome message at the partner (R125, R126): voted digests, odd pages of its own copy, the step's VOTED phase. -/
def takeOutcome (s : State) (n i : Nat) (st : Word) (ps : List PageOutcome) : State :=
  let v := (ps.head?.map fun x => x.version).getD 0
  let ps := sortBy (fun (a b : PageOutcome) => decide (a.page ≤ b.page)) ps
  let root := merkle (ps.map fun x => x.digest)
  let s := s.modEntry i fun e => { e with
    digestRoot := root, votedPages := ps.foldl (fun m x => Map.set 0 m x.page x.digest) []
    votedStep := if e.votedStep.toNat < st.toNat || e.st = .filling then st else e.votedStep
    snapRoot := if v = e.snapVersion then root else e.snapRoot
    snapVoted := if v = e.snapVersion then ps.foldl (fun m x => Map.put m x.page x.digest) [] else e.snapVoted }
  -- a page repaired in the drain owner's copy is written there, and so belongs to the drain set held here too (R200, R201)
  let s := (ps.filter fun x => x.outcome = .localOdd).foldl (fun (s : State) x => s.trackWrite i x.page) s
  let s := (ps.filter fun x => x.outcome = .partnerOdd).foldl (fun (s : State) x =>
    let r : Repair := { page := x.page, target := .partner, version := laterVersion x.version (s.copyVersion i x.page), tries := 0
                        held := true, sent := true, digest := none }
    (((s.countOddSelf st).oddEvent n i 12 3 x.page x.version).modEntry i fun e => { e with
      repairing := (e.repairing.filter fun y => y.page ≠ x.page) ++ [r] }).lastVote n i x.page 3 st) s
  s.settle n st

/-! ## The mirror window (R135–R137) -/

/-- The shard that a window range lies in: the entry, a local one before a partner's, or none when it falls in no shard or
straddles two (R135). -/
def windowEntry (s : State) (n off len : Nat) : Option (Nat × Entry) :=
  let inside (e : Nat × Entry) : Bool := e.2.st ≠ .retiring &&
    decide (e.2.windowBase.toNat * 2097152 ≤ off) && decide (off + len ≤ e.2.windowBase.toNat * 2097152 + e.2.length.toNat)
  let l := (s.entriesOf n).filter inside
  (l.find? fun e => !e.2.role).or l.head?

/-- A request to the mirror window judged by R135; `k` gets the entry and the byte within the shard. A context in the offset
that is not CONTEXT, and a requester that is no charter endpoint, get NACK_ACCESS: the rule is silent (log entry 94). -/
def windowAccess (s : State) (rq : Req) (off len : Nat) (k : State → Nat → Nat → State) : State :=
  s.osfel rq fun s =>
    let n : Nat := rq.ctx
    if !s.endpoint rq || off / 1099511627776 % 16 ≠ n then s.nackAccess rq
    else match s.windowEntry n (off % 1099511627776) len with
      | none => s.nackAddress rq
      | some (i, e) =>
        if e.role then s.nackAccess rq
        else if !(rq.ext.any fun x => x.hasClaim && x.claim = e.claim) then s.nackClaim rq
        else k s i (off % 1099511627776 - e.windowBase.toNat * 2097152)

/-- The pages that a byte range of a shard touches. -/
def rangePages (off len : Nat) : List Nat :=
  if len = 0 then [] else (List.range ((off + len - 1) / 2097152 + 1 - off / 2097152)).map (off / 2097152 + ·)

/-- Part of a write that lies in one page. -/
def pagePart (off : Nat) (d : Bytes) (p : Nat) : Nat × Bytes :=
  let lo := max off (p * 2097152)
  let hi := min (off + d.length) ((p + 1) * 2097152)
  (lo, (d.drop (lo - off)).take (hi - lo))

/-- A mirror-window WR on every copy (R137); its OK waits for the other copies. -/
def windowWrite (s : State) (rq : Req) (i off : Nat) (data : Bytes) : State :=
  let n : Nat := rq.ctx
  let e := s.entry i
  let fits := (e.st = .filling && e.fillSource = 1) ||
    (e.st = .live && (s.ctx n).life.st = .quiesced && e.votedStep = e.committed)
  if !fits || e.closing ≠ .none then s.busy rq 0x0B
  else
    let ps := rangePages off data.length
    let wrote := ps.foldl (fun (o : Option State) p => o.bind fun s =>
      let x := pagePart off data p
      if e.degradedL then some s else s.writeCopy n i p x.1 x.2) (some s)
    match wrote with
    | none => s
    | some s =>
      let s := if e.st = .live then s.modEntry i fun e => { e with editOpen := true } else s
      let first := s.ctl.nextId
      let s := ps.foldl (fun (s : State) p =>
        let x := pagePart off data p
        let s := if e.degradedP then s else s.partnerPage n i .window p e.version 0 x.1 x.2
        s.statePortWr n i x.1 x.2) s
      let ids := (s.ctl.out.map fun o => o.id).filter fun o => decide ((o - first).toNat < (s.ctl.nextId - first).toNat)
      if ids = [] then s.ok rq
      else s.modEntry i fun e => { e with windowWrites := e.windowWrites ++ [{ req := rq, ids := ids }] }

end State

/-! ## The commands -/

/-- SHARD_LEDGER_WR (R109–R111). -/
def execShardLedgerWr (rq : Req) (op : OpCode) (off len : Nat) (data : Bytes) (s : State) : Host.Outcome State Fault Refusal :=
  .next (s.ledgerOther rq op off len data)

/-- DEFINE (R119). -/
def execDefineEntry (rq : Req) (e seq : BitVec 16) (cmp : Option Word) (s : State) : Host.Outcome State Fault Refusal :=
  .next (s.entryReq rq e cmp reqDefine 0 seq)

/-- FILL from YOBEL (R120). -/
def execFillYobel (rq : Req) (e seq : BitVec 16) (cmp : Option Word) (s : State) : Host.Outcome State Fault Refusal :=
  .next (s.entryReq rq e cmp reqFill 0 seq)

/-- FILL from WINDOW (R120). -/
def execFillWindow (rq : Req) (e seq : BitVec 16) (cmp : Option Word) (s : State) : Host.Outcome State Fault Refusal :=
  .next (s.entryReq rq e cmp reqFill 1 seq)

/-- FILL from RESTORE (R216). -/
def execFillRestore (rq : Req) (e seq : BitVec 16) (cmp : Option Word) (s : State) : Host.Outcome State Fault Refusal :=
  .next (s.entryReq rq e cmp reqFill 2 seq)

/-- FILL from MIRROR (R231). -/
def execFillMirror (rq : Req) (e seq : BitVec 16) (cmp : Option Word) (s : State) : Host.Outcome State Fault Refusal :=
  .next (s.entryReq rq e cmp reqFill 3 seq)

/-- The conditions of R231: the source copy's COMMITTED and VOTED_STEP are the released step, and the slot at the port of OWNER
is DEFINED or FILLING under the entry's CLAIM, by Azard's record of it (log entry 95). -/
def State.fillMayStart (s : State) (n i : Nat) : Bool :=
  let x := s.entry i
  let rel := (s.ctx n).step.released
  let slot := match s.slotOf n i with
    | some (k, sl) => (s.port k).slotsUsed.any fun u => u.slot = sl && (u.st = 1 || u.st = 2) && u.claim = x.claim
    | none => false
  x.st = .filling && x.fillSource = 3 && !x.role && !x.fill.started && !x.unrecoverable && x.votedStep = rel && slot &&
    (if x.degradedL then laterVersion x.seenP (versionAt x rel) = x.seenP else x.committed = rel)

/-- FILL_MIRROR_START (R231): the conditions under which pages begin to go out. -/
def execFillMirrorStart (e : BitVec 16) (s : State) : Host.Outcome State Fault Refusal :=
  let s := s.begin
  let i := e.toNat
  let x := s.entry i
  let n := x.ctx.toNat
  if s.fillMayStart n i then
    let v := versionAt x (s.ctx n).step.released
    let s := s.modEntry i fun y => { y with fill := { started := true, fromPartner := x.degradedL, version := v } }
    .next (s.slotState n i 2).fillGo
  else .next s

/-- FILL_PAGE_RETRY (R236): a page whose tries in a row have failed goes out once more. -/
def execFillPageRetry (e : BitVec 16) (page : Nat) (s : State) : Host.Outcome State Fault Refusal :=
  let s := s.begin
  let x := s.entry e.toNat
  if x.st = .filling && x.fillSource = 3 && !x.unrecoverable &&
      x.fill.out.any fun y => y.1 = page && decide (s.mir.repairTries.toNat ≤ y.2) then
    .next (s.sendFillPage x.ctx.toNat e.toNat page)
  else .next s

/-- SEAL (R138). -/
def execSealEntry (rq : Req) (e seq : BitVec 16) (cmp : Option Word) (s : State) : Host.Outcome State Fault Refusal :=
  .next (s.entryReq rq e cmp reqSeal 0 seq)

/-- REMIRROR (R131). -/
def execRemirror (rq : Req) (e seq : BitVec 16) (cmp : Option Word) (s : State) : Host.Outcome State Fault Refusal :=
  .next (s.entryReq rq e cmp reqRemirror 0 seq)

/-- DROP_PARTNER (R130). -/
def execDropPartner (rq : Req) (e seq : BitVec 16) (cmp : Option Word) (s : State) : Host.Outcome State Fault Refusal :=
  .next (s.entryReq rq e cmp reqDrop 0 seq)

/-- RETIRE (R117). -/
def execRetireEntry (rq : Req) (e seq : BitVec 16) (cmp : Option Word) (s : State) : Host.Outcome State Fault Refusal :=
  .next (s.entryReq rq e cmp reqRetire 0 seq)

/-- ENTRY_WIPE_DONE (R117). -/
def execEntryWipeDone (e : BitVec 16) (s : State) : Host.Outcome State Fault Refusal :=
  .next (s.begin.freeEntry (s.entry e.toNat).ctx.toNat e.toNat)

/-- ENTRY_SYNC_RECEIVED (R118). -/
def execEntrySyncReceived (rq : Req) (m : EntrySync) (s : State) : Host.Outcome State Fault Refusal :=
  .next (s.begin.judge rq false fun s => s.takeSync rq m)

/-- CLAIM_CAS (R220): a CAS on an entry's CLAIM. -/
def execClaimCas (rq : Req) (e : BitVec 16) (cmp new : Word) (s : State) : Host.Outcome State Fault Refusal :=
  .next (s.ledgerAccess rq (e.toNat * 256 + 8) fun s i _ => s.claimCas rq i cmp new)

/-- CLAIM_FWD_RECEIVED (R222). -/
def execClaimFwdReceived (rq : Req) (shard claim : Word) (s : State) : Host.Outcome State Fault Refusal :=
  .next (s.message rq fun s =>
    match s.findShard rq.ctx shard true with
    | none => s
    | some i =>
      if (s.entry i).claim.toNat < claim.toNat && (s.entry i).peer = rq.source then
        (s.modEntry i fun e => { e with claim := claim }).resendDigests rq.ctx i
      else s)

/-- PARTNER_DIGEST_RECEIVED (R125): discarded under another claim, from another Azard, or for a copy that left the vote. A
digest discarded for an older claim is not acknowledged: the partner sends it again under the new one (R222, R242). -/
def execPartnerDigestReceived (rq : Req) (shard : Word) (page : Nat) (version : BitVec 32) (claim : Word) (install : Bool)
    (digest : Digest) (s : State) : Host.Outcome State Fault Refusal :=
  .next (s.begin.judge rq false fun s =>
    match s.findShard rq.ctx shard false with
    | none => s.ok rq
    | some i =>
      let e := s.entry i
      if e.peer ≠ rq.source || !pIn e then s.ok rq
      else if claim.toNat < e.claim.toNat then s
      else if claim ≠ e.claim then s.ok rq
      else if install then
        let t := match e.repairing.find? fun r => r.page = page && r.target = .partner && r.sent && r.version = version with
          | some r => s.repairAnswer rq.ctx i r (r.digest = some digest)
          | none => s
        t.ok rq
      else (s.takeVote rq.ctx i page version .partner digest).ok rq)

/-- VOTE_OUTCOME_RECEIVED (R125). -/
def execVoteOutcomeReceived (rq : Req) (shard step : Word) (pages : List PageOutcome) (s : State) :
    Host.Outcome State Fault Refusal :=
  .next (s.message rq fun s =>
    match s.findShard rq.ctx shard true with
    | none => s
    | some i => if (s.entry i).peer ≠ rq.source then s else s.takeOutcome rq.ctx i step pages)

/-- PARTNER_PAGE_RECEIVED (R223): only under the entry's claim. -/
def execPartnerPageReceived (rq : Req) (shard claim : Word) (page : Nat) (version : BitVec 32) (purpose : PagePurpose)
    (digest : Digest) (off : Nat) (data : Bytes) (s : State) : Host.Outcome State Fault Refusal :=
  .next (s.begin.judge rq false fun s =>
    match s.findShard rq.ctx shard true, s.findShard rq.ctx shard false with
    | some i, _ =>
      if (s.entry i).claim ≠ claim then s.nackClaim rq
      else s.pageAtPartner rq i page version purpose digest off data
    | none, some i =>
      if (s.entry i).claim ≠ claim then s.nackClaim rq
      else (s.pageAtLocal rq.ctx i page version purpose data).ok rq
    | none, none => s.nackAddress rq)

/-- DIGEST_WAIT_EXPIRY (R134): MIR-020 names each copy whose digest of a page version is still missing. -/
def execDigestWaitExpiry (e : BitVec 16) (page : Nat) (version : BitVec 32) (s : State) : Host.Outcome State Fault Refusal :=
  let s := s.begin
  let x := s.entry e.toNat
  match x.votes.find? fun v => v.page = page && v.version = version && v.outcome.isNone with
  | none => .next s
  | some v =>
    let miss := [(1, yIn x version && v.y.isNone), (2, lIn x && v.l.isNone), (3, pIn x && v.p.isNone)].filter fun c => c.2
    .next (miss.foldl (fun (s : State) c =>
      s.record 7 20 (evSource 5 x.ctx.toNat e.toNat) 0 (BitVec.ofNat 32 c.1) (BitVec.ofNat 32 page)) s)

/-- MIRROR_WINDOW_RD (R136). -/
def execMirrorWindowRd (rq : Req) (off len : Nat) (s : State) : Host.Outcome State Fault Refusal :=
  .next (s.windowAccess rq off len fun s i b =>
    let e := s.entry i
    if (s.runOfEntry i).isSome then s.busy rq 0x12
    else if e.degradedL then s.nackAddress rq
    else s.answer rq .ok 0 (Mem.read e.mem b len))

/-- MIRROR_WINDOW_WR (R137): only RD and WR are accepted (R135). -/
def execMirrorWindowWr (rq : Req) (op : OpCode) (off : Nat) (data : Bytes) (s : State) : Host.Outcome State Fault Refusal :=
  .next (if op ≠ .wr then s.osfel rq fun s => s.nackAccess rq
    else s.windowAccess rq off data.length fun s i b => s.windowWrite rq i b data)

end Sys2Proof.Machine
end

