-- ==== Sys2Proof/Machine/Flue.lean ====
section
/-!
DEFINITION. Sys2Proof/Machine/Flue.lean: the commands of checkpoints and of the flue (08 R197–R219), and the flue target
(R210, R211).
-/

namespace Sys2Proof.Machine

namespace State

/-! ## Restore selection (R215) -/

/-- A manifest object of a kind, of the charter's lineage and a sequence, whose chain and signature verify (R213, R215). -/
def manifestOk (lineage : Digest) (kind : Nat) (seq : BitVec 32) (m : Bytes) : Bool :=
  m.take 4 = [0x41, 0x5A, 0x46, 0x4F] && Bytes.le m 4 2 = 1 && Bytes.le m 6 1 = kind && Bytes.le m 8 8 = m.length &&
    Bytes.digest m 0x10 = lineage && Bytes.le m 0x30 4 = seq.toNat && Config.gelvogerSigned m

/-- Offset of a CHECKPOINT_MANIFEST's shard table. -/
def tableAt (m : Bytes) : Nat := 0x4758 + 128 + 40 * Bytes.le m 0x750 4 + 16

/-- Manifest digests of a CHECKPOINT_MANIFEST's shard table. -/
def tableDigests (m : Bytes) : List Digest :=
  (List.range (Bytes.le m 0x94 4)).map fun i => Bytes.digest m (tableAt m + 56 * i + 24)

/-- A candidate passes the checks that move SELECT on to the next sequence (R215). -/
def candidateOk (lineage : Digest) (c : Candidate) : Bool :=
  manifestOk lineage 3 c.seq c.manifest && c.shards.length = (tableDigests c.manifest).length &&
    (c.shards.zip (tableDigests c.manifest)).all fun x => manifestOk lineage 2 c.seq x.1 && hash256 x.1 = x.2

/-- The plaintext of SEALED under the checkpoint key (R213). -/
def openSealed (key : Digest) (m : Bytes) : Option Bytes :=
  Config.gcmOpen key (BitVec.ofNat 96 (0xFFFFFFFF * 18446744073709551616)) (m.take 128)
    ((m.drop 0x4758).take (128 + 40 * Bytes.le m 0x750 4 + 16))

/-- WINDOWS of a manifest (R213). -/
def parseWindows (m : Bytes) : List (BitVec 12 × BitVec 16 × BitVec 16) :=
  (List.range 4095).map fun k =>
    (BitVec.ofNat 12 k, BitVec.ofNat 16 (Bytes.le m (0x758 + 4 * k) 2), BitVec.ofNat 16 (Bytes.le m (0x75A + 4 * k) 2))

/-- The key chain of a sealed plaintext (R213). -/
def parseChain (m plain : Bytes) : List (BitVec 32 × Digest) :=
  (List.range (Bytes.le m 0x750 4)).map fun k =>
    (BitVec.ofNat 32 (Bytes.le plain (128 + 40 * k) 4), Bytes.digest plain (136 + 40 * k))

/-- A selected checkpoint is accepted at the step root and goes to every node (R199, R215, R346). -/
def acceptSelect (s : State) (n : Nat) (c : Candidate) (key : Digest) (plain : Bytes) : State :=
  let m := c.manifest
  let chain := parseChain m plain
  let dist : RestoreDist := { release := false, seq := c.seq, step := Bytes.word m 0x80, windows := parseWindows m, plain := plain.take 128,
                              keys := (c.seq, key) :: chain }
  let s := s.notes (ctxFin n) (s.otherAzards n) 0x34 none
    (0 :: c.seq.toNat :: dist.step.toNat :: (dist.windows.flatMap fun w => [w.1.toNat, w.2.1.toNat, w.2.2.toNat]) ++
      keyArgs dist.keys) dist.plain
  (s.acceptRestore n dist).modCtx n fun x => { x with
    life := { x.life with restoredSeq := some (c.seq, Bytes.digest m 0xC0), firstReceipt := true, issued := dist.step, notes := [] }
    esc := { x.esc with
      rstState := 2, rstCause := 0, rstSeq := c.seq, rstStep := dist.step, lastSeq := c.seq
      baseSeq := BitVec.ofNat 32 (Bytes.le m 0x90 4), sinceBase := chain.length, chain := chain.reverse ++ [(c.seq, key)]
      refStep := dist.step, refTime := Bytes.word m 0x98, pendingSnap := false } }

/-- SELECT refused with a cause (R215, R219). -/
def refuseSelect (s : State) (n cause : Nat) : State :=
  s.modCtx n fun c => { c with esc.rstState := 3, esc.rstCause := BitVec.ofNat 8 cause }

/-- The candidates in descending sequence, the first usable one accepted (R54, R215). -/
def selectFrom (s : State) (n : Nat) : List Candidate → State
  | [] => s.refuseSelect n 1
  | c :: r =>
    let x := s.ctx n
    if !candidateOk x.life.charter.lineage c then (s.event 10 21 (evSource 5 n)).selectFrom n r
    else match x.life.relKeys.find? fun k => k.1 = c.seq with
      | none => s.refuseSelect n 3
      | some (_, key) =>
        match openSealed key c.manifest with
        | none => s.refuseSelect n 3
        | some plain =>
          let step := Bytes.word c.manifest 0x80
          if Bytes.word plain 0 ≠ step || Bytes.word plain 0x40 ≠ step then
            (s.event 5 30 (evSource 5 n)).refuseSelect n 2
          else s.acceptSelect n c key plain

/-- SELECT at a context's step root (R215, R218): the context and its charter are judged, a checkpoint in progress is
abandoned, and the checkpoints that LIST named are tried.  `reached`: every flue target answered; none while they have yet to,
and SELECT is in progress. -/
def selectCkpt (s : State) (n : Nat) (max : BitVec 32) (ms : List Candidate) (reached : Option Bool) : State :=
  let c := s.ctx n
  let s := (s.abandonCkpt n 7).resumeSeals n
  if c.life.st ≠ .quiesced || !c.life.stepRoot then s.refuseSelect n 5
  else if c.life.charter.lineage = 0 then s.refuseSelect n 4
  else if c.life.charter.flues = [] || reached = some false then s.refuseSelect n 6
  else if reached = none then
    let s := s.modCtx n fun c => { c with esc.rstState := 1, esc.rstCause := 0 }
    c.life.charter.flues.foldl (fun (s : State) node => s.flueAsk n node [3, 3, 0, 0, max.toNat]) s
  else
    let l := sortBy (fun (a b : Candidate) => decide (b.seq.toNat ≤ a.seq.toNat)) (ms.filter fun x => decide (x.seq.toNat ≤ max.toNat))
    s.selectFrom n l

/-- A write of ESC_RST_CMD (R219): only by an endpoint of the context's charter; acted on at a new SEQNO. -/
def rstCommand (s : State) (rq : Req) (n : Fin 16) (cmd : Nat) (max : BitVec 32) (seqno : BitVec 16) (k : State → State) : State :=
  s.begin.control rq false .charter fun s =>
    if rq.ctx ≠ n then s.nackAccess rq
    else
      let old := (s.ctx n).esc.rstActed
      let s := s.modCtx n fun c => { c with esc.rstMax := max, esc.rstCmd := BitVec.ofNat 2 cmd, esc.rstSeqno := seqno }
      -- the command acted on last is looked at again while its SELECT is in progress
      if seqno = old && !((s.ctx n).esc.rstState = 1 && cmd = 1) then s.ok rq
      else ((k (s.modCtx n fun c => { c with esc.rstActed := seqno })).settleRelease n).ok rq

/-! ## The flue target (R210, R211) -/

/-- A slot's descriptor by requester and number. -/
def flueSlot (f : Flue) (rq : Req) (slot : BitVec 6) : FlueSlot := Map.get {} f.slots (rq.source.toNat * 64 + slot.toNat)

/-- The descriptor after an operation. -/
def setSlot (f : Flue) (rq : Req) (slot : BitVec 6) (v : FlueSlot) : Flue :=
  { f with slots := Map.set {} f.slots (rq.source.toNat * 64 + slot.toNat) v }

/-- An object as a flue target files it, read from its header. -/
def parseObject (b : Bytes) : FlueObj :=
  { kind := BitVec.ofNat 8 (Bytes.le b 6 1), lineage := Bytes.digest b 0x10, seq := BitVec.ofNat 32 (Bytes.le b 0x30 4)
    shardId := Bytes.word b 0x40, page := BitVec.ofNat 32 (Bytes.le b 0x34 4), claim := Bytes.word b 0x48
    step := Bytes.word b 0x38, bytes := b }

/-- Two headers name the same object: (KIND, LINEAGE, SEQ, SHARD_ID, PAGE) (R210). -/
def sameKey (a b : FlueObj) : Bool :=
  a.kind = b.kind && a.lineage = b.lineage && a.seq = b.seq &&
    (a.kind = 3 || (a.shardId = b.shardId && (a.kind = 2 || a.page = b.page)))

/-- The highest claim a target has accepted for a shard of a lineage (R211). -/
def highClaim (f : Flue) (o : FlueObj) : Nat :=
  ((f.claims.find? fun x => x.1 = o.lineage && x.2.1 = o.shardId).map fun x => x.2.2.toNat).getD 0

/-- PUT at a target (R211): stale claims and conflicting manifests are refused, an object of the same key is replaced. -/
def fluePut (x : Flue) (d : FlueSlot) (obj : Bytes) : Flue × FlueSlot × Result × Bytes :=
  let o := parseObject obj
  let d := { d with op := 1, length := BitVec.ofNat 64 obj.length, data := [] }
  let stale := o.kind ≠ 3 && decide (o.claim.toNat < highClaim x o)
  let conflict := o.kind = 3 && x.objects.any fun y => sameKey y o && y.bytes ≠ obj
  if stale then (x, { d with status := 5 }, .nackClaim, [])
  else if conflict then (x, { d with status := 4 }, .nackAccess, [])
  else
    let claims := if o.kind = 3 then x.claims
      else (x.claims.filter fun y => !(y.1 = o.lineage && y.2.1 = o.shardId)) ++ [(o.lineage, o.shardId, o.claim)]
    ({ x with objects := (x.objects.filter fun y => !sameKey y o) ++ [o], claims := claims }, { d with status := 2 }, .ok, [])

/-- GET at a target (R210): the object in the slot's data, or ABSENT. -/
def flueGetObj (x : Flue) (d : FlueSlot) (key : Bytes) : Flue × FlueSlot × Result × Bytes :=
  match x.objects.find? fun y => sameKey y (parseObject key) with
  | some o => (x, { d with op := 2, key := key, status := 2, length := BitVec.ofNat 64 o.bytes.length, data := o.bytes }, .ok, o.bytes)
  | none => (x, { d with op := 2, key := key, status := 3, length := 0, data := [] }, .ok, [])

/-- LIST at a target (R210): checkpoint manifests of a lineage, or the page indices of a shard's checkpoint.  A LIST of another
kind is refused. -/
def flueListKey (x : Flue) (d : FlueSlot) (key : Bytes) : Flue × FlueSlot × Result × Bytes :=
  let k := parseObject key
  let done (b : Bytes) : Flue × FlueSlot × Result × Bytes :=
    (x, { d with op := 3, key := key, status := 2, length := BitVec.ofNat 64 b.length, data := b }, .ok, b)
  if k.kind = 3 then
    let l := x.objects.filter fun o => o.kind = 3 && o.lineage = k.lineage && decide (o.seq.toNat ≤ k.seq.toNat)
    done ((sortBy (fun (a b : FlueObj) => decide (b.seq.toNat ≤ a.seq.toNat)) l).flatMap fun o =>
      natLe 4 o.seq.toNat ++ natLe 4 0 ++ natLe 8 o.step.toNat)
  else if k.kind = 1 then
    let l := x.objects.filter fun o => o.kind = 1 && o.lineage = k.lineage && o.seq = k.seq && o.shardId = k.shardId
    done ((sortBy (fun (a b : FlueObj) => decide (a.page.toNat ≤ b.page.toNat)) l).flatMap fun o => natLe 4 o.page.toNat)
  else (x, { d with op := 3, key := key, status := 4, length := 0, data := [] }, .ok, [])

/-- A slot's descriptor as its bytes (R210). -/
def slotDescr (d : FlueSlot) : Bytes :=
  natLe 1 d.op.toNat ++ natLe 1 d.status.toNat ++ natLe 2 d.seqno.toNat ++ natLe 4 0 ++ natLe 8 d.length.toNat ++ List.replicate 112 0 ++
    Bytes.at d.key 0 128

/-- The operation of a descriptor with a new SEQNO starts (R210): a PUT waits for its data, GET and LIST are done at once, OP 4–7
is refused. -/
def flueStart (x : Flue) (d : FlueSlot) : Flue × FlueSlot :=
  match d.op.toNat with
  | 0 => (x, { d with status := 0 })
  | 1 => (x, { d with status := 1, data := [], units := [], bytes := [] })
  | 2 => let r := flueGetObj x d d.key; (r.1, r.2.1)
  | 3 => let r := flueListKey x d d.key; (r.1, r.2.1)
  | _ => (x, { d with status := 4, length := 0, data := [] })

/-- A descriptor written by Azard: OP, SEQNO, LENGTH and KEY; STATUS is the target's (R210). -/
def flueDescr (x : Flue) (d : FlueSlot) (b : Bytes) : Flue × FlueSlot :=
  let old := d.seqno
  let d := { d with op := BitVec.ofNat 3 (Bytes.le b 0 1), seqno := BitVec.ofNat 16 (Bytes.le b 2 2), length := Bytes.word b 8
                    key := Bytes.at b 0x80 128 }
  if d.seqno = old then (x, d) else flueStart x d

/-- Data written to a slot under the unit rules of R87: the unit that completes the object makes the PUT (R210, R211). -/
def flueData (x : Flue) (d : FlueSlot) (off : Nat) (b : Bytes) : Flue × FlueSlot × Result :=
  if d.op ≠ 1 || d.status ≠ 1 then (x, d, .nackAccess)
  else if !unitsOk off b.length d.length.toNat then (x, d, .nackAddress)
  else
    let new := (unitsOf off b.length).filter fun u => !d.units.contains u
    let m : Mem := new.foldl (fun m u => Mem.write m (256 * u) ((b.drop (256 * u - off)).take 256)) d.bytes
    let us := d.units ++ new
    if us.length = (d.length.toNat + 255) / 256 then
      let r := fluePut x { d with units := [], bytes := [] } (m.read 0 d.length.toNat)
      (r.1, r.2.1, r.2.2.1)
    else (x, { d with units := us, bytes := m }, .ok)

/-- A request at an offset of an area of a flue target (R210). -/
def flueAccess (s : State) (f : Nat) (rq : Req) (area off : Nat) (op : OpCode) (len : Nat) (data : Bytes) : State :=
  let size := if area = 0 then 0x100 else 0x10000000
  let n := off / size
  let o := off % size
  let slot := BitVec.ofNat 6 n
  let x := s.flue f
  let d := flueSlot x rq slot
  if decide (64 ≤ n) then s.nackAddress rq
  else match op with
    | .rd =>
      let b := if area = 0 then slotDescr d else d.data
      if decide (b.length < o + len) then s.nackAddress rq else s.answer rq .ok 0 ((b.drop o).take len)
    | .wr =>
      if area ≠ 0 then s.nackAccess rq
      else if decide (0x100 < o + data.length) then s.nackAddress rq
      else
        let b := slotDescr d
        let (x, d) := flueDescr x d (b.take o ++ data ++ b.drop (o + data.length))
        (s.setFlue f (setSlot x rq slot d)).ok rq
    | .wrc =>
      if area = 0 then s.nackAccess rq
      else
        let (x, d, r) := flueData x d o data
        (s.setFlue f (setSlot x rq slot d)).answer rq r
    | _ => s.nackAccess rq

/-- A request at a flue target (R210): areas 0 and 1 hold the descriptors and the data, any other answers NACK_ADDRESS.  The
operation of the row starts at a new SEQNO; a repeat of the last one starts nothing. -/
def flueOp (s : State) (f : Nat) (rq : Req) (area : BitVec 4) (w : FlueAt) (seqno : BitVec 16) (data : Bytes)
    (k : Flue → FlueSlot → Flue × FlueSlot × Result × Bytes) : State :=
  let s := s.begin
  if decide (1 < area.toNat) then s.nackAddress rq
  else match w with
    | .at off op len => s.flueAccess f rq area.toNat off op len data
    | .slot slot =>
      let x := s.flue f
      let d := flueSlot x rq slot
      if d.seqno = seqno then s.answer rq .ok 0 d.data
      else
        let (x, d, r, out) := k x { d with seqno := seqno }
        (s.setFlue f (setSlot x rq slot d)).answer rq r 0 out

/-- The outstanding request of a REQ_ID, and the state in which it is answered. -/
def takeOut (s : State) (id : BitVec 32) : Option (Msg × State) :=
  match s.ctl.out.find? fun o => o.id = id with
  | some o => some (o.msg, { s with ctl.out := s.ctl.out.filter fun x => x.id ≠ id })
  | none => none

/-- The context of a message to a logical node. -/
def msgCtx (m : Msg) : Nat := match m.dest with | .node c _ => c | _ => 0

end State

/-! ## The commands -/

/-- DRAIN_PUT (R206): the drain's next object goes out. -/
def execDrainPut (c : Fin 16) (s : State) : Host.Outcome State Fault Refusal := .next (s.begin.drainStep c)

/-- PUT_ACK (R206, R207, R212–R214): the answer OK to an outstanding PUT. -/
def execPutAck (id : BitVec 32) (s : State) : Host.Outcome State Fault Refusal :=
  let s := s.begin
  .next (match s.takeOut id with
    | some (m, t) => if m.op = .wrc then t.putOk (State.msgCtx m) m else s
    | none => s)

/-- DRAIN_ACK_RECEIVED (R207). -/
def execDrainAckReceived (rq : Req) (shard : Word) (seq : BitVec 32) (page : Nat) (s : State) : Host.Outcome State Fault Refusal :=
  .next (s.message rq fun s =>
    let n : Nat := rq.ctx
    match (s.findShard n shard true).or (s.findShard n shard false) with
    | none => s
    | some i =>
      if (s.ctx n).esc.curSeq ≠ seq || seq = 0 || (s.entry i).peer ≠ rq.source then s
      else
        let s := s.modEntry i fun e => { e with acked := if e.acked.contains page then e.acked else e.acked ++ [page] }
        (s.endHold n i page).resumeSeals n)

/-- SHARD_DONE_RECEIVED (R213). -/
def execShardDoneReceived (rq : Req) (seq : DoneSeq) (shard claim : Word) (target : BitVec 8) (digest : Digest) (s : State) :
    Host.Outcome State Fault Refusal :=
  .next (s.message rq fun s =>
    s.takeShardDone rq.ctx seq.seq { shardId := shard, claim := claim, target := target, digest := digest, named := seq.named })

/-- CHECKPOINT_MANIFEST_PUT (R213). -/
def execCheckpointManifestPut (c : Fin 16) (s : State) : Host.Outcome State Fault Refusal := .next (s.begin.putManifest c)

/-- CKPT_COMMIT_RECEIVED (R214). -/
def execCkptCommitReceived (rq : Req) (seq : BitVec 32) (s : State) : Host.Outcome State Fault Refusal :=
  .next (s.message rq fun s =>
    let n : Nat := rq.ctx
    if (s.ctx n).esc.curSeq = seq && rq.source = (s.ctx n).clr.root then (s.commitCkpt n).resumeSeals n else s)

/-- ABANDON_RECEIVED (R204): acted on, and relayed by the step root. -/
def execAbandonReceived (rq : Req) (seq : BitVec 32) (cause : BitVec 8) (s : State) : Host.Outcome State Fault Refusal :=
  .next (s.message rq fun s =>
    let n : Nat := rq.ctx
    if (s.ctx n).esc.curSeq ≠ seq || seq = 0 then s
    else
      let root := (s.ctx n).life.stepRoot
      let s := (s.dropCkpt n cause.toNat).resumeSeals n
      if root then s.tellAbandon n seq.toNat cause.toNat else s)

/-- SELECT (R215). -/
def execCkptSelect (rq : Req) (n : Fin 16) (max : BitVec 32) (seqno : BitVec 16) (ms : List Candidate) (reached : Option Bool) (s : State) :
    Host.Outcome State Fault Refusal :=
  .next (s.rstCommand rq n 1 max seqno fun s => s.selectCkpt n max ms reached)

/-- ABANDON (R219). -/
def execCkptAbandon (rq : Req) (n : Fin 16) (max : BitVec 32) (seqno : BitVec 16) (s : State) : Host.Outcome State Fault Refusal :=
  .next (s.rstCommand rq n 2 max seqno fun s => (s.abandonCkpt n 7).resumeSeals n)

/-- PUT (R210, R211). -/
def execFluePut (f : Fin 4) (rq : Req) (area : BitVec 4) (slot : FlueAt) (seqno : BitVec 16) (obj : Bytes) (s : State) :
    Host.Outcome State Fault Refusal :=
  .next (s.flueOp f rq area slot seqno obj fun x d => State.fluePut x d obj)

/-- GET (R210). -/
def execFlueGet (f : Fin 4) (rq : Req) (area : BitVec 4) (slot : FlueAt) (seqno : BitVec 16) (key : Bytes) (s : State) :
    Host.Outcome State Fault Refusal :=
  .next (s.flueOp f rq area slot seqno key fun x d => State.flueGetObj x d key)

/-- LIST (R210). -/
def execFlueList (f : Fin 4) (rq : Req) (area : BitVec 4) (slot : FlueAt) (seqno : BitVec 16) (key : Bytes) (s : State) :
    Host.Outcome State Fault Refusal :=
  .next (s.flueOp f rq area slot seqno key fun x d => State.flueListKey x d key)

end Sys2Proof.Machine
end

