-- ==== Sys2Proof/Machine/Answers.lean ====
section
/-!
DEFINITION. Sys2Proof/Machine/Answers.lean: Azard as a requester (16 R372, R378; 18 R406, R411, R412): responses, what each answered
request leads to, repeats, and the kept answers.
-/

namespace Sys2Proof.Machine

namespace State

/-! ## Epochs held for responders (R370–R372) -/

/-- Half `b` of an epoch is newer than `a` (R370). -/
def newerHalf (a b : BitVec 16) : Bool := let d := (b - a).toNat; decide (1 ≤ d) && decide (d ≤ 32767)

/-- The EPOCH held for a responder and context; 0 when none is known (R371). -/
def heldFor (s : State) (d : Dest) (sc : Nat) : Option (BitVec 32) :=
  (s.ctl.held.find? fun x => x.1 = d && x.2.1 = sc).map fun x => x.2.2

def heldEpoch (s : State) (d : Dest) (sc : Nat) : BitVec 32 := (s.heldFor d sc).getD 0

/-- An EPOCH adopted half by half; a newer package half brings its context half with it, and the halves held for the
responder's other contexts end (log entry 36). -/
def adopt (s : State) (d : Dest) (sc : Nat) (e : BitVec 32) : State :=
  let old := s.heldEpoch d sc
  let hi (x : BitVec 32) : BitVec 16 := x.extractLsb' 16 16
  let lo (x : BitVec 32) : BitVec 16 := x.extractLsb' 0 16
  let pkg := newerHalf (hi old) (hi e)
  let new : BitVec 32 := if pkg then e else hi old ++ (if newerHalf (lo old) (lo e) then lo e else lo old)
  { s with ctl.held := (s.ctl.held.filter fun x => !(x.1 = d && (pkg || x.2.1 = sc))) ++ [(d, sc, new)] }

/-- A responder whose epoch was known answers with a newer one: a Yobel has restarted (R176, R225), or a node of the slice has
been reset (R378). -/
def epochRose (s : State) (d : Dest) (sc : Nat) (old e : BitVec 32) : State :=
  let pkg := newerHalf (old.extractLsb' 16 16) (e.extractLsb' 16 16)
  let ctx := newerHalf (old.extractLsb' 0 16) (e.extractLsb' 0 16)
  match d with
  | .yobel k =>
    if pkg then
      let s := s.modPort k fun q => { q with epochChanged := true }
      -- a restart frees every slot there (R182)
      let s := (s.modPort k fun q => { q with slotsUsed := [] }).modTstPort k fun t => { t with tagStep := [] }
      (s.record 9 30 (evSource 1 k) 0 (BitVec.ofNat 32 (e.toNat / 65536)) 0).judgeVerdict k
    else s
  | .node c x =>
    if sc = 16 || (s.ctx c).life.charter.flues.contains x then s
    else if pkg then s.learnReset c x (e.toNat / 65536)
    else if ctx then s.learnReset c x (e.toNat % 65536)
    else s
  | _ => s

/-! ## What an answered request leads to -/

/-- A page has come back from a spill peer (R275, R276): tag and digest are checked; a copy with a lost page is lost. -/
def unspill (s : State) (i p : Nat) (d : Option Bytes) : State :=
  let e := s.entry i
  let n := e.ctx.toNat
  match s.alc.parkedPages.find? fun x => x.entry = i && x.page = p with
  | none => s
  | some r =>
    if !e.parked || !e.parkedLeft.contains p then s
    else
      let pt := match s.sec.spillKey, d with
        | some k, some d => Config.gcmOpen k (BitVec.ofNat 96 (i * 4294967296 + p)) [] d
        | _, _ => none
      match pt.filter fun b => pageDigest e.shardId p e.version b = r.digest with
      | some b =>
        let left := e.parkedLeft.filter (· ≠ p)
        let s := s.modEntry i fun e => { e with mem := Mem.write e.mem (p * 2097152) b, parkedLeft := left }
        let s := { s with alc.parkedPages := s.alc.parkedPages.filter fun x => !(x.entry = i && x.page = p) }
        ((if left = [] then s.unpark i else s).tryEvict n).tryResume n
      | none => (((s.unpark i).losePartnerCopy n i).tryEvict n).tryResume n

/-- A page read through the state port (R120, R127, R131): a YOBEL fill, a REMIRROR or a repair of the local copy takes it. -/
def stateRead (s : State) (n i p : Nat) (d : Bytes) : State :=
  let e := s.entry i
  if e.st = .filling && e.fillSource = 0 && e.fill.out.any (fun x => x.1 = p) then
    let s := s.modEntry i fun e => { e with fill := { e.fill with out := e.fill.out.filter fun x => x.1 ≠ p } }
    (s.placePage n i p d false).readPump n i 16
  else if e.closing = .remirror && e.rebuildL && e.rebuildLeft.contains p then s.rebuildPage n i p d
  else match e.repairing.find? fun r => r.page = p && r.target = .locl && r.sent with
    | some r =>
      match s.installOrWait n i p r.version d with
      | (_, some t) => (t.repairAnswer n i r (r.digest = some (pageDigest e.shardId p r.version d))).resumeSeals n
      -- the page is read again once escrow is free
      | (s, none) => s.modEntry i fun e => { e with
          repairing := e.repairing.map fun x => if x.page = p && x.target = .locl then { x with sent := false } else x }
    | none => s

/-- A HOLD has been answered OK: the repair of the page goes on (R127, R187). -/
def holdOk (s : State) (n i p : Nat) : State :=
  match (s.entry i).repairing.find? fun r => r.page = p && r.target ≠ .partner && !r.held with
  | some r =>
    let r' := { r with held := true }
    (s.modEntry i fun e => { e with repairing := e.repairing.map fun x =>
      if x.page = p && x.target = r.target then r' else x }).pumpRepair n i r'
  | none => s

/-- A partner digest is acknowledged (R222). -/
def digestAcked (s : State) (n : Nat) (shard p v : Nat) : State :=
  match s.findShard n (BitVec.ofNat 64 shard) true with
  | some i => s.modEntry i fun e => { e with digestsOut := e.digestsOut.filter fun x => !(x.1 = p && x.2.1.toNat = v) }
  | none => s

/-- The final answer to a request of this Azard (R406). -/
def answered (s : State) (m : Msg) (r : Result) (d : Bytes) : State :=
  let ok : Bool := r = .ok
  match m.dest, m.op, m.args with
  | .yobel _, .wr, [_, 1, i, p] => if ok && m.addr = 0x1000 then s.holdOk (s.entry i).ctx.toNat i p else s
  | .yobel _, .rd, [2, i] => if ok then s.fillStart i d else s
  | .yobel _, .rd, [_, 3, i, p, l] => if ok then s.landLine i p l d else s.dropLines i
  | .yobel _, .rd, [_, 0, i, p] => if ok then s.stateRead (s.entry i).ctx.toNat i p d else s
  | .spillPeer _, .rd, [i, p] => s.unspill i p (if ok then some d else none)
  | .spillPeer _, .wr, [i, _] =>
    if ok || !(s.entry i).parked then s
    else (s.unpark i).losePartnerCopy (s.entry i).ctx.toNat i
  | .node c _, .msg, [shard, p, v, _, 0, _] => if ok && m.kind = 0x23 then s.digestAcked c shard p v else s
  | .node c _, .wrc, _ => if ok then s.putOk c m else s.putRefused c m r
  | .node c _, .rd, [2, 2, i, _, _, _] => s.restoreManifest c i (if ok then d else [])
  | .node c _, .rd, [2, 1, i, p, _, _] => s.restorePage c i p (if ok then d else [])
  | .node c _, .rd, [3, 1, i, _, seq, _] => s.listAnswer c i seq (if ok then d else [])
  | _, _, _ => s

/-- What waited for a request's answer goes on: an activation or a RESUME, a bind, a mirror-window write (R137, R164, R229). -/
def waitOver (s : State) (id : BitVec 32) : State :=
  let s := ctxNums.foldl (fun (s : State) (n : Fin 16) =>
    if (s.ctx n).life.transfers.contains id then
      let left := (s.ctx n).life.transfers.filter (· ≠ id)
      let s := s.modLife n fun l => { l with transfers := left }
      if left ≠ [] then s
      else if (s.ctx n).life.activating then s.enterActive n
      else s.tryResume n
    else s) s
  let s := ctxNums.foldl (fun (s : State) (n : Fin 16) =>
    if (s.ctx n).bind.ids.contains id then
      let left := (s.ctx n).bind.ids.filter (· ≠ id)
      s.modCtx n fun c => { c with bind := { c.bind with ids := left, st := if left = [] then 2 else c.bind.st } }
    else s) s
  (s.mir.entries.filter fun e => e.2.windowWrites.any fun w => w.ids.contains id).foldl (fun (s : State) e =>
    let ws := (s.entry e.1).windowWrites.map fun (w : WindowWrite) => { w with ids := w.ids.filter (· ≠ id) }
    let done := ws.filter fun w => w.ids = []
    let s := s.modEntry e.1 fun x => { x with windowWrites := ws.filter fun w => w.ids ≠ [] }
    (done.foldl (fun (s : State) (w : WindowWrite) => s.ok w.req) s).resumeSeals e.2.ctx.toNat) s

/-- A cause of a NACK_BUSY is transient (R407). -/
def transientCause (c : BitVec 8) : Bool := decide (0x10 ≤ c.toNat) && decide (c.toNat ≤ 0x16)

/-- A result delivery or its status word: any NACK_BUSY has it repeated (R100). -/
def isDelivery (m : Msg) : Bool :=
  match m.dest with
  | .yobel _ => m.addr / 17592186044416 = 2 && (m.op = .wrc || m.op = .wr)
  | _ => false

/-- A request goes out again; a PUT sent again is counted in RESENT (R219). -/
def sendAgain (s : State) (m : Msg) : State :=
  let s := s.send m
  if m.op = .wrc && m.addr / 17592186044416 = 6 then { s with esc.resent := satInc s.esc.resent } else s

/-- A RESP to this Azard (R372, R406, R411). -/
def respond (s : State) (id : BitVec 32) (r : Result) (cause : BitVec 8) (epoch : BitVec 32) (d : Bytes) : State :=
  match s.ctl.out.find? fun o => o.id = id with
  | none => s
  | some o =>
    let m := o.msg
    let sc := s.msgScope m
    let flue : Bool := m.addr / 17592186044416 = 6
    let known := s.heldFor m.dest sc
    let again (s : State) : State := if s.ctl.out.any fun x => x.id = id then s.sendAgain m else s
    if r = .nackRetry then
      let t := s.adopt m.dest sc epoch
      again (match known with
        | some old => t.epochRose m.dest sc old epoch
        | none => t)
    else if !flue && s.heldEpoch m.dest sc ≠ epoch then again s
    else if r = .nackBusy && (transientCause cause || isDelivery m) then s
    else
      let s := { s with ctl.out := s.ctl.out.filter fun x => x.id ≠ id }
      (s.answered m r d).waitOver id

/-- An unanswered request is repeated and its wait doubled, to 10 ms at most (R411). -/
def repeatRequest (s : State) (id : BitVec 32) : State :=
  match s.ctl.out.find? fun o => o.id = id with
  | none => s
  | some o =>
    if !s.outside o.since (1000 * o.wait) then s
    else
      let s := s.sendAgain o.msg
      let now := s.now
      { s with ctl.out := s.ctl.out.map fun (x : Outstanding) =>
          if x.id = id then { x with tries := x.tries + 1, wait := max x.wait (min 10000 (2 * x.wait)), since := now } else x }

end State

/-! ## The commands -/

/-- RESP_RECEIVED (R372): the response to the outstanding request `id`. -/
def execRespReceived (id : BitVec 32) (r : Result) (cause : BitVec 8) (epoch : BitVec 32) (d : Bytes) (s : State) :
    Host.Outcome State Fault Refusal := .next (s.begin.respond id r cause epoch d)

/-- REQUEST_TIMEOUT (R411). -/
def execRequestTimeout (id : BitVec 32) (s : State) : Host.Outcome State Fault Refusal := .next (s.begin.repeatRequest id)

/-- KEPT_ANSWER_EXPIRY (R412): answers given 1 s ago and earlier are dropped. -/
def execKeptAnswerExpiry (s : State) : Host.Outcome State Fault Refusal :=
  let s := s.begin
  .next { s with ctl.kept := s.ctl.kept.filter fun a => !s.outside a.time second }

end Sys2Proof.Machine
end

