-- ==== Sys2Proof/Machine/Insns.lean ====
section
/-!
DEFINITION. Sys2Proof/Machine/Insns.lean: the instruction commands (06 R159).  A command is the execution, on one engine, of
the instruction that stands at that engine's pc: it carries the instruction's fields, and acts when the word at the pc
is that instruction's encoding.  NEXT and HALT, whose stores reach a copy, stand in Machine/Runs.lean.
-/

namespace Sys2Proof.Machine

/-- A hold on a page of a Yobel slot at its present version (R187). -/
def State.yobelHolds (s : State) (k : Fin 9) (slot p : Nat) : Bool :=
  let x : YSlot := Map.get {} (s.yobel k).slots slot
  x.holds.any fun y => y.1 = p && y.2 = x.version

/-- Page p is held for a repair at the copy that engine `e` updates (R127, R169). -/
def State.heldPage (s : State) (e : Engine) (p : Nat) : Bool :=
  match e.copy with
  | .mirror i => (s.entry i.toNat).repairing.any fun r => r.page = p && r.version = (s.entry i.toNat).version
  | .yobel k slot => s.yobelHolds k slot.toNat p

/-- The instruction `x`, encoded as `w`, executed on engine `h` when it stands at the pc of a running section; a pc
outside the code raises ILLEGAL whatever the command (R153). -/
def State.insn (s : State) (h : Fin 77) (w : Word) (x : EStep) : State :=
  let s := s.begin
  let e := s.engine h
  if !e.running then s
  else match e.fetch with
    | none => s.setEngine h (e.guarded (s.heldPage e) (fun _ => .error .illegal) none 0)
    | some v => if v = w then s.setEngine h (e.guarded (s.heldPage e) x none 0) else s

/-- NOP; a word with an undefined opcode, which no command of the table names, raises ILLEGAL here (R153). -/
def State.insnNop (s : State) (h : Fin 77) (f : RFields) : State :=
  let e := s.engine h
  match e.fetch with
  | some v => if e.running && (opEffect v).isNone then s.begin.setEngine h (e.guarded (s.heldPage e) (fun _ => .error .illegal) none 0)
    else s.insn h (encR 0x00 f) (xNop f)
  | none => s.insn h (encR 0x00 f) (xNop f)

/-- NOP (R159). -/
def execNop (h : Fin 77) (f : RFields) (s : State) : Host.Outcome State Fault Refusal :=
  .next (s.insnNop h f)

/-- ABORT (R159). -/
def execAbortInsn (h : Fin 77) (f : IFields) (s : State) : Host.Outcome State Fault Refusal :=
  .next (s.insn h (encI 0x03 f) (xAbort f))

/-- JMP (R159). -/
def execJmp (h : Fin 77) (f : IFields) (s : State) : Host.Outcome State Fault Refusal :=
  .next (s.insn h (encI 0x04 f) (xJmp f))

/-- BEQ (R159). -/
def execBeq (h : Fin 77) (f : IFields) (s : State) : Host.Outcome State Fault Refusal :=
  .next (s.insn h (encI 0x05 f) (xBeq f))

/-- BNE (R159). -/
def execBne (h : Fin 77) (f : IFields) (s : State) : Host.Outcome State Fault Refusal :=
  .next (s.insn h (encI 0x06 f) (xBne f))

/-- BLT (R159). -/
def execBlt (h : Fin 77) (f : IFields) (s : State) : Host.Outcome State Fault Refusal :=
  .next (s.insn h (encI 0x07 f) (xBlt f))

/-- BGE (R159). -/
def execBge (h : Fin 77) (f : IFields) (s : State) : Host.Outcome State Fault Refusal :=
  .next (s.insn h (encI 0x08 f) (xBge f))

/-- CSRR (R159). -/
def execCsrr (h : Fin 77) (f : IFields) (s : State) : Host.Outcome State Fault Refusal :=
  .next (s.insn h (encI 0x09 f) (xCsrr f))

/-- CSRW (R159). -/
def execCsrw (h : Fin 77) (f : IFields) (s : State) : Host.Outcome State Fault Refusal :=
  .next (s.insn h (encI 0x0A f) (xCsrw f))

/-- LI (R159). -/
def execLi (h : Fin 77) (f : IFields) (s : State) : Host.Outcome State Fault Refusal :=
  .next (s.insn h (encI 0x10 f) (xLi f))

/-- LUI (R159). -/
def execLui (h : Fin 77) (f : IFields) (s : State) : Host.Outcome State Fault Refusal :=
  .next (s.insn h (encI 0x11 f) (xLui f))

/-- SADD (R159). -/
def execSadd (h : Fin 77) (f : RFields) (s : State) : Host.Outcome State Fault Refusal :=
  .next (s.insn h (encR 0x12 f) (xSadd f))

/-- SADDI (R159). -/
def execSaddi (h : Fin 77) (f : IFields) (s : State) : Host.Outcome State Fault Refusal :=
  .next (s.insn h (encI 0x13 f) (xSaddi f))

/-- SSUB (R159). -/
def execSsub (h : Fin 77) (f : RFields) (s : State) : Host.Outcome State Fault Refusal :=
  .next (s.insn h (encR 0x14 f) (xSsub f))

/-- SMUL (R159). -/
def execSmul (h : Fin 77) (f : RFields) (s : State) : Host.Outcome State Fault Refusal :=
  .next (s.insn h (encR 0x15 f) (xSmul f))

/-- SAND (R159). -/
def execSand (h : Fin 77) (f : RFields) (s : State) : Host.Outcome State Fault Refusal :=
  .next (s.insn h (encR 0x16 f) (xSand f))

/-- SOR (R159). -/
def execSor (h : Fin 77) (f : RFields) (s : State) : Host.Outcome State Fault Refusal :=
  .next (s.insn h (encR 0x17 f) (xSor f))

/-- SXOR (R159). -/
def execSxor (h : Fin 77) (f : RFields) (s : State) : Host.Outcome State Fault Refusal :=
  .next (s.insn h (encR 0x18 f) (xSxor f))

/-- SSHLI (R159). -/
def execSshli (h : Fin 77) (f : IFields) (s : State) : Host.Outcome State Fault Refusal :=
  .next (s.insn h (encI 0x19 f) (xSshli f))

/-- SSHRI (R159). -/
def execSshri (h : Fin 77) (f : IFields) (s : State) : Host.Outcome State Fault Refusal :=
  .next (s.insn h (encI 0x1A f) (xSshri f))

/-- SMIN (R159). -/
def execSmin (h : Fin 77) (f : RFields) (s : State) : Host.Outcome State Fault Refusal :=
  .next (s.insn h (encR 0x1B f) (xSmin f))

/-- SLD (R159). -/
def execSld (h : Fin 77) (f : IFields) (s : State) : Host.Outcome State Fault Refusal :=
  .next (s.insn h (encI 0x1C f) (xSld f))

/-- SST (R159). -/
def execSst (h : Fin 77) (f : IFields) (s : State) : Host.Outcome State Fault Refusal :=
  .next (s.insn h (encI 0x1D f) (xSst f))

/-- SETVL (R159). -/
def execSetvl (h : Fin 77) (f : RFields) (s : State) : Host.Outcome State Fault Refusal :=
  .next (s.insn h (encR 0x20 f) (xSetvl f))

/-- VLD (R159). -/
def execVld (h : Fin 77) (f : IFields) (s : State) : Host.Outcome State Fault Refusal :=
  .next (s.insn h (encI 0x21 f) (xVld f))

/-- VST (R159). -/
def execVst (h : Fin 77) (f : IFields) (s : State) : Host.Outcome State Fault Refusal :=
  .next (s.insn h (encI 0x22 f) (xVst f))

/-- VIOTA (R159). -/
def execViota (h : Fin 77) (f : RFields) (s : State) : Host.Outcome State Fault Refusal :=
  .next (s.insn h (encR 0x23 f) (xViota f))

/-- VADD (R159). -/
def execVadd (h : Fin 77) (f : RFields) (s : State) : Host.Outcome State Fault Refusal :=
  .next (s.insn h (encR 0x30 f) (xVadd f))

/-- VSUB (R159). -/
def execVsub (h : Fin 77) (f : RFields) (s : State) : Host.Outcome State Fault Refusal :=
  .next (s.insn h (encR 0x31 f) (xVsub f))

/-- VMUL (R159). -/
def execVmul (h : Fin 77) (f : RFields) (s : State) : Host.Outcome State Fault Refusal :=
  .next (s.insn h (encR 0x32 f) (xVmul f))

/-- VDIV (R159). -/
def execVdiv (h : Fin 77) (f : RFields) (s : State) : Host.Outcome State Fault Refusal :=
  .next (s.insn h (encR 0x33 f) (xVdiv f))

/-- VFMA (R159). -/
def execVfma (h : Fin 77) (f : RFields) (s : State) : Host.Outcome State Fault Refusal :=
  .next (s.insn h (encR 0x34 f) (xVfma f))

/-- VFMS (R159). -/
def execVfms (h : Fin 77) (f : RFields) (s : State) : Host.Outcome State Fault Refusal :=
  .next (s.insn h (encR 0x35 f) (xVfms f))

/-- VFNMA (R159). -/
def execVfnma (h : Fin 77) (f : RFields) (s : State) : Host.Outcome State Fault Refusal :=
  .next (s.insn h (encR 0x36 f) (xVfnma f))

/-- VSQRT (R159). -/
def execVsqrt (h : Fin 77) (f : RFields) (s : State) : Host.Outcome State Fault Refusal :=
  .next (s.insn h (encR 0x37 f) (xVsqrt f))

/-- VRSQRT (R159). -/
def execVrsqrt (h : Fin 77) (f : RFields) (s : State) : Host.Outcome State Fault Refusal :=
  .next (s.insn h (encR 0x38 f) (xVrsqrt f))

/-- VMIN (R159). -/
def execVmin (h : Fin 77) (f : RFields) (s : State) : Host.Outcome State Fault Refusal :=
  .next (s.insn h (encR 0x39 f) (xVmin f))

/-- VMAX (R159). -/
def execVmax (h : Fin 77) (f : RFields) (s : State) : Host.Outcome State Fault Refusal :=
  .next (s.insn h (encR 0x3A f) (xVmax f))

/-- VABS (R159). -/
def execVabs (h : Fin 77) (f : RFields) (s : State) : Host.Outcome State Fault Refusal :=
  .next (s.insn h (encR 0x3B f) (xVabs f))

/-- VNEG (R159). -/
def execVneg (h : Fin 77) (f : RFields) (s : State) : Host.Outcome State Fault Refusal :=
  .next (s.insn h (encR 0x3C f) (xVneg f))

/-- VCVT (R159). -/
def execVcvt (h : Fin 77) (f : RFields) (s : State) : Host.Outcome State Fault Refusal :=
  .next (s.insn h (encR 0x3D f) (xVcvt f))

/-- VCEQ (R159). -/
def execVceq (h : Fin 77) (f : RFields) (s : State) : Host.Outcome State Fault Refusal :=
  .next (s.insn h (encR 0x3E f) (xVceq f))

/-- VCLT (R159). -/
def execVclt (h : Fin 77) (f : RFields) (s : State) : Host.Outcome State Fault Refusal :=
  .next (s.insn h (encR 0x3F f) (xVclt f))

/-- VCLE (R159). -/
def execVcle (h : Fin 77) (f : RFields) (s : State) : Host.Outcome State Fault Refusal :=
  .next (s.insn h (encR 0x40 f) (xVcle f))

/-- VNF (R159). -/
def execVnf (h : Fin 77) (f : RFields) (s : State) : Host.Outcome State Fault Refusal :=
  .next (s.insn h (encR 0x41 f) (xVnf f))

/-- VAND (R159). -/
def execVand (h : Fin 77) (f : RFields) (s : State) : Host.Outcome State Fault Refusal :=
  .next (s.insn h (encR 0x48 f) (xVand f))

/-- VOR (R159). -/
def execVor (h : Fin 77) (f : RFields) (s : State) : Host.Outcome State Fault Refusal :=
  .next (s.insn h (encR 0x49 f) (xVor f))

/-- VXOR (R159). -/
def execVxor (h : Fin 77) (f : RFields) (s : State) : Host.Outcome State Fault Refusal :=
  .next (s.insn h (encR 0x4A f) (xVxor f))

/-- VSEL (R159). -/
def execVsel (h : Fin 77) (f : RFields) (s : State) : Host.Outcome State Fault Refusal :=
  .next (s.insn h (encR 0x4B f) (xVsel f))

/-- VIADD (R159). -/
def execViadd (h : Fin 77) (f : RFields) (s : State) : Host.Outcome State Fault Refusal :=
  .next (s.insn h (encR 0x4C f) (xViadd f))

/-- VANY (R159). -/
def execVany (h : Fin 77) (f : RFields) (s : State) : Host.Outcome State Fault Refusal :=
  .next (s.insn h (encR 0x4D f) (xVany f))

/-- VRAND (R159). -/
def execVrand (h : Fin 77) (f : RFields) (s : State) : Host.Outcome State Fault Refusal :=
  .next (s.insn h (encR 0x50 f) (xVrand f))

/-- ACLR (R159). -/
def execAclr (h : Fin 77) (f : RFields) (s : State) : Host.Outcome State Fault Refusal :=
  .next (s.insn h (encR 0x58 f) (xAclr f))

/-- AADD (R159). -/
def execAadd (h : Fin 77) (f : RFields) (s : State) : Host.Outcome State Fault Refusal :=
  .next (s.insn h (encR 0x59 f) (xAadd f))

/-- AGET (R159). -/
def execAget (h : Fin 77) (f : RFields) (s : State) : Host.Outcome State Fault Refusal :=
  .next (s.insn h (encR 0x5A f) (xAget f))

/-- TLD (R159). -/
def execTld (h : Fin 77) (f : IFields) (s : State) : Host.Outcome State Fault Refusal :=
  .next (s.insn h (encI 0x60 f) (xTld f))

/-- TST (R159). -/
def execTst (h : Fin 77) (f : IFields) (s : State) : Host.Outcome State Fault Refusal :=
  .next (s.insn h (encI 0x61 f) (xTst f))

/-- TZERO (R159). -/
def execTzero (h : Fin 77) (f : RFields) (s : State) : Host.Outcome State Fault Refusal :=
  .next (s.insn h (encR 0x62 f) (xTzero f))

/-- TMMA (R159). -/
def execTmma (h : Fin 77) (f : RFields) (s : State) : Host.Outcome State Fault Refusal :=
  .next (s.insn h (encR 0x63 f) (xTmma f))

/-- TRED (R159). -/
def execTred (h : Fin 77) (f : RFields) (s : State) : Host.Outcome State Fault Refusal :=
  .next (s.insn h (encR 0x64 f) (xTred f))

/-- INSN_LIMIT_FAULT (R153): the instance is about to execute instruction INSN_LIMIT + 1; checked before decode. -/
def execInsnLimitFault (h : Fin 77) (s : State) : Host.Outcome State Fault Refusal :=
  let s := s.begin
  let e := s.engine h
  .next (if e.running && decide (e.hdr.insnLimit ≤ e.icount) then
      s.setEngine h (e.guarded (s.heldPage e) (fun _ => .error .limit) none 0) else s)

end Sys2Proof.Machine
end

