-- ==== Sys2Proof/Machine/Runs.lean ====
section
/-!
DEFINITION. Sys2Proof/Machine/Runs.lean: runs of step programs on mirror copies (05 R124, 06 R147–R153, R165–R169): their start, the
ends of their instances, whose stores reach the copy, and their end.
-/

namespace Sys2Proof.Machine

namespace State

/-! ## The views of a run (R146, R165) -/

/-- Bytes of a segment's rounded results. -/
def resultSize (g : Seg) : Nat := g.elements.toNat * resultBytes g.rfmt.toNat

/-- The gradient view of a group at a step: its segments' rounded results without gaps, and their size. -/
def gradView (s : State) (n : Nat) (g : BitVec 5) (st : Word) : Mem × Nat :=
  (s.groupSegs n g).foldl (fun (m : Mem × Nat) x =>
    let b : Mem := ((x.2.rounds.find? fun r => r.step = st).map fun r => r.bytes).getD []
    (Mem.write m.1 m.2 (b.read 0 (resultSize x.2)), m.2 + resultSize x.2)) ([], 0)

/-- Offset of a segment within its group's gradient view. -/
def gradOffset (s : State) (n : Nat) (g : BitVec 5) (k : Nat) : Nat :=
  (((s.groupSegs n g).filter fun x => decide (x.1 < k)).map fun x => resultSize x.2).sum

/-- Gradient elements of a range of segments. -/
def gradElems (s : State) (n first count : Nat) : Nat :=
  ((List.range count).map fun k => (s.seg n (first + k)).elements.toNat).sum

/-! ## Ends of instances -/

/-- Old content of the pages an instance stores to is copied for the checkpoint that holds them; none when an escrow page is
wanting (R201, R203). -/
def cowPages (s : State) (n i : Nat) (ps : List Nat) : Option State :=
  ps.foldl (fun (o : Option State) p => o.bind fun s => s.copyOnWrite n i p) (some s)

/-- An instance of a mirror's run ends with its stores (R150, R201, R203): held back while escrow is wanting. -/
def endMirror (s : State) (h i : Nat) (e : Engine) (x : EStep) (goOn : Bool) (choice : Nat) : State :=
  let n : Nat := e.ctx
  let go (s : State) : State :=
    let s := e.storedPages.foldl (fun (s : State) p => s.trackWrite i p) s
    let s := (s.modEntry i fun y => { y with waitEscrow := none }).updWaiting
    s.setEngine h (e.execute x (some goOn) choice)
  match s.cowPages n i e.storedPages with
  | some s => go s
  | none =>
    if s.lagOf n e.stepNo ≤ 1 then go (s.abandonCkpt n 1)
    else (s.modEntry i fun y => { y with waitEscrow := some e.stepNo }).updWaiting

/-- NEXT or HALT on engine h; a fault in place of it, and an instance that a repair disturbs, as for every instruction (R153,
R169). -/
def insnEnd (s : State) (h : Fin 77) (w : Word) (x : EStep) (goOn : Bool) (choice : Nat) : State :=
  let s := s.begin
  let e := s.engine h
  let held := s.heldPage e
  if !e.running then s
  else match e.fetch with
    | none => s.setEngine h (e.guarded held (fun _ => .error .illegal) none choice)
    | some v =>
      if v ≠ w then s
      else if e.awaits.any held || e.disturbed held || e.hdr.insnLimit ≤ e.icount || !(x e).toBool then
        s.setEngine h (e.guarded held x (some goOn) choice)
      else match e.copy with
        | .mirror i => s.endMirror h i.toNat e x goOn choice
        | .yobel _ _ => s.setEngine h (e.execute x (some goOn) choice)

/-! ## Start and end of a run -/

/-- Regions that hold an entry's copy. -/
def entryRegions (e : Entry) : List Nat := (e.alloc.map fun x => regionOf x.1).eraseDups

/-- A hearth may take work: active, not under test, its clock on, its PLL running and its region powered (R281). -/
def hearthReady (s : State) (h : Nat) : Bool :=
  (s.hearth h).role = .active && !(s.hearth h).testing && !(s.hearth h).gated && !(s.engine h).running && !(s.engine h).finished &&
  (s.region (h / 17)).pll = .running && s.powered (h / 17) &&
  !(s.die.scrubMissed.any fun x => regionOf x.1 = h / 17)

/-- Region q may run an entry's step program: it holds pages of the copy (R24), or both its stacks have failed, and its hearths
work on pages of other regions (R20). -/
def mayRunIn (s : State) (e : Entry) (q : Nat) : Bool :=
  (entryRegions e).contains q || ((s.hbm (2 * q)).failed && (s.hbm (2 * q + 1)).failed)

/-- The run of the oldest queued step on an entry's copy begins on hearth h (R24, R124, R165). -/
def startRun (s : State) (i : Nat) (h : Nat) (st : Word) : State :=
  let e := s.entry i
  let n := e.ctx.toNat
  let g := s.gradView n e.group st
  let img := Mem.write [] 0 e.image
  s.setEngine h (Engine.start (.mirror (BitVec.ofNat 16 i)) (ctxFin n) img st (s.stepKey n st e) e.mem e.length.toNat g.1 g.2
    (s.gradOffset n e.group e.segFirst.toNat) (s.gradElems n e.segFirst.toNat e.segCount.toNat) (Mem.write [] 0 e.hyperBytes))

/-- CTX_PROG_STATUS, CTX_PROG_STEP and CTX_PROG_FLAGS after a run, and VEC-001 for a faulted one (R153, R167). -/
def reportRun (s : State) (n i : Nat) (g : Engine) : State :=
  let s := s.modCtx n fun c => { c with prog.flags := c.prog.flags ||| g.finalFlags }
  match g.faulted with
  | none => s
  | some (_, code, sect, ab, idx) =>
    let s := s.modCtx n fun c => { c with prog := { c.prog with
      fault := code, section_ := BitVec.ofNat 3 sect.num, abortCode := if code = 6 then ab else 0
      entry := BitVec.ofNat 16 i, index := BitVec.ofNat 24 idx, step := g.stepNo, faults := satInc c.prog.faults } }
    let att := ((s.committedAtt n g.stepNo).map fun a => a.attempt.setWidth 32).getD (0 : BitVec 32)
    s.record 8 1 (evSource 5 n i) (code.setWidth 32) (g.stepNo.setWidth 32) att

/-- A finished run becomes the copy's new version: VERSION + 1, COMMITTED, a digest of every page (R124). -/
def finishRun (s : State) (h i : Nat) (g : Engine) : State :=
  let e := s.entry i
  let n := e.ctx.toNat
  let now := s.now
  let s := ((s.setEngine h {}).modHearth h fun x => { x with idleSince := now }).reportRun n i g
  let s := match s.committedAtt n g.stepNo with | some a => s.countLate a.deadline | none => s
  let s := s.modEntry i fun e => { e with
    mem := g.state, version := e.version + 1, committed := g.stepNo, queued := e.queued.filter fun x => x ≠ g.stepNo }
  let e := s.entry i
  let s := (List.range e.pages.toNat).foldl (fun (s : State) p =>
    let d := entryDigest e p
    if e.role then s.partnerDigest n i p e.version d false else s.takeVote n i p e.version .locl d) s
  ((s.pumpRepairs n i).fillGo).settle n g.stepNo

end State

/-! ## The commands -/

/-- STEP_PROGRAM_RUN (R124): the oldest step queued on a copy, once its group is rounded here. -/
def execStepProgramRun (e : BitVec 16) (h : Fin 68) (s : State) : Host.Outcome State Fault Refusal :=
  let s := s.begin
  let x := s.entry e.toNat
  let n := x.ctx.toNat
  .next (match x.queued.head? with
    | none => s
    | some st =>
      if State.takesUpdate x && s.groupRounded n x.group st && (s.runOfEntry e.toNat).isNone && s.hearthReady h &&
          s.mayRunIn x (h / 17) then s.startRun e.toNat h st
      else s)

/-- STEP_UPDATE_DONE (R124): a run on a mirror copy has ended; a repair at the copy's version, or a line that scrub has asked for
again, holds it back (R127, R140). -/
def execStepUpdateDone (h : Fin 68) (s : State) : Host.Outcome State Fault Refusal :=
  let s := s.begin
  let g := s.engine h
  .next (match g.copy with
    | .mirror i =>
      let e := s.entry i.toNat
      if !g.finished || e.scrubLines ≠ [] || e.repairing.any (fun r => r.version = e.version) then s else s.finishRun h i.toNat g
    | .yobel _ _ => s)

/-- HALT (R147). -/
def execHalt (h : Fin 77) (f : RFields) (choice : Nat) (s : State) : Host.Outcome State Fault Refusal :=
  .next (s.insnEnd h (encR 1 f) (xEnd f) false choice)

/-- NEXT (R147). -/
def execNextInsn (h : Fin 77) (f : RFields) (choice : Nat) (s : State) : Host.Outcome State Fault Refusal :=
  .next (s.insnEnd h (encR 2 f) (xEnd f) true choice)

end Sys2Proof.Machine
end

