-- ==== Sys2Proof/Machine/Yobel.lean ====
section
/-!
DEFINITION. Sys2Proof/Machine/Yobel.lean: Yobel, the accelerator-side block of each tray port (07): its control registers,
contributions, result windows, program copies, shard slots, installs, tile capture and removal.  The commands are the
requests that reach a Yobel and what it does of itself; what it sends stands in State.sent.
-/

namespace Sys2Proof.Machine

namespace State

def yctx (s : State) (k c : Nat) : YCtx := Map.get {} (s.yobel k).ctx c
def modYctx (s : State) (k c : Nat) (f : YCtx → YCtx) : State :=
  s.modYobel k fun y => { y with ctx := Map.mod {} y.ctx c f }
def yslot (s : State) (k sl : Nat) : YSlot := Map.get {} (s.yobel k).slots sl
def modYslot (s : State) (k sl : Nat) (f : YSlot → YSlot) : State :=
  s.modYobel k fun y => { y with slots := Map.mod {} y.slots sl f }

/-! ## Requests (R173, R176, R194) -/

/-- The epochs a Yobel's packets carry: its restart epoch's low half over the context's epoch there (R176, R194). -/
def yEpochOf (s : State) (k : Nat) (c : Option Nat) : BitVec 32 :=
  (s.yobel k).epoch.setWidth 16 ++ (c.elim 0 fun c => (s.yctx k c).epoch)

def yEpoch (s : State) (y : YReq) : BitVec 32 := s.yEpochOf y.port (if y.ctxv then some y.ctx else none)

/-- One answer of a Yobel. -/
def yAnswer (s : State) (y : YReq) (r : Result) (cause : Nat := 0) (data : Bytes := []) : State :=
  { s with answers := s.answers ++ [{ result := r, cause := BitVec.ofNat 8 cause, epoch := s.yEpoch y, data := data }] }

def yOk (s : State) (y : YReq) : State := s.yAnswer y .ok

/-- The target spaces that Yobel decodes (R173). -/
def yDecodes (sp : BitVec 4) : Bool := sp = 0 || sp = 2 || sp = 3 || sp = 4

/-- A request to a Yobel: another epoch than its own answers NACK_RETRY with the current one (R176, R194), a space that Yobel
does not decode NACK_ADDRESS (R173). -/
def yAdmit (s : State) (y : YReq) (k : State → State) : State :=
  let s := s.begin
  if y.epoch ≠ s.yEpoch y then s.yAnswer y .nackRetry
  else if y.space.any fun a => !yDecodes a then s.yAnswer y .nackAddress
  else k s

/-- A register of the control space addressed (R173): WR, the command's own operation, writes it, RD reads its word, every other
operation answers NACK_ACCESS. -/
def yRegister (s : State) (y : YReq) (w : State → Word) (write : State → State) : State :=
  s.yAdmit y fun s =>
    match y.other with
    | none | some .wr => (write s).yOk y
    | some .rd => s.yAnswer y .ok 0 (natLe 8 (w s).toNat)
    | _ => s.yAnswer y .nackAccess

/-- The extension's claim of a request that must carry one (R174). -/
def claimOf (e : Option Ext) : Option Word := e.bind fun x => if x.hasClaim then some x.claim else none

/-- Records sent into an intake window of Azard (R184): kind 0 DIGEST, 1 CAPTURE, 2 TEST_REPORT. -/
def intake (s : State) (k : Fin 9) (c kind : Nat) (args : List Nat) (data : Bytes) : State :=
  s.send { dest := .azardOf k, op := .wrc, addr := 5 * 2 ^ 44 + 0xF * 2 ^ 40 + c * 2 ^ 36 + kind * 2 ^ 32, args := args, data := data }

/-- A digest record (R185) sent to the DIGEST intake. -/
def sendDigest (s : State) (k : Fin 9) (c : Nat) (x : YSlot) (p : Nat) (v : BitVec 32) (install : Bool) (d : Digest) : State :=
  s.intake k c 0 [x.claim.toNat] (natLe 8 x.shardId.toNat ++ natLe 4 p ++ natLe 4 v.toNat ++ natLe 8 x.claim.toNat ++
    natLe 8 (bit install) ++ digestBytes d)

/-! ## The accelerator's copy -/

/-- The memory bound to a slot's shard. -/
def shardMem (s : State) (k : Nat) (x : YSlot) : Mem := Map.get [] (s.yobel k).memory x.shardId.toNat
def setShardMem (s : State) (k : Nat) (x : YSlot) (m : Mem) : State :=
  s.modYobel k fun y => { y with memory := Map.set [] y.memory x.shardId.toNat m }

/-- Bytes of a page of a slot's shard. -/
def yPage (s : State) (k : Nat) (x : YSlot) (p : Nat) : Bytes :=
  (s.shardMem k x).read (p * 2097152) (min 2097152 (x.length.toNat - p * 2097152))

/-- The digest of a page of the accelerator's copy. -/
def yDigest (s : State) (k : Nat) (x : YSlot) (p : Nat) (v : BitVec 32) : Digest := pageDigest x.shardId p v (s.yPage k x p)

/-- The run of a slot on this Yobel's engine. -/
def yRun (s : State) (k sl : Nat) : Option Engine :=
  let e := s.engine (68 + k)
  if (e.running || e.finished) && (match e.copy with | .yobel q t => q.val = k && t.toNat = sl | _ => false) then some e else none

/-- The run on a slot ends with no further effect. -/
def yStop (s : State) (k sl : Nat) : State := if (s.yRun k sl).isSome then s.setEngine (68 + k) {} else s

/-! ## Removal and restart (R176, R194) -/

/-- REMOVE carried out for context c (R194). -/
def yRemove (s : State) (k c : Nat) : State :=
  let mine (x : YSlot) : Bool := x.ctx.toNat = c
  let s := (s.yobel k).slots.foldl (fun (s : State) x => if mine x.2 then s.yStop k x.1 else s) s
  s.modYobel k fun y => { y with
    slots := y.slots.filter fun x => !mine x.2
    images := y.images.filter fun x => x.1 / 256 ≠ c
    hyper := y.hyper.filter fun x => x.1 / 4096 ≠ c
    results := y.results.filter fun x => x.1 / 4096 ≠ c
    ctx := Map.mod {} y.ctx c fun r => { r with
      epoch := r.epoch + 1, st := .empty, valid := false, claim := 0, openAtt := none, claimStop := false, stopped := false
      done := [], inFlight := [], captures := [] }
    granted := false, testing := false, probeRun := none, probeStatus := if y.probeRun.isSome then 0 else y.probeStatus }

/-- STATE of YBL_CTX_STATUS (R177). -/
def yCtxNum : YCtxState → Nat
  | .empty => 0
  | .joined => 1
  | .removing => 2

/-- The word of a context register of R177 at offset `o` within the context's block; none where there is none. -/
def yCtxWord (s : State) (k c o : Nat) : Option Word :=
  let r := s.yctx k c
  match o with
  | 0x00 => some (Word.pack [(0, r.logical.toNat), (16, r.azardNode.toNat), (32, bit r.valid)])
  | 0x08 => some r.claim
  | 0x10 => some r.step
  | 0x18 => some (Word.pack [(0, r.attempt.toNat)])
  | 0x20 => some r.tag
  | 0x28 => some (Word.pack [(0, r.cmd.toNat), (16, r.cmdSeq.toNat)])
  | 0x30 => some (Word.pack [(0, yCtxNum r.st), (16, r.epoch.toNat), (32, r.segsDone.toNat), (48, r.dropped.toNat)])
  | 0x38 => some (Word.pack [(0, r.tiles.toNat), (8, r.windowLog2.toNat)])
  | _ => none

/-- YBL_ID (R177). -/
def yIdWord (v : Yobel) : Word :=
  Word.pack [(0, v.revision.toNat), (8, v.osfel.toNat), (16, v.slotsN.toNat), (29, v.engines.toNat), (37, v.units.toNat),
    (49, bit v.capture)]

/-- The word of a register of the Yobel control space at offset `a`: R177's, the test grant's of R192 and the probe's of R191. -/
def yWord (s : State) (k a : Nat) : Option Word :=
  let v := s.yobel k
  if 0x100 ≤ a && a < 0x500 then s.yCtxWord k ((a - 0x100) / 0x40) ((a - 0x100) % 0x40)
  else match a with
    | 0x0000 => some (yIdWord v)
    | 0x0008 => some (v.epoch.setWidth 64)
    | 0x0600 => some v.testStart
    | 0x0608 => some v.testEnd
    | 0x0610 => some (Word.pack [(0, v.testSeq.toNat), (16, v.testSet.toNat)])
    | 0x0700 => some (Word.pack [(0, v.probeSeq.toNat)])
    | 0x0708 => some (Word.pack [(0, v.probeStatus.toNat), (4, v.probeFault.toNat)])
    | 0x0710 => some (v.probeDigest.extractLsb' 0 64)
    | 0x0718 => some (v.probeDigest.extractLsb' 64 64)
    | 0x0720 => some (v.probeDigest.extractLsb' 128 64)
    | 0x0728 => some (v.probeDigest.extractLsb' 192 64)
    | _ => none

/-- A write of a context register of R177 at offset `o` within the context's block. -/
def yCtxWrite (s : State) (k c o : Nat) (v : Word) : State :=
  match o with
  | 0x00 => s.modYctx k c fun r => { r with
      logical := v.extractLsb' 0 16, azardNode := v.extractLsb' 16 16, valid := v.getLsbD 32
      st := if v.getLsbD 32 then .joined else r.st }
  | 0x08 => s.modYctx k c fun r => if r.claim.toNat < v.toNat then { r with claim := v, claimStop := false } else r
  | 0x10 => s.modYctx k c fun r => { r with step := v }
  | 0x18 => s.modYctx k c fun r => { r with attempt := v.extractLsb' 0 16 }
  | 0x20 => s.modYctx k c fun r => { r with
      tag := v, openAtt := some { step := r.step, attempt := r.attempt, tag := v }, stopped := false, segsOk := [], segsDone := 0
      inFlight := [], done := [], tileStep := r.step, tileNext := if r.tileStep = r.step then r.tileNext else [] }
  | 0x28 =>
    let seq := v.extractLsb' 16 16
    let r := s.yctx k c
    let go := seq ≠ r.cmdActed
    let s := s.modYctx k c fun r => { r with cmd := v.extractLsb' 0 2, cmdSeq := seq, cmdActed := if go then seq else r.cmdActed }
    if go && v.extractLsb' 0 2 = 1 then s.yRemove k c else s
  | 0x38 => s.modYctx k c fun r => { r with
      tiles := BitVec.ofNat 7 (min 64 (v.extractLsb' 0 7).toNat)
      windowLog2 := BitVec.ofNat 5 (clampNat 10 24 (v.extractLsb' 8 5).toNat) }
  | _ => s

/-! ## Contributions (R179, R180) -/

/-- A segment's configuration at Yobel, from the status table (R180). -/
def ySeg (s : State) (k c seg : Nat) : YResult := Map.get {} (s.yobel k).results (c * 4096 + seg)
def modYseg (s : State) (k c seg : Nat) (f : YResult → YResult) : State :=
  s.modYobel k fun y => { y with results := Map.mod {} y.results (c * 4096 + seg) f }

/-- ELEMENTS, GROUP, CFMT and RFMT of a configuration half (R85). -/
def cfgElements (r : YResult) : Nat := (r.config.extractLsb' 0 32).toNat
def cfgGroup (r : YResult) : BitVec 5 := r.config.extractLsb' 32 5
def cfgCfmt (r : YResult) : Nat := (r.config.extractLsb' 40 4).toNat
def cfgRfmt (r : YResult) : Nat := (r.config.extractLsb' 44 4).toNat

/-- Units of a whole contribution to a segment. -/
def yUnits (r : YResult) : Nat := (contribBytes (cfgCfmt r) (cfgElements r) + 255) / 256

/-- Bytes of an array of elements of `w` bits. -/
def elemBytes (w : Nat) (xs : List Nat) : Bytes := xs.flatMap (natLe (w / 8))

/-- The header of a capture record (R190). -/
def captureHeader (r : CaptureRec) : Bytes :=
  natLe 8 r.step.toNat ++ natLe 2 r.unit.toNat ++ natLe 2 r.m.toNat ++ natLe 2 r.k.toNat ++ natLe 2 r.n.toNat ++
  natLe 4 r.position.toNat ++ natLe 4 r.abfmt.toNat ++ natLe 8 r.length.toNat ++ natLe 8 r.time.toNat ++ List.replicate 24 0

/-- The bytes of a capture record: its header, eᵀA, B, eᵀC_in and eᵀC_out, and zero padding up to LENGTH (R190). -/
def captureBytes (r : CaptureRec) : Bytes :=
  let b := captureHeader r ++ elemBytes 32 (r.eA.map BitVec.toNat) ++ elemBytes (fmtWidth r.abfmt.toNat) (r.b.map BitVec.toNat) ++
    elemBytes 32 (r.eCin.map BitVec.toNat) ++ elemBytes 32 (r.eCout.map BitVec.toNat)
  b ++ List.replicate (r.length.toNat - b.length) 0

/-- Waiting capture records of which `due` holds go to the CAPTURE intake (R190). -/
def sendCaptures (s : State) (k : Fin 9) (c : Nat) (due : CaptureRec → Bool) : State :=
  let s := ((s.yctx k c).captures.filter fun r => !r.2 && due r.1).foldl (fun (s : State) r => s.intake k c 1 [] (captureBytes r.1)) s
  s.modYctx k c fun x => { x with captures := x.captures.map fun r => if due r.1 then (r.1, true) else r }

/-- The records of step S are dropped and counted where step S + 2 or a later one contributes (R190). -/
def dropCaptures (s : State) (k c : Nat) (st : Word) : State :=
  s.modYctx k c fun x =>
    let late (r : CaptureRec × Bool) : Bool := decide (r.1.step.toNat + 2 ≤ st.toNat)
    { x with captures := x.captures.filter fun r => !late r, dropped := satAdd x.dropped (x.captures.filter late).length }

/-- Units of a segment put on the wire in the open attempt (R179), the capture records of earlier steps before them (R190). -/
def yContribute (s : State) (k : Fin 9) (c : Nat) (seg : BitVec 12) (off : Nat) (data : Bytes) : State :=
  let r := s.yctx k c
  match r.openAtt with
  | none => s
  | some a =>
    if !r.valid || r.stopped || r.claimStop then s
    else
      let us := (unitsOf off data.length).map fun u => (seg, u)
      let s := (s.dropCaptures k c a.step).sendCaptures k c fun x => decide (x.step.toNat < a.step.toNat)
      let s := s.modYctx k c fun r => { r with inFlight := r.inFlight ++ us.filter fun u => !r.inFlight.contains u }
      s.send { dest := .azardOf k, op := .wrc, addr := 2 * 2 ^ 44 + c * 2 ^ 40 + seg.toNat * 2 ^ 28 + off, hdr := some a
               args := [r.azardNode.toNat, r.logical.toNat, r.claim.toNat], data := data }

/-- What Azard answered to units of a contribution (R179).  A reply under an earlier epoch, of the Yobel or of its context, is
dropped (R176, R194); one to units of another attempt than the open one counts for nothing (R196), but that NACK_CLAIM to the
claim still held stops the context. -/
def yAnswered (s : State) (k : Fin 9) (c : Nat) (seg : BitVec 12) (off : Nat) (data : Bytes) (r : YAns) : State :=
  let us := (unitsOf off data.length).map fun u => (seg, u)
  let drop (s : State) : State := s.modYctx k c fun r => { r with inFlight := r.inFlight.filter fun u => !us.contains u }
  let stop (s : State) : State :=
    s.modYctx k c fun x => if x.claim = r.claim then { x with claimStop := true } else x
  if r.epoch ≠ s.yEpochOf k (some c) then s
  else if (s.yctx k c).openAtt ≠ some r.hdr then (if r.result = .nackClaim then stop s else s)
  else match r.result with
  | .ok =>
    let s := (drop s).modYctx k c fun r => { r with done := (r.done ++ us).eraseDups }
    let n := yUnits (s.ySeg k c seg.toNat)
    let x := s.yctx k c
    if ((x.done.filter fun u => u.1 = seg).length = n) && !x.segsOk.contains seg then
      s.modYctx k c fun r => { r with segsOk := r.segsOk ++ [seg], segsDone := BitVec.ofNat 16 (r.segsOk.length + 1) }
    else s
  | .nackClaim => stop (drop s)
  | .nackBusy =>
    if r.cause = 9 || r.cause = 0x0A then (drop s).modYctx k c fun r => { r with stopped := true }
    else s.yContribute k c seg off data
  | .nackRetry => s.yContribute k c seg off data
  | _ => drop s

/-- A run of this Yobel still reads a step's results of a group (R180). -/
def yReads (s : State) (k c : Nat) (g : BitVec 5) (st : Word) : Bool :=
  let e := s.engine (68 + k)
  (e.running || e.finished) && e.ctx.val = c && e.stepNo = st &&
    (match e.copy with | .yobel _ t => (s.yslot k t.toNat).group = g | _ => false)

/-- A result WRC (R180): a newer step resets the window, unless a run still reads the older of the two buffers. -/
def yResult (s : State) (y : YReq) (seg : BitVec 12) (off : Nat) (data : Bytes) : State :=
  let k : Nat := y.port
  let c : Nat := y.ctx
  let r := s.ySeg k c seg.toNat
  let len := cfgElements r * resultBytes (cfgRfmt r)
  match y.ext with
  | none => s.yAnswer y .nackAccess
  | some x =>
    if !x.hasAttempt then s.yAnswer y .nackAccess
    else if !unitsOk off data.length len then s.yAnswer y .nackAddress
    else
      let fill (us : List Nat) (bs : Mem) : List Nat × Mem :=
        (unitsOf off data.length).foldl (fun (m : List Nat × Mem) u =>
          if m.1.contains u then m else (m.1 ++ [u], Mem.write m.2 (256 * u) ((data.drop (256 * u - off)).take 256))) (us, bs)
      if x.step = r.step then
        let m := fill r.units r.bytes
        (s.modYseg k c seg.toNat fun r => { r with units := m.1, bytes := m.2 }).yOk y
      else if r.step.toNat < x.step.toNat then
        if s.yReads k c (cfgGroup r) r.prevStep then s
        else
          let m := fill [] []
          (s.modYseg k c seg.toNat fun r => { r with
            prevStep := r.step, prevUnits := r.units, prevBytes := r.bytes, step := x.step, units := m.1, bytes := m.2 }).yOk y
      else if x.step = r.prevStep then
        let m := fill r.prevUnits r.prevBytes
        (s.modYseg k c seg.toNat fun r => { r with prevUnits := m.1, prevBytes := m.2 }).yOk y
      else s.yOk y

/-- The bytes delivered of a segment for a step, when every unit is in (R180). -/
def yDelivered (r : YResult) (st : Word) : Option Mem :=
  let n := (cfgElements r * resultBytes (cfgRfmt r) + 255) / 256
  if r.step = st && r.units.length = n then some r.bytes
  else if r.prevStep = st && r.prevUnits.length = n then some r.prevBytes
  else none

/-- The segments of a group in this Yobel's status table, in order. -/
def yGroup (s : State) (k c : Nat) (g : BitVec 5) : List (Nat × YResult) :=
  ((s.yobel k).results.filter fun x => x.1 / 4096 = c && cfgElements x.2 ≠ 0 && cfgGroup x.2 = g).map fun x => (x.1 % 4096, x.2)

/-! ## Slots and the step update (R182, R183) -/

/-- STATE of a Yobel slot as R182 codes it. -/
def ySlotNum : YSlotState → Nat
  | .free => 0
  | .defined => 1
  | .filling => 2
  | .live => 3
  | .fenced => 4

/-- First unconfirmed page of a slot's fill map. -/
def yFillNext (x : YSlot) (map : List Nat) : BitVec 32 := BitVec.ofNat 32 (firstOpen x.pages.toNat map)

/-- The words of a slot descriptor (R182). -/
def ySlotWords (x : YSlot) : List Word :=
  [Word.pack [(0, ySlotNum x.st), (8, x.ctx.toNat), (16, x.programId.toNat), (32, x.group.toNat)], x.claim, x.shardId,
   Word.pack [(0, x.length.toNat), (40, x.windowBase.toNat)],
   Word.pack [(0, x.segFirst.toNat), (16, x.segCount.toNat), (32, x.pages.toNat)], Word.pack [(0, x.version.toNat)], x.committed,
   x.releaseStep, x.key, x.fillClaim, Word.pack [(0, x.fillDone.toNat), (32, x.fillNext.toNat)],
   Word.pack [(0, x.holds.length), (8, x.lastFault.toNat)], 0, 0, 0, 0]

/-- CLAIM of a slot raised; above FILL_CLAIM it clears the fill map (R182, R188). -/
def yRaise (x : YSlot) (v : Word) : YSlot :=
  if v.toNat < x.claim.toNat then x
  else
    let x := { x with claim := v }
    if x.fillClaim.toNat < v.toNat then { x with fillClaim := v, map := [], fillDone := 0, fillNext := 0 } else x

/-- STATE of a slot written (R182, R185). -/
def ySetState (s : State) (k sl : Nat) (w : Word) : State :=
  let set (st : YSlotState) (s : State) : State := s.modYslot k sl fun x => { x with
    st := st, ctx := w.extractLsb' 8 4, programId := w.extractLsb' 16 16, group := w.extractLsb' 32 5
    fresh := if st = .live && x.st ≠ .live then true else x.fresh
    released := if st = .live && x.st ≠ .live then [] else x.released }
  match (w.extractLsb' 0 3).toNat with
  | 0 => (s.yStop k sl).modYslot k sl fun _ => {}
  | 1 => set .defined s
  | 2 => set .filling s
  | 3 => set .live s
  | 4 => (set .fenced (s.yStop k sl)).modYslot k sl fun x => { x with holds := [] }
  | _ => s

/-- One word of a slot descriptor written by Azard (R182); words that Yobel writes keep their values. -/
def ySlotWord (s : State) (k sl w : Nat) (v : Word) : State :=
  match w with
  | 0 => s.ySetState k sl v
  | 1 => s.modYslot k sl fun x => yRaise x v
  | 2 => s.modYslot k sl fun x => { x with shardId := v }
  | 3 => s.modYslot k sl fun x => { x with length := v.extractLsb' 0 40, windowBase := v.extractLsb' 40 19 }
  | 4 => s.modYslot k sl fun x => { x with segFirst := v.extractLsb' 0 12, segCount := v.extractLsb' 16 12, pages := v.extractLsb' 32 32 }
  | 7 => s.modYslot k sl fun x => { x with releaseStep := v, released := x.released.filter (fun r => r.1 ≠ v) ++ [(v, x.key)] }
  | 8 => s.modYslot k sl fun x => { x with key := v }
  | _ => s

/-- The image a slot runs, marked READY (R171); none while there is none. -/
def ySlotImage (s : State) (k : Nat) (x : YSlot) : Option YImage :=
  ((s.yobel k).images.find? fun i => i.1 / 256 = x.ctx.toNat && i.2.programId = x.programId && i.2.st = 2).map Prod.snd

/-- The released step that is next for a slot, with its key: the one after COMMITTED, or, the slot having just gone LIVE, the
lowest (R183). -/
def yNextStep (x : YSlot) : Option (Word × Word) :=
  if x.fresh then (sortBy (fun (a b : Word × Word) => decide (a.1.toNat ≤ b.1.toNat)) x.released).head?
  else x.released.find? fun r => r.1 = x.committed + 1

/-- The step that a slot may take now: it is LIVE, the step is released and next, its image is READY and every segment of its
group is delivered for the step (R171, R183). -/
def yEligible (s : State) (k : Nat) (x : YSlot) : Option (Word × Word) :=
  (yNextStep x).bind fun r =>
    if x.st = .live && (s.ySlotImage k x).isSome &&
        (s.yGroup k x.ctx.toNat x.group).all fun g => (yDelivered g.2 r.1).isSome then some r
    else none

/-- A run of a slot's released step begins on this Yobel's engine, with its key (R170, R183). -/
def yStart (s : State) (k : Fin 9) (sl : Nat) (st key : Word) : State :=
  let x := s.yslot k sl
  let c := x.ctx.toNat
  let img := (s.ySlotImage k x).getD {}
  let segs := s.yGroup k c x.group
  let size (r : YResult) := cfgElements r * resultBytes (cfgRfmt r)
  let grad := segs.foldl (fun (m : Mem × Nat) g =>
    let b : Mem := (yDelivered g.2 st).getD []
    (Mem.write m.1 m.2 (b.read 0 (size g.2)), m.2 + size g.2)) ([], 0)
  let off := ((segs.filter fun g => decide (g.1 < x.segFirst.toNat)).map fun g => size g.2).sum
  let mine (g : Nat × YResult) : Bool := decide (x.segFirst.toNat ≤ g.1) && decide (g.1 < x.segFirst.toNat + x.segCount.toNat)
  let elems := ((segs.filter mine).map fun g => cfgElements g.2).sum
  let hyper : Mem := Map.get [] (s.yobel k).hyper (c * 4096 + sl)
  s.setEngine (68 + k) (Engine.start (.yobel k (BitVec.ofNat 12 sl)) (ctxFin c) img.bytes st key (s.shardMem k x) x.length.toNat
    grad.1 grad.2 off elems hyper)

/-- A finished run becomes the slot's new version; every page is digested and reported (R171, R183). -/
def yFinish (s : State) (k : Fin 9) (sl : Nat) (e : Engine) : State :=
  let x := s.yslot k sl
  let s := (s.setEngine (68 + k) {}).setShardMem k x e.state
  let s := s.modYslot k sl fun x => { x with
    version := x.version + 1, committed := e.stepNo, fresh := false
    released := x.released.filter fun r => decide (e.stepNo.toNat < r.1.toNat)
    lastFault := match e.faulted with | some f => f.2.1 | none => x.lastFault }
  let x := s.yslot k sl
  (List.range x.pages.toNat).foldl (fun (s : State) p => s.sendDigest k x.ctx.toNat x p x.version false (s.yDigest k x p x.version)) s

/-! ## The claim gate and install records (R186–R188) -/

/-- A state-port request or an install record under the claim gate (R174, R187). -/
def claimGate (s : State) (y : YReq) (x : YSlot) (go : State → State) : State :=
  match claimOf y.ext with
  | none => s.yAnswer y .nackAccess
  | some c => if x.st = .fenced || c ≠ x.claim then s.yAnswer y .nackClaim else go s

/-- A slot that holds a shard. -/
def slotHeld (x : YSlot) : Bool := x.st ≠ .free

/-- An OP that R186 refuses. -/
def opRefused (o : BitVec 4) : Bool := o = 0 || decide (4 < o.toNat)

/-- An install record written to the install window (R173, R186, R187): the operation and OP are judged, then the claim gate; a
slot that holds no shard accepts none.  A read of the window gives bytes that the spec leaves open (log entry 97). -/
def install (s : State) (y : YReq) (r : InstallRec) (go : State → YSlot → State) : State :=
  s.yAdmit y fun s =>
    match y.other with
    | none | some .wr =>
      if r.op.any opRefused || (s.yobel y.port).slotsN.toNat ≤ r.slot.toNat then s.yAnswer y .nackAccess
      else
        let x := s.yslot y.port r.slot.toNat
        s.claimGate y x fun s => if !slotHeld x then s.yAnswer y .nackAccess else go s x
    | some .rd => let (s, d) := s.openValue 512; s.yAnswer y .ok 0 (natLe 64 d.toNat)
    | _ => s.yAnswer y .nackAccess

/-- A state-port range: the slot whose shard holds it (R173). -/
def portSlot (s : State) (k c off len : Nat) : Option (Nat × YSlot) :=
  (s.yobel k).slots.find? fun x => x.2.ctx.toNat = c && slotHeld x.2 && decide (x.2.windowBase.toNat * 2097152 ≤ off) &&
    decide (off + len ≤ x.2.windowBase.toNat * 2097152 + x.2.length.toNat)

/-- A state-port request judged (R173, R182, R187). -/
def statePort (s : State) (y : YReq) (off len : Nat) (go : State → YSlot → Nat → State) : State :=
  s.yAdmit y fun s =>
    match s.portSlot y.port y.ctx off len with
    | none => s.yAnswer y .nackAddress
    | some (_, x) => s.claimGate y x fun s =>
      if !(s.yobel y.port).boundShards.contains x.shardId then s.yAnswer y .nackBusy 0x13
      else go s x (off - x.windowBase.toNat * 2097152)

/-- The version a page of a slot stands at: VERSION, or beyond it where an install brought the page there. -/
def yPageVersion (x : YSlot) (p : Nat) : BitVec 32 := Map.get x.version x.ahead p

/-- An install brought page p to version v; VERSION follows once every page has reached a later one (R182). -/
def yReach (x : YSlot) (p : Nat) (v : BitVec 32) : YSlot :=
  let m := Map.set x.version x.ahead p v
  let vs := (List.range x.pages.toNat).map fun q => (Map.get x.version m q).toNat
  let low := vs.foldl min (vs.headD x.version.toNat)
  if low ≤ x.version.toNat then { x with ahead := m }
  else { x with version := BitVec.ofNat 32 low, ahead := m.filter fun q => decide (low < q.2.toNat) }

/-- A page confirmed in a slot's fill map (R187). -/
def yConfirm (s : State) (k sl p : Nat) (v : BitVec 32) : State :=
  s.modYslot k sl fun x =>
    let m := if x.map.contains p then x.map else x.map ++ [p]
    yReach { x with map := m, fillDone := BitVec.ofNat 32 m.length, fillNext := yFillNext x m } p v

/-! ## Tile capture (R189, R190) -/

/-- The first `need` distinct candidates among successive words modulo W (R189). -/
def positions (need w : Nat) : List Nat → List Nat → List Nat
  | [], got => got
  | x :: r, got =>
    if need ≤ got.length then got
    else if got.contains (x % w) then positions need w r got else positions need w r (got ++ [x % w])

/-- The output of R189 is read further while `tiles` distinct positions are not held; `fuel` bounds how often the stretch read
doubles. -/
def positionsFrom (input : Bytes) (tiles w : Nat) : Nat → Nat → List Nat
  | 0, n =>
    let bytes := shake256 input (4 * n)
    positions tiles w ((List.range n).map fun i => Bytes.le bytes (4 * i) 4) []
  | fuel + 1, n =>
    let bytes := shake256 input (4 * n)
    let ps := positions tiles w ((List.range n).map fun i => Bytes.le bytes (4 * i) 4) []
    if ps.length < tiles then positionsFrom input tiles w fuel (2 * n) else ps

/-- The capture positions of a unit for a step (R189). -/
def capturePositions (key : Digest) (st : Word) (unit : BitVec 16) (tiles log2 : Nat) : List Nat :=
  positionsFrom ([0x41, 0x5A, 0x54, 0x43] ++ digestBytes key ++ natLe 8 st.toNat ++ natLe 2 unit.toNat) tiles (2 ^ log2) 32 (8 * tiles)

/-- The sum of each column of an m × n array, exact and rounded once by roundTiesToEven to FP32 (R79, R190). -/
def columnSums (code m n : Nat) (xs : List Nat) : List (BitVec 32) :=
  (List.range n).map fun j =>
    let a := (List.range m).foldl (fun (a : Acc) i => a.add (decodeF code (xs.getD (i * n + j) 0))) {}
    BitVec.ofNat 32 (a.round 0 false).1

/-- The capture record of a tile operation (R190). -/
def captureOf (st : Word) (position : Nat) (time : Word) (o : TileOp) : CaptureRec :=
  let (m, k, n) := (o.m.toNat, o.k.toNat, o.n.toNat)
  let length := (64 + 4 * k + k * n * (fmtWidth o.abfmt.toNat / 8) + 8 * n + 63) / 64 * 64
  { step := st, unit := o.unit, m := o.m, k := o.k, n := o.n, position := BitVec.ofNat 32 position, abfmt := o.abfmt
    length := BitVec.ofNat 32 length, time := time, bytes := length
    eA := columnSums o.abfmt.toNat m k (o.a.map BitVec.toNat)
    b := (List.range (k * n)).map fun i => o.b.getD i 0
    eCin := columnSums 0 m n (o.cin.map BitVec.toNat), eCout := columnSums 0 m n (o.cout.map BitVec.toNat) }

/-! ## Test windows, time and the probe (R191–R193) -/

/-- Yobel's device time: its Azard's corrected time with the copy's offset (R193). -/
def yNow (s : State) (k : Nat) : Word := s.now + ((s.yobel k).timeOff.sshiftRight 16)

/-- An exchange has completed within the last 10 ms (R193). -/
def yTimeGood (s : State) (k : Nat) : Bool := (s.yobel k).timeValid && !s.outside (s.yobel k).syncAt 10000000

/-- A TEST_REPORT record sent by Yobel (R192), to the intake of its first joined context (R184). -/
def yReport (s : State) (k : Fin 9) (seq : BitVec 16) (res : Nat) (unit : BitVec 16) (start stop : Word) : State :=
  s.intake k (((List.range 16).find? fun c => (s.yctx k c).st = .joined).getD 0) 2 []
    (natLe 2 seq.toNat ++ natLe 2 res ++ natLe 4 unit.toNat ++ natLe 8 start.toNat ++ natLe 8 stop.toNat ++ List.replicate 40 0)

/-- YBL_TEST_CMD written (R192): a new SEQ acts; a grant whose END is past, or one while no exchange completes, is refused. -/
def yTestCmd (s : State) (k : Fin 9) (seq : BitVec 16) (set : BitVec 32) : State :=
  let old := (s.yobel k).testActed
  let s := s.modYobel k fun v => { v with testSeq := seq, testSet := set, testActed := seq }
  if seq = old then s
  else if !s.yTimeGood k || (s.yobel k).testEnd.toNat ≤ (s.yNow k).toNat then s.yReport k seq 4 0 0 0
  else s.modYobel k fun v => { v with granted := true, testing := false }

/-- RESULT, start and end time that Yobel reports of a grant (R192): a test that ran and lay within [START, END) with what it
found; else INCOMPLETE, with the times that a test under way kept to, and zeros where none ran. -/
def yTestOutcome (v : Yobel) (result : BitVec 8) (start stop : Word) : Nat × Word × Word :=
  let inside := decide (v.testStart.toNat ≤ start.toNat) && decide (start.toNat ≤ stop.toNat) && decide (stop.toNat < v.testEnd.toNat)
  let clip (t : Word) : Word := BitVec.ofNat 64 (clampNat v.testStart.toNat (v.testEnd.toNat - 1) t.toNat)
  if !v.testing then (3, 0, 0)
  else if inside && (result = 1 || result = 2) then (result.toNat, start, stop)
  else (3, clip start, clip stop)

/-- The probe's run as R191 sets it up from a probe area: image at byte 0, hyper block, gradients and state. -/
def probeStart (k : Fin 9) (area : Mem) : Engine :=
  let part (o n : Nat) : Mem := Mem.write [] 0 (area.read o n)
  Engine.start (.yobel k 0) 0 (part 0 (parseProg (part 0 0x100)).length) 1 0 (part 0x300000 2097152) 2097152 (part 0x200000 1048576)
    1048576 0 262144 (part 0x100000 65536)

/-- Fault code and digest of a probe's run (R191). -/
def probeOutcome (e : Engine) : BitVec 4 × Digest :=
  (e.faulted.elim 0 fun f => f.2.1, pageDigest 0 0 1 (Mem.read e.state 0 2097152))

/-- The probe in progress goes on for `fuel` instructions; its end sets status and digest (R191). -/
def probeGo (s : State) (k fuel : Nat) : State :=
  match (s.yobel k).probeRun with
  | none => s
  | some e =>
    let e := Engine.run fuel e
    let (f, d) := probeOutcome e
    s.modYobel k fun v =>
      if e.finished then { v with probeRun := none, probeStatus := if e.faulted.isSome then 3 else 2, probeFault := f, probeDigest := d }
      else { v with probeRun := some e }

/-- YBL_PROBE_CMD written (R191): a new SEQ starts the probe. -/
def yProbeCmd (s : State) (k : Fin 9) (seq : BitVec 16) : State :=
  if (s.yobel k).probeSeq = seq then s
  else s.modYobel k fun v => { v with probeSeq := seq, probeStatus := 1, probeFault := 0, probeRun := some (probeStart k v.probeArea) }

/-- A write at offset `a` of the Yobel control space; a read-only register keeps its value. -/
def yWrite (s : State) (k : Fin 9) (a : Nat) (w : Word) : State :=
  if 0x100 ≤ a && a < 0x500 then s.yCtxWrite k ((a - 0x100) / 0x40) ((a - 0x100) % 0x40) w
  else match a with
    | 0x0600 => s.modYobel k fun v => { v with testStart := w }
    | 0x0608 => s.modYobel k fun v => { v with testEnd := w }
    | 0x0610 => s.yTestCmd k (w.extractLsb' 0 16) (w.extractLsb' 16 32)
    | 0x0700 => s.yProbeCmd k (w.extractLsb' 0 16)
    | _ => s

/-- A register of the control space addressed at offset `a` (R173, R177); an offset that names none answers NACK_ADDRESS. -/
def yControl (s : State) (y : YReq) (a : Nat) (v : Word) : State :=
  if (s.yWord y.port a).isNone then s.yAdmit y fun s => s.yAnswer y .nackAddress
  else s.yRegister y (fun s => (s.yWord y.port a).getD 0) fun s => s.yWrite y.port a v

end State

/-! ## The commands: registers -/

/-- YOBEL_RESTART (R176). -/
def execYobelRestart (k : Fin 9) (s : State) : Host.Outcome State Fault Refusal :=
  .next ((s.begin.setEngine (68 + k) {}).modYobel k fun y => {
    revision := y.revision, osfel := y.osfel, slotsN := y.slotsN, engines := y.engines, units := y.units, capture := y.capture
    epoch := y.epoch + 1, boundShards := y.boundShards, memory := y.memory, link := y.link, captureKey := y.captureKey })

/-- A register at an offset of a context's block addressed (R177). -/
def State.yBlock (s : State) (y : YReq) (c : Fin 16) (o : Nat) (v : Word) : State :=
  if o < 0x40 then s.yControl y (0x100 + 0x40 * c.val + o) v else s.yAdmit y fun s => s.yAnswer y .nackAddress

/-- YOBEL_TAG_WRITE (R177): YBL_CTX_STEP at 0x10, YBL_CTX_ATTEMPT at 0x18, YBL_CTX_TAG at 0x20 of the context's block. -/
def execYobelTagWrite (y : YReq) (c : Fin 16) (reg : Nat) (v : Word) (s : State) : Host.Outcome State Fault Refusal :=
  .next (s.yBlock y c reg v)

/-- YOBEL_CLAIM_WRITE (R177). -/
def execYobelClaimWrite (y : YReq) (c : Fin 16) (v : Word) (s : State) : Host.Outcome State Fault Refusal :=
  .next (s.yBlock y c 0x08 v)

/-- REMOVE (R194): a write of YBL_CTX_CMD. -/
def execYobelRemove (y : YReq) (c : Fin 16) (cmd : BitVec 2) (seq : BitVec 16) (s : State) : Host.Outcome State Fault Refusal :=
  .next (s.yBlock y c 0x28 (Word.pack [(0, cmd.toNat), (16, seq.toNat)]))

/-- YBL_CTX_NODE_WRITE (R177): YBL_CTX_NODE at 0x00, YBL_CTX_CAPTURE at 0x38, and every other register of the control space. -/
def execYblCtxNodeWrite (y : YReq) (c : Fin 16) (reg : YAt) (v : Word) (s : State) : Host.Outcome State Fault Refusal :=
  .next (match reg with
    | .block o => s.yBlock y c o v
    | .space o => s.yControl y o v)

/-- ACCELERATOR_SHARD_BIND (R182): the accelerator binds a shard to its memory. -/
def execAcceleratorShardBind (k : Fin 9) (shard : Word) (s : State) : Host.Outcome State Fault Refusal :=
  .next (s.begin.modYobel k fun y => { y with boundShards := (y.boundShards ++ [shard]).eraseDups })

/-! ## The commands: contributions and results -/

/-- YOBEL_CONTRIBUTE (R179): units of a final gradient sent in the open attempt, or, with `ans`, what came back for them. -/
def execYobelContribute (k : Fin 9) (c : Fin 16) (seg : BitVec 12) (off : Nat) (data : Bytes)
    (ans : Option YAns) (s : State) : Host.Outcome State Fault Refusal :=
  let s := s.begin
  .next (match ans with
    | none => s.yContribute k c seg off data
    | some r => s.yAnswered k c seg off data r)

/-- YOBEL_RESULT_WRC (R180). -/
def execYobelResultWrc (y : YReq) (op : OpCode) (seg : BitVec 12) (off : Nat) (data : Bytes) (s : State) :
    Host.Outcome State Fault Refusal :=
  .next (s.yAdmit y fun s => if op ≠ .wrc || seg = 0xFFF then s.yAnswer y .nackAccess else s.yResult y seg off data)

/-- YOBEL_STATUS_WR (R180): whole words of one 16-byte entry. -/
def execYobelStatusWr (y : YReq) (op : OpCode) (off len : Nat) (data : Bytes) (s : State) : Host.Outcome State Fault Refusal :=
  .next (s.yAdmit y fun s =>
    let k : Nat := y.port
    let n := match op with | .wr => data.length | _ => len
    match op with
    | .wr | .rd =>
      if off % 8 ≠ 0 || n % 8 ≠ 0 || n = 0 || 16 < off % 16 + n || 65520 ≤ off then s.yAnswer y .nackAddress
      else
        let r := s.ySeg k y.ctx (off / 16)
        if op = .rd then s.yAnswer y .ok 0 (((natLe 8 r.config.toNat ++ natLe 8 r.status.toNat).drop (off % 16)).take n)
        else
          let ws := (bytesWords data).zipIdx.map fun x => (off % 16 / 8 + x.2, x.1)
          (ws.foldl (fun (s : State) w => s.modYseg k y.ctx (off / 16) fun r =>
            if w.1 = 0 then { r with config := w.2 } else { r with status := w.2 }) s).yOk y
    | _ => s.yAnswer y .nackAccess)

/-! ## The commands: program copies -/

/-- YOBEL_DIRECTORY_WR (R181): an entry written is LOADING, its image not yet received. -/
def execYobelDirectoryWr (y : YReq) (op : OpCode) (off len : Nat) (data : Bytes) (s : State) :
    Host.Outcome State Fault Refusal :=
  .next (s.yAdmit y fun s =>
    let k : Nat := y.port
    let id := y.ctx.val * 256 + off / 64
    let i : YImage := Map.get {} (s.yobel k).images id
    let bytes := natLe 4 i.length.toNat ++ natLe 2 i.programId.toNat ++ natLe 1 i.st.toNat ++ List.replicate 25 0 ++ digestBytes i.digest
    match op with
    | .rd =>
      if 256 ≤ off / 64 || 64 < off % 64 + len then s.yAnswer y .nackAddress
      else s.yAnswer y .ok 0 ((bytes.drop (off % 64)).take len)
    | .wr =>
      if 256 ≤ off / 64 || 64 < off % 64 + data.length then s.yAnswer y .nackAddress
      else
        let b := bytes.take (off % 64) ++ data ++ bytes.drop (off % 64 + data.length)
        let i : YImage := { length := BitVec.ofNat 32 (Bytes.le b 0 4), programId := BitVec.ofNat 16 (Bytes.le b 4 2), st := 1,
                            digest := BitVec.ofNat 256 (Bytes.le b 0x20 32) }
        (s.modYobel k fun v => { v with images := Map.set {} v.images id i }).yOk y
    | _ => s.yAnswer y .nackAccess)

/-- YOBEL_IMAGE_WRC (R181): image windows (area 0), hyper copies (area 1) and the probe area (area 0xF).  A full image is
checked; a BAD one makes Azard record YBL-010 and send it again. -/
def execYobelImageWrc (y : YReq) (op : OpCode) (area : BitVec 8) (off : Nat) (data : Bytes) (s : State) :
    Host.Outcome State Fault Refusal :=
  .next (s.yAdmit y fun s =>
    let k : Nat := y.port
    let c : Nat := y.ctx
    if op ≠ .wrc then s.yAnswer y .nackAccess
    else match area.toNat with
      | 0 =>
        let id := c * 256 + off / 1048576
        let o := off % 1048576
        let i : YImage := Map.get {} (s.yobel k).images id
        if 256 ≤ off / 1048576 || i.st ≠ 1 || !unitsOk o data.length i.length.toNat then s.yAnswer y .nackAddress
        else
          let new := (unitsOf o data.length).filter fun u => !i.units.contains u
          let b : Mem := new.foldl (fun m u => Mem.write m (256 * u) ((data.drop (256 * u - o)).take 256)) i.bytes
          let us := i.units ++ new
          let full := us.length = (i.length.toNat + 255) / 256
          let good : Bool := hash256 (b.read 0 i.length.toNat) = i.digest
          let st : BitVec 8 := if !full then 1 else if good then 2 else 3
          let s := s.modYobel k fun v => { v with images := Map.set {} v.images id { i with bytes := b, units := us, st := st } }
          let s := if st = 3 then
              let s := s.event 9 10 (evSource 1 k)
              (s.entriesOf c).foldl (fun (s : State) e =>
                if !e.2.role && e.2.program = i.programId && (s.slotOf c e.1).any (fun x => x.1 = k) then s.sendProgram c e.1 else s) s
            else s
          s.yOk y
      | 1 =>
        let sl := off / 1048576
        let o := off % 1048576
        if 4096 ≤ sl || 1048576 < o + data.length then s.yAnswer y .nackAddress
        else (s.modYobel k fun v => { v with hyper := Map.mod [] v.hyper (c * 4096 + sl) fun m => Mem.write m o data }).yOk y
      | 15 => (s.modYobel k fun v => { v with probeArea := Mem.write v.probeArea off data }).yOk y
      | _ => s.yAnswer y .nackAddress)

/-! ## The commands: slots and updates -/

/-- YOBEL_SLOT_WR (R182): whole words of one descriptor; STATE 5–7 is refused. -/
def execYobelSlotWr (y : YReq) (op : OpCode) (slot : BitVec 12) (off len : Nat) (data : Bytes) (s : State) :
    Host.Outcome State Fault Refusal :=
  .next (s.yAdmit y fun s =>
    let k : Nat := y.port
    let n := match op with | .wr => data.length | _ => len
    if (s.yobel k).slotsN.toNat ≤ slot.toNat || off % 8 ≠ 0 || n % 8 ≠ 0 || 128 < off + n then s.yAnswer y .nackAddress
    else match op with
      | .rd =>
        s.yAnswer y .ok 0 ((((State.ySlotWords (s.yslot k slot.toNat)).flatMap fun w => natLe 8 w.toNat).drop off).take n)
      | .wr =>
        let ws := (bytesWords data).zipIdx.map fun x => (off / 8 + x.2, x.1)
        if ws.any fun w => w.1 = 0 && 4 < (w.2.extractLsb' 0 3).toNat then s.yAnswer y .nackAccess
        else (ws.foldl (fun (s : State) w => s.ySlotWord k slot.toNat w.1 w.2) s).yOk y
      | _ => s.yAnswer y .nackAccess)

/-- RELEASE_STEP_WRITE (R182, R183); a slot beyond SLOTS has no descriptor. -/
def execReleaseStepWrite (y : YReq) (slot : BitVec 12) (step : Word) (s : State) : Host.Outcome State Fault Refusal :=
  .next (if (s.yobel y.port).slotsN.toNat ≤ slot.toNat then s.yAdmit y fun s => s.yAnswer y .nackAddress
    else s.yRegister y (fun s => (s.yslot y.port slot.toNat).releaseStep) fun s => s.ySlotWord y.port slot.toNat 7 step)

/-- YOBEL_STEP_UPDATE (R183): the run of an eligible slot starts; `fuel` of its instructions are executed in order here, and a run
that has ended is completed. While a page is held, instances that do not touch it run to their ends, those that do are discarded
and wait, and the versions do not rise (R187). -/
def execYobelStepUpdate (k : Fin 9) (slot : BitVec 12) (fuel : Nat) (s : State) : Host.Outcome State Fault Refusal :=
  let s := s.begin
  let sl := slot.toNat
  let busy := (s.engine (68 + k)).running || (s.engine (68 + k)).finished
  let s := if busy then s else (s.yEligible k (s.yslot k sl)).elim s fun r => s.yStart k sl r.1 r.2
  .next (match s.yRun k sl with
    | none => s
    | some e =>
      let held := (s.yslot k sl).holds.any fun h => h.2 = (s.yslot k sl).version
      let e := Engine.runHeld (s.yobelHolds k sl) fuel e
      if e.finished && !held then s.yFinish k sl e else s.setEngine (68 + k) e)

/-! ## The commands: installs and the state port -/

/-- HOLD (R187). -/
def execYobelHold (y : YReq) (r : InstallRec) (s : State) : Host.Outcome State Fault Refusal :=
  .next (s.install y r fun s x =>
    let k : Nat := y.port
    let p := r.page.toNat
    let touched := (s.yRun k r.slot.toNat).any fun e => e.dirty.contains p || e.pages.contains p
    if State.yPageVersion x p ≠ r.version || touched then s.yAnswer y .nackBusy 0x14
    else if x.holds.any fun h => h.1 = p then
      (s.modYslot k r.slot.toNat fun x => { x with holds := x.holds.map fun h => if h.1 = p then (p, r.version) else h }).yOk y
    else if 16 ≤ x.holds.length then s.yAnswer y .nackBusy 0x15
    else (s.modYslot k r.slot.toNat fun x => { x with holds := x.holds ++ [(p, r.version)] }).yOk y)

/-- INSTALL_FILL (R187): only in a FILLING slot. -/
def execInstallFill (y : YReq) (r : InstallRec) (s : State) : Host.Outcome State Fault Refusal :=
  .next (s.install y r fun s x =>
    let k : Nat := y.port
    if x.st ≠ .filling then s.yAnswer y .nackAccess
    else
      let p := r.page.toNat
      let d := s.yDigest k x p r.version
      let s := s.sendDigest y.port x.ctx.toNat x p r.version true d
      (if d = r.digest then s.yConfirm k r.slot.toNat p r.version else s).yOk y)

/-- INSTALL_REPAIR (R187): the hold ends when the page digests to the source's digest. -/
def execInstallRepair (y : YReq) (r : InstallRec) (s : State) : Host.Outcome State Fault Refusal :=
  .next (s.install y r fun s x =>
    let k : Nat := y.port
    let p := r.page.toNat
    let d := s.yDigest k x p r.version
    let s := s.sendDigest y.port x.ctx.toNat x p r.version true d
    (if d = r.digest then s.modYslot k r.slot.toNat fun x => State.yReach { x with holds := x.holds.filter fun h => h.1 ≠ p } p r.version
     else s).yOk y)

/-- INSTALL_RELEASE (R187): install record RELEASE ends the hold. -/
def execInstallRelease (y : YReq) (r : InstallRec) (s : State) : Host.Outcome State Fault Refusal :=
  .next (s.install y r fun s _ =>
    (s.modYslot y.port r.slot.toNat fun x => { x with holds := x.holds.filter fun h => h.1 ≠ r.page.toNat }).yOk y)

/-- A read of the state port (R187). -/
def State.portRead (s : State) (y : YReq) (off len : Nat) : State :=
  s.statePort y off len fun s x b => s.yAnswer y .ok 0 ((s.shardMem y.port x).read b len)

/-- A write through the state port (R187): a run in progress on the shard sees it. -/
def State.portWrite (s : State) (y : YReq) (off : Nat) (data : Bytes) : State :=
  s.statePort y off data.length fun s x b =>
    let s := s.setShardMem y.port x (Mem.write (s.shardMem y.port x) b data)
    let s := match (s.yobel y.port).slots.find? fun z => z.2.shardId = x.shardId with
      | some (sl, _) => match s.yRun y.port sl with
        | some _ => s.modEngine (68 + y.port.val) fun g => { g with
            state := Mem.write g.state b data
            stale := g.stale || g.pages.any fun p => decide (b / 2097152 ≤ p) && decide (p * 2097152 < b + data.length) }
        | none => s
      | none => s
    s.yOk y

/-- STATE_PORT_RD (R173, R187): a request there that is neither RD nor WR answers NACK_ACCESS. -/
def execStatePortRd (y : YReq) (off len : Nat) (s : State) : Host.Outcome State Fault Refusal :=
  .next (match y.other with
    | none | some .rd => s.portRead y off len
    | _ => s.yAdmit y fun s => s.yAnswer y .nackAccess)

/-- STATE_PORT_WR (R173, R187). -/
def execStatePortWr (y : YReq) (op : OpCode) (off : Nat) (data : Bytes) (s : State) : Host.Outcome State Fault Refusal :=
  .next (match op with
    | .wr => s.portWrite y off data
    | .rd => s.portRead y off data.length
    | _ => s.yAdmit y fun s => s.yAnswer y .nackAccess)

/-! ## The commands: tile capture -/

/-- TILE_CAPTURE (R189, R190): a unit's next tile operation; it is captured when its number is a capture position. -/
def execTileCapture (k : Fin 9) (c : Fin 16) (o : TileOp) (s : State) : Host.Outcome State Fault Refusal :=
  let s := s.begin
  let r := s.yctx k c
  let u := o.unit.toNat
  let n := Map.get 0 r.tileNext u
  let hit := (State.capturePositions (s.yobel k).captureKey r.tileStep o.unit r.tiles.toNat r.windowLog2.toNat).contains n
  let now := s.yNow k
  .next (if r.openAtt.isNone then s
    else s.modYctx k c fun r => { r with
      tileNext := Map.set 0 r.tileNext u (n + 1)
      captures := if hit then r.captures ++ [(State.captureOf r.tileStep n now o, false)] else r.captures })

/-- CAPTURE_SEND (R190): the oldest record not yet sent goes to the CAPTURE intake; with `ans`, what came back for one: accepted,
it is dropped here, and else it is sent again.  Replies under an earlier epoch are dropped (R176, R194). -/
def execCaptureSend (k : Fin 9) (c : Fin 16) (ans : Option CaptureAns) (s : State) : Host.Outcome State Fault Refusal :=
  let s := s.begin
  .next (match ans with
    | none => match (s.yctx k c).captures.find? fun r => !r.2 with
      | none => s
      | some r => s.sendCaptures k c fun x => x = r.1
    | some a =>
      let it (r : CaptureRec × Bool) : Bool := r.1.step = a.step && r.1.unit = a.unit && r.1.position = a.position
      if a.epoch ≠ s.yEpochOf k (some c) then s
      else if a.result = .ok then s.modYctx k c fun x => { x with captures := x.captures.filter fun r => !it r }
      else s.modYctx k c fun x => { x with captures := x.captures.map fun r => if it r then (r.1, false) else r })

/-- CAPTURE_RECORD_DROP (R190): with the first unit of step S + 2, the records of step S are dropped and counted. -/
def execCaptureRecordDrop (k : Fin 9) (c : Fin 16) (s : State) : Host.Outcome State Fault Refusal :=
  let s := s.begin
  .next ((s.yctx k c).openAtt.elim s fun a => s.dropCaptures k c a.step)

/-! ## The commands: probe and test windows -/

/-- YOBEL_PROBE_CMD (R191): a new SEQ starts the probe; `fuel` instructions of it run in this command, and a write of the same SEQ
goes on with them. -/
def execYobelProbeCmd (y : YReq) (seq : BitVec 16) (fuel : Nat) (s : State) : Host.Outcome State Fault Refusal :=
  .next (s.yRegister y (fun s => (s.yWord y.port 0x700).getD 0) fun s => (s.yProbeCmd y.port seq).probeGo y.port fuel)

/-- YOBEL_TEST_GRANT (R192): YBL_TEST_START, YBL_TEST_END and YBL_TEST_CMD written, or, by RD, YBL_TEST_CMD read. -/
def execYobelTestGrant (y : YReq) (start stop : Word) (seq : BitVec 16) (set : BitVec 32) (s : State) :
    Host.Outcome State Fault Refusal :=
  .next (s.yRegister y (fun s => (s.yWord y.port 0x610).getD 0) fun s =>
    ((s.yWrite y.port 0x600 start).yWrite y.port 0x608 stop).yTestCmd y.port seq set)

/-- YOBEL_TEST_END (R192): Yobel has stopped before END and reports. -/
def execYobelTestEnd (k : Fin 9) (result : BitVec 8) (failUnit : BitVec 16) (start stop : Word) (s : State) :
    Host.Outcome State Fault Refusal :=
  let s := s.begin
  let v := s.yobel k
  let (res, a, b) := State.yTestOutcome v result start stop
  .next (if !v.granted then s
    else (s.modYobel k fun v => { v with granted := false, testing := false }).yReport k v.testActed res failUnit a b)

end Sys2Proof.Machine
end

