-- ==== Sys2Proof/Machine/Test.lean ====
section
/-!
DEFINITION. Sys2Proof/Machine/Test.lean: Yobel's reports (07 R184, R185, R190–R192) and silent-error detection and in-field test
(10): captures, suspects and drains, pattern packs, hearth tests, accelerator test windows, signatures.
-/

namespace Sys2Proof.Machine

namespace State

/-! ## Intake windows (R184) -/

/-- An intake request is taken only as a WRC of whole records from the tray port of a node bound in the context, or from the spare
port (R184); `k` gets the tray port, for one record after the other.  The spare port's SOURCE is no bound node, so R338 is not
asked of it (log entry 23). -/
def intakeFrom {α : Type} (s : State) (rq : Req) (op : OpCode) (xs : Recs α) (k : State → Nat → α → State) : State :=
  match rq.path with
  | .port p =>
    let spare := decide (p.val = s.kin.img.sparePort.toNat)
    s.begin.admitWith (!spare) rq false fun s =>
      if op = .wrc && decide (p.val < 9) && rq.ctxv &&
          (spare || (s.ctx rq.ctx).bind.bound.any fun b => b.2.toNat = p.val) then
        -- a fenced device gets NACK_CLAIM for everything it sends for the context (R224)
        if s.deviceFenced rq.ctx p then s.nackClaim rq
        else if xs.rest ≠ 0 then s.nackAddress rq
        else (xs.recs.foldl (fun (s : State) r => k s p.val r) s).ok rq
      else s.nackAccess rq
  | _ => s.begin

/-- Two records that R185 keeps apart from no other: same shard, page, version, claim and kind. -/
def sameRecord (a b : DigestRec) : Bool :=
  a.shardId = b.shardId && a.page = b.page && a.version = b.version && a.claim = b.claim && a.install = b.install

/-- A digest record taken (R125, R185). -/
def takeDigest (s : State) (n k : Nat) (r : DigestRec) : State :=
  match s.findShard n r.shardId false with
  | none => s
  | some i =>
    if (s.entry i).claim ≠ r.claim then s
    else match s.mir.records.find? fun x => x.1 = n && sameRecord x.2 r with
      | some x =>
        if x.2.digest = r.digest then s
        else (s.record 9 20 (evSource 5 n i) 0 r.page r.version).countOddAccel k (stepAt (s.entry i) r.version)
      | none =>
        let s := { s with mir.records := s.mir.records ++ [(n, r)] }
        if r.install then s.installDigest n i r.page.toNat r.version r.digest
        else s.takeVote n i r.page.toNat r.version .accel r.digest

/-! ## Captures (R243–R245) -/

/-- TILES and WINDOW_LOG2 of the port's Yobel as Azard wrote them when it joined (log entry 21). -/
def captureTiles : Nat := 16
def captureLog2 : Nat := 16

/-- Checks 1–4 of R243. -/
def captureFormed (s : State) (n k : Nat) (r : CaptureRec) : Bool :=
  let w := fmtWidth r.abfmt.toNat / 8
  let ext (x : BitVec 16) : Bool := decide (1 ≤ x.toNat) && decide (x.toNat ≤ 256)
  let len := 64 + 4 * r.k.toNat + r.k.toNat * r.n.toNat * w + 8 * r.n.toNat
  let st := Map.get 0 (s.tstPort k).tagStep n
  st ≠ 0 && (st = r.step || st = r.step + 1) &&
  decide (r.unit.toNat < ((s.port k).yblId.extractLsb' 37 12).toNat) && ext r.m && ext r.k && ext r.n &&
  (r.abfmt = 1 || r.abfmt = 3 || r.abfmt = 4) &&
  r.length.toNat = (len + 63) / 64 * 64 && r.length.toNat = r.bytes &&
  (capturePositions (s.port k).captureKey r.step r.unit captureTiles captureLog2).contains r.position.toNat

/-- A value is a number. -/
def finite (code bits : Nat) : Bool := match decodeF code bits with | .num .. => true | _ => false

/-- Every array of a record holds numbers only (R243). -/
def captureFinite (r : CaptureRec) : Bool :=
  (r.eA ++ r.eCin ++ r.eCout).all (fun x => finite 0 x.toNat) && r.b.all fun x => finite r.abfmt.toNat x.toNat

/-- 64 MiB of records wait at most (R245). -/
def captureQueue : Nat := 67108864

/-- A capture record arrives (R243, R245). -/
def takeCapture (s : State) (n : Nat) (k : Nat) (r : CaptureRec) : State :=
  if !s.captureFormed n k r then { s with tst.malformed := satInc s.tst.malformed }.event 13 2 (evSource 1 k)
  else if (s.tstPort k).capSeen.contains (r.step, r.unit, r.position) then s
  else
    let s := s.modTstPort k fun t => { t with capSeen := t.capSeen ++ [(r.step, r.unit, r.position)] }
    if !captureFinite r then { s with tst.skipNonfinite := satInc s.tst.skipNonfinite }
    else if decide (captureQueue < s.tst.queueBytes + r.bytes) then { s with tst.backlog := satInc s.tst.backlog }
    else { s with tst.queue := s.tst.queue ++ [(trayFin k, r)], tst.queueBytes := s.tst.queueBytes + r.bytes }

/-- A pattern's value in units of 2^−298, which every product of two operands is a multiple of. -/
def scaled (code bits : Nat) : Int :=
  match decodeF code bits with
  | .num neg m q => (if neg then -1 else 1) * (m * 2 ^ (q + 298).toNat : Nat)
  | _ => 0

/-- A product of two patterns' values, in units of 2^−298. -/
def scaledProduct (a code b : Nat) : Int :=
  match decodeF 0 a, decodeF code b with
  | .num n1 m1 q1, .num n2 m2 q2 => (if n1 = n2 then 1 else -1) * (m1 * m2 * 2 ^ (q1 + q2 + 298).toNat : Nat)
  | _, _ => 0

/-- Column j of a record mismatches: |d − r| > 2^SLACK × (K + 2) × 2^−24 × S, every term exact (R244). -/
def columnOdd (slack : Nat) (r : CaptureRec) (j : Nat) : Bool :=
  let ks := List.range r.k.toNat
  let term (k : Nat) : Int := scaledProduct ((r.eA.getD k 0).toNat) r.abfmt.toNat ((r.b.getD (k * r.n.toNat + j) 0).toNat)
  let c := scaled 0 (r.eCin.getD j 0).toNat
  let c' := scaled 0 (r.eCout.getD j 0).toNat
  let rj : Int := ks.foldl (fun a k => a + term k) 0
  let sj : Nat := ks.foldl (fun a k => a + (term k).natAbs) 0 + c.natAbs + c'.natAbs
  decide (2 ^ slack * (r.k.toNat + 2) * sj < ((c' - c) - rj).natAbs * 2 ^ 24)

/-- The oldest waiting record is compared (R244). -/
def compareCapture (s : State) : State :=
  match s.tst.queue with
  | [] => s
  | (k, r) :: rest =>
    let s := { s with tst.queue := rest, tst.queueBytes := s.tst.queueBytes - r.bytes, tst.records := satInc s.tst.records }
    match (List.range r.n.toNat).find? (columnOdd s.tst.slack.toNat r) with
    | none => s
    | some _ =>
      let s := { s with tst.mismatch := satInc s.tst.mismatch }
      let s := s.modTstPort k fun t => { t with capMismatch := satInc t.capMismatch }
      let s := s.record 13 1 (evSource 1 k) 0 (r.unit.setWidth 32) (r.step.setWidth 32)
      if hitsLimit (s.tstPort k).capMismatch s.tst.capLimit (s.tstPort k).suspect then s.raiseSuspect k 2 else s

/-! ## Test reports and windows (R192, R259, R260) -/

/-- A count of hours as nanoseconds. -/
def hours (n : Nat) : Word := BitVec.ofNat 64 (n * 3600 * second)

/-- A TEST_REPORT taken (R192, R251, R259, R260). -/
def takeTestReport (s : State) (k : Nat) (r : TestReport) : State :=
  let now := s.now
  let due := now + hours s.tst.accelH.toNat
  let res : BitVec 3 := r.result.setWidth 3
  let s :=
    if (s.tstPort k).grantOpen = some r.seq then
      let s := s.modTstPort k fun t => { t with grantOpen := none }
      { s with tst.grantState := 2, tst.grantResult := res, tst.grantStSeq := r.seq, tst.grantStPort := BitVec.ofNat 4 k }
    else s
  let s := s.modTstPort k fun t => { t with lastResult := res }
  if r.result = 1 then
    let s := s.modTstPort k fun t => { t with due := due, overdue := false }
    { s with tst.uncovPorts := s.tst.uncovPorts &&& ~~~(1#9 <<< k) }
  else if r.result = 2 then (s.event 13 21 (evSource 1 k)).raiseSuspect k 4
  else s

/-- A node bound to a tray port is a member, shadow or armed referee of an OPEN attempt (R259 cause 2). -/
def portInAttempt (s : State) (k : Nat) : Bool :=
  ctxNums.any fun n => (s.openAtt n).isSome && (s.ctx n).bind.bound.any fun b => b.2.toNat = k &&
    (s.ctx n).clr.groups.any fun g => g.defn.list.contains b.1 || (s.watchers n (g.defn.group.setWidth 5)).contains b.1

/-- CAUSE of a refused grant (R259); 0 when it is granted. -/
def grantRefusal (s : State) (port : Nat) : Nat :=
  let a := s.tst.grantStart.toNat
  let b := s.tst.grantEnd.toNat
  if 8 < port || !s.portUp port then 1
  else if s.portInAttempt port then 2
  else if b ≤ s.now.toNat then 3
  else if (s.tstPort port).grantOpen.isSome then 4
  else if b ≤ a || 86400 * second < b - a then 5
  else 0

/-- A write of TST_GRANT_CMD (R259). -/
def grantTest (s : State) (port : BitVec 4) (seq : BitVec 16) (set : BitVec 32) : State :=
  let old := s.tst.grantActed
  let s := { s with tst.grantPort := port, tst.grantSeq := seq, tst.grantSet := set }
  if seq = old then s
  else
    let c := s.grantRefusal port.toNat
    let s := { s with tst.grantActed := seq, tst.grantCause := BitVec.ofNat 8 c, tst.grantStSeq := seq, tst.grantStPort := port
                      tst.grantResult := 0 }
    if c ≠ 0 then { s with tst.grantState := 3 }
    else
      let k := trayFin port.toNat
      let s := { s with tst.grantState := 1 }.modTstPort port.toNat fun t => { t with grantOpen := some seq }
      let s := s.yobelWr k 0x600 (natLe 8 s.tst.grantStart.toNat)
      let s := s.yobelWr k 0x608 (natLe 8 s.tst.grantEnd.toNat)
      s.yobelWr k 0x610 (natLe 8 (Word.pack [(0, seq.toNat), (16, set.toNat)]).toNat)

/-- An accelerator has not passed by its due time plus DEFER_H (R260). -/
def accelOverdue (s : State) (k : Nat) : State :=
  let t := s.tstPort k
  if t.due = 0 || t.overdue || decide (s.now.toNat < t.due.toNat + s.tst.deferH.toNat * 3600 * second) then s
  else
    let s := s.modTstPort k fun t => { t with overdue := true }
    { s with tst.uncovPorts := s.tst.uncovPorts ||| (1#9 <<< k), tst.uncovCount := satInc s.tst.uncovCount }.event
      13 900 (evSource 1 k)

/-! ## Drains (R252, R253) -/

/-- The local entries, in every context, whose OWNER is bound to a tray port. -/
def entriesAt (s : State) (k : Nat) : List (Nat × Entry) :=
  s.mir.entries.filter fun e => !e.2.role && s.portOfNode e.2.ctx.toNat e.2.owner = some k

/-- The fenced suspect device on a tray port is drained once all its entries are FENCED or FREE (R252). -/
def drainAccel (s : State) (k : Nat) : State :=
  if !(s.tstPort k).draining || !((s.entriesAt k).all fun e => e.2.st = .fenced || e.2.st = .free) then s
  else
    let cs : List (Fin 16) := ctxNums.filter fun (n : Fin 16) => (s.ctx n).bind.bound.any fun b => b.2.toNat = k
    let s := cs.foldl (fun (s : State) (n : Fin 16) => s.sendRemove n k) s
    let s := s.quarantine k 8
    let s := s.modTstPort k fun t => { t with draining := false, flagged := true }
    (s.flagReplace (s.port k).peerSerial k).event 13 22 (evSource 1 k)

/-- DRAIN written to TST_SELF (R253, R381): out of service with cause DRAIN, and the package flagged for replacement. -/
def drainSelf (s : State) : State :=
  let s := ({ s with tst.draining := !s.rst.drained }.outOfService 3).flagReplace 0 0xFF
  { s with tst.flagged := true }

/-! ## Pattern sets (R254, R255) -/

/-- A pattern pack's header (R254). -/
def parsePack (b : Bytes) : PatternSet :=
  { set := BitVec.ofNat 32 (Bytes.le b 8 4), cls := BitVec.ofNat 16 (Bytes.le b 6 2), counter := BitVec.ofNat 32 (Bytes.le b 0xC 4)
    length := Bytes.le b 0x10 8, testMs := BitVec.ofNat 32 (Bytes.le b 0x1C 4), patterns := BitVec.ofNat 32 (Bytes.le b 0x18 4) }

/-- Format, length and signature of a pack, as causes of TST_PACK_STATUS: 2, 3, 4; 0 when all pass (R254, R255). -/
def packForm (b : Bytes) : Nat :=
  let p := parsePack b
  if Bytes.le b 0 4 ≠ 0x4B505A41 || Bytes.le b 4 2 ≠ 1 || !(p.cls = 1 || p.cls = 2) || Bytes.le b 0x20 32 ≠ 0 then 2
  else if 134217728 < p.length || p.length ≠ b.length then 3
  else if !Config.gelvogerSigned b then 4
  else 0

/-- The refusal of a staged pack at CLOSE, numbered as R362 numbers FORMAT, LENGTH and SIGNATURE (R366). -/
def packStaged (b : Bytes) : Nat :=
  match packForm b with
  | 2 => 1
  | 3 => 2
  | 4 => 4
  | _ => 0

/-- CAUSE of an INSTALL (R255); 0 when the pack is installed. -/
def installCause (s : State) : Nat :=
  match s.kin.pack with
  | none => 1
  | some b =>
    let p := parsePack b
    let others := s.tst.sets.filter fun x => x.set ≠ p.set
    if packForm b ≠ 0 then packForm b
    else if s.tst.sets.any fun x => x.set = p.set && decide (p.counter.toNat ≤ x.counter.toNat) then 5
    else if 8 ≤ others.length || 536870912 < (others.map fun x => x.length).sum + p.length then 6
    else 0

/-- TST_PACK_CMD written (R255, R264); a command acts when SEQNO is new. -/
def packCommand (s : State) (cmd : Nat) (set : BitVec 32) (seq : BitVec 16) : State :=
  let old := s.tst.packActed
  let s := { s with tst.packCmd := BitVec.ofNat 2 cmd, tst.packSet := set, tst.packSeqno := seq }
  if seq = old then s
  else
    let s := { s with tst.packActed := seq }
    match cmd with
    | 1 =>
      let c := s.installCause
      let p := (s.kin.pack.map parsePack)
      let s := { s with tst.packCause := BitVec.ofNat 8 c, tst.packStSet := (p.map fun (x : PatternSet) => x.set).getD set }
      match c, p with
      | 0, some p =>
        -- writes to a stopped partition end (R392)
        if s.evr.stopped.contains 0 then { s with tst.packState := 2 }.event 13 41 0
        else { s with tst.packState := 2, tst.sets := s.tst.sets.filter (fun (x : PatternSet) => x.set ≠ p.set) ++ [p] }.event 13 41 0
      | _, _ => { s with tst.packState := 3 }.eventCode 13 40 0 c
    | 2 =>
      let s := { s with tst.packStSet := set }
      if set = s.tst.active then { s with tst.packState := 3, tst.packCause := 7 }
      else { s with tst.packState := 2, tst.packCause := 0, tst.sets := s.tst.sets.filter fun (x : PatternSet) => x.set ≠ set }
    | _ => s

/-! ## Hearth tests (R256–R258, R18) -/

/-- The hearth that a region tests next: its spare; in a region without one, the active hearth whose last pass is oldest,
the lowest on a tie (R256, R257; log entry 24). -/
def testCandidate (s : State) (q : Nat) : Option Nat :=
  match s.hearthsIn q .spare with
  | h :: _ => some h
  | [] => (sortBy (fun a b => decide ((s.hearth a).lastPass.toNat < (s.hearth b).lastPass.toNat ||
      (s.hearth a).lastPass = (s.hearth b).lastPass && a ≤ b)) (s.hearthsIn q .active)).head?

/-- A hearth's assigned work is done, and no staging of an OPEN attempt lies on it (R91, R256). -/
def hearthFree (s : State) (h : Nat) : Bool :=
  !(s.engine h).running && !(s.engine h).finished &&
  !ctxNums.any fun n => match s.openAtt n with
    | some a => (s.ctx n).clr.segs.any fun x => stagesOn a x.2 h
    | none => false

/-- The test of a region's next hearth begins, when the active HEARTH set is installed and the hearth is free (R256, R18). -/
def startTest (s : State) (q : Nat) : State :=
  let set := s.tst.sets.any fun x => x.set = s.tst.active && x.cls = 1
  match s.testCandidate q with
  | none => s
  | some h =>
    if !set || !s.hearthFree h then s
    else
      let now := s.now
      let s := s.modRegion q fun r => { r with testing := true, testHearth := BitVec.ofNat 7 h, testSet := s.tst.active, lastStart := now }
      s.modHearth h fun x => { x with testing := true }

/-- A hearth test starts in a powered region that runs none, not before ROTATE_MIN has passed since the previous start (R256). -/
def testHearth (s : State) (q : Nat) : State :=
  let r := s.region q
  let early := r.lastStart ≠ 0 && !s.outside r.lastStart (s.tst.rotateMin.toNat * 60 * second)
  if r.testing || r.power ≠ .on || early then s else s.startTest q

/-- The next hearth in ascending order within the region, wrapping and skipping failed ones (R256). -/
def nextOutgoing (s : State) (q h : Nat) : Option Nat :=
  ((List.range 16).map fun i => 17 * q + (h - 17 * q + 1 + i) % 17).find? fun x => (s.hearth x).role = .active

/-- A hearth test ends (R256, R257): `transient` patterns failed once and passed both repeats. -/
def hearthTested (s : State) (q transient : Nat) (pass : Bool) : State :=
  let r := s.region q
  if !r.testing then s
  else
    let h := r.testHearth.toNat
    let s := (List.range transient).foldl (fun (s : State) _ => s.event 13 32 (evSource 2 h)) s
    -- a region that wakes takes work once its spare has been tested (R258, R281)
    let s := s.modRegion q fun r => { r with testing := false, testHearth := 0x7F, power := if r.power = .waking then .on else r.power }
    if pass then
      let now := s.now
      let s := s.modHearth h fun x => { x with testing := false, lastPass := now, uncovered := false }
      let s := s.modRegion q fun r => { r with passes := satInc r.passes }
      if (s.hearth h).role = .spare then
        match s.nextOutgoing q h with
        | some o => (s.modRegion q fun r => { r with outgoing := BitVec.ofNat 7 o }).modHearth o fun x => { x with role := .outgoing }
        | none => s
      else s
    else
      let s := (s.event 13 31 (evSource 2 h)).hearthFail h
      let s := s.modHearth h fun x => { x with testFailed := true }
      { s with tst.suspect := true, tst.cause := 2 }.eventCode 13 23 0 2

/-- The outgoing hearth, free, takes the spare role, and the tested hearth its work (R256). -/
def handover (s : State) (q : Nat) : State :=
  let o := (s.region q).outgoing.toNat
  if o = 0x7F || !s.hearthFree o then s
  else match s.hearthsIn q .spare with
    | [] => s
    | t :: _ =>
      let s := s.modRegion q fun r => { r with outgoing := 0x7F }
      (s.modHearth o fun x => { x with role := .spare }).modHearth t fun x => { x with role := .active, gated := false }

/-- The outgoing hearth was not free within 10 s (R256). -/
def handoverOff (s : State) (q : Nat) : State :=
  let o := (s.region q).outgoing.toNat
  if o = 0x7F then s
  else (s.modRegion q fun r => { r with outgoing := 0x7F }).modHearth o fun x => { x with role := .active }

/-- The time that counts toward a hearth's limits: none while its region is power-gated (R258). -/
def testClock (s : State) (h : Nat) : Word := (s.region (h / 17)).gatedAt.getD s.now

/-- A hearth has not passed by its due time, its last pass plus 17 × ROTATE_MIN, plus DEFER_H (R258): it is uncovered. -/
def hearthUncovered (s : State) (h : Nat) : State :=
  let limit := (s.hearth h).lastPass.toNat + (17 * s.tst.rotateMin.toNat * 60 + s.tst.deferH.toNat * 3600) * second
  if (s.hearth h).uncovered || (s.hearth h).role = .failed || decide ((s.testClock h).toNat < limit) then s
  else { s.modHearth h fun x => { x with uncovered := true } with tst.uncovCount := satInc s.tst.uncovCount }.event
    13 900 (evSource 2 h)

/-! ## Signatures (R263) -/

/-- TST_SIG_CMD written (R263, R264). -/
def sigCommand (s : State) (cmd : Nat) (cls idx : BitVec 8) (seq : BitVec 16) : State :=
  let old := s.tst.sigActed
  let s := { s with tst.sigCmd := BitVec.ofNat 2 cmd, tst.sigClass := cls, tst.sigIndex := idx, tst.sigSeq := seq }
  if seq = old then s
  else
    let s := { s with tst.sigActed := seq }
    match cmd with
    | 1 => match (s.tst.signatures.filter fun g => g.unit.cls = cls && g.unit.index = idx).getLast? with
      | some g => { s with tst.sigState := 1, tst.sigStream := g.stream, tst.sigCursor := 0 }
      | none => { s with tst.sigState := 2, tst.sigStream := [], tst.sigCursor := 0 }
    | 2 => { s with tst.sigState := 0, tst.sigStream := [], tst.sigCursor := 0 }
    | _ => s

/-- A read of TST_SIG_DATA: the next 8 bytes; past LENGTH and while no stream is open it reads 0 (R263). -/
def sigData (s : State) : State × Bytes :=
  if s.tst.sigState = 1 then
    ({ s with tst.sigCursor := s.tst.sigCursor + 8 }, Bytes.at s.tst.sigStream s.tst.sigCursor 8)
  else (s, List.replicate 8 0)

/-! ## The conformance probe (R191) -/

/-- The first failed check of R191 on what Azard read, with the value that YBL-001 records; none when all pass. -/
def probeCheck (k : Fin 9) (id : Word) (digest : Digest) (fault : BitVec 4) : Option (Nat × Nat) :=
  let rev := (id.extractLsb' 0 8).toNat
  let osf := (id.extractLsb' 8 8).toNat
  let cap := (id.extractLsb' 49 1).toNat
  let sl := (id.extractLsb' 16 13).toNat
  if rev ≠ 3 then some (1, rev)
  else if osf ≠ 3 then some (2, osf)
  else if cap ≠ 1 then some (3, cap)
  else if sl < 1024 then some (4, sl)
  else if (fault, digest) ≠ probeOutcome (Engine.run Config.probeFuel (probeStart k (Mem.write [] 0 Config.probeArea))) then
    some (6, fault.toNat)
  else none

/-- A tray port fails its conformance check: YBL-001 and QUARANTINE with QCAUSE 7 (R191, R299). -/
def probeFail (s : State) (k check v : Nat) : State :=
  (s.record 9 1 (evSource 1 k) (BitVec.ofNat 32 check) (BitVec.ofNat 32 v) 0).quarantine k 7

end State

/-! ## The commands: intake -/

/-- DIGEST_RECORD (R185); a request without HAS_CLAIM answers NACK_ACCESS (R174). -/
def execDigestRecord (rq : Req) (op : OpCode) (r : Recs DigestRec) (s : State) : Host.Outcome State Fault Refusal :=
  .next (s.intakeFrom rq (if (State.claimOf rq.ext).isSome then op else .rd) r fun s k x => s.takeDigest rq.ctx k x)

/-- CAPTURE_RECORD (R243, R245). -/
def execCaptureRecord (rq : Req) (op : OpCode) (r : Recs CaptureRec) (s : State) : Host.Outcome State Fault Refusal :=
  .next (s.intakeFrom rq op r fun s k x => s.takeCapture rq.ctx k x)

/-- CAPTURE_COMPARE (R244). -/
def execCaptureCompare (s : State) : Host.Outcome State Fault Refusal := .next s.begin.compareCapture

/-- TEST_REPORT (R192, R259). -/
def execTestReport (rq : Req) (op : OpCode) (r : Recs TestReport) (s : State) : Host.Outcome State Fault Refusal :=
  .next (s.intakeFrom rq op r fun s k x => s.takeTestReport k x)

/-! ## The commands: drains -/

/-- ACCEL_DRAIN (R252). -/
def execAccelDrain (k : Fin 9) (s : State) : Host.Outcome State Fault Refusal := .next (s.begin.drainAccel k)

/-- SELF_DRAIN (R253): 1 written to TST_SELF.DRAIN. -/
def execSelfDrain (rq : Req) (s : State) : Host.Outcome State Fault Refusal :=
  .next (s.begin.control rq false .both fun s => s.drainSelf.ok rq)

/-! ## The commands: packs -/

/-- INSTALL (R255). -/
def execPackInstall (rq : Req) (set : BitVec 32) (seq : BitVec 16) (s : State) : Host.Outcome State Fault Refusal :=
  .next (s.begin.control rq false .both fun s => (s.packCommand 1 set seq).ok rq)

/-- DELETE (R255, R264). -/
def execPackDelete (rq : Req) (set : BitVec 32) (seq : BitVec 16) (s : State) : Host.Outcome State Fault Refusal :=
  .next (s.begin.control rq false .both fun s => (s.packCommand 2 set seq).ok rq)

/-- UPD_CLOSE (R366): `good` says that the object reads back as written. -/
def execUpdClose (rq : Req) (target : BitVec 3) (seq : BitVec 16) (length : BitVec 32) (good : Bool) (s : State) :
    Host.Outcome State Fault Refusal :=
  .next (s.begin.updCmdWrite rq 2 target seq length fun s => s.updClose good State.packStaged)

/-! ## The commands: hearth tests -/

/-- HEARTH_TEST_START (R256). -/
def execHearthTestStart (q : Fin 4) (s : State) : Host.Outcome State Fault Refusal := .next (s.begin.testHearth q)

/-- HEARTH_TEST_DONE (R256, R257). -/
def execHearthTestDone (q : Fin 4) (transient : Nat) (pass : Bool) (s : State) : Host.Outcome State Fault Refusal :=
  .next (s.begin.hearthTested q transient pass)

/-- HANDOVER (R256). -/
def execHandover (q : Fin 4) (s : State) : Host.Outcome State Fault Refusal := .next (s.begin.handover q)

/-- HANDOVER_TIMEOUT (R256). -/
def execHandoverTimeout (q : Fin 4) (s : State) : Host.Outcome State Fault Refusal := .next (s.begin.handoverOff q)

/-- HEARTH_UNCOVERED (R258). -/
def execHearthUncovered (h : Fin 68) (s : State) : Host.Outcome State Fault Refusal := .next (s.begin.hearthUncovered h)

/-! ## The commands: accelerator tests -/

/-- TST_OVERDUE (R260). -/
def execTstOverdue (k : Fin 9) (s : State) : Host.Outcome State Fault Refusal := .next (s.begin.accelOverdue k)

/-- TEST_GRANT (R259): TST_GRANT_CMD written. -/
def execTestGrant (rq : Req) (port : BitVec 4) (seq : BitVec 16) (set : BitVec 32) (s : State) :
    Host.Outcome State Fault Refusal :=
  .next (s.begin.control rq false .both fun s => (s.grantTest port seq set).ok rq)

/-- TEST_WINDOW_START (R192): Yobel's time reaches START of a granted window; the accelerator's own test runs. -/
def execTestWindowStart (k : Fin 9) (s : State) : Host.Outcome State Fault Refusal :=
  let s := s.begin
  let y := s.yobel k
  let t := s.yNow k
  .next (if y.granted && !y.testing && decide (y.testStart.toNat ≤ t.toNat) && decide (t.toNat < y.testEnd.toNat) then
      s.modYobel k fun y => { y with testing := true, startedAt := t }
    else s)

/-! ## The commands: signatures -/

/-- OPEN (R263). -/
def execSigOpen (rq : Req) (cls idx : BitVec 8) (seq : BitVec 16) (s : State) : Host.Outcome State Fault Refusal :=
  .next (s.begin.control rq false .both fun s => (s.sigCommand 1 cls idx seq).ok rq)

/-- CLOSE (R263). -/
def execSigClose (rq : Req) (cls idx : BitVec 8) (seq : BitVec 16) (s : State) : Host.Outcome State Fault Refusal :=
  .next (s.begin.control rq false .both fun s => (s.sigCommand 2 cls idx seq).ok rq)

/-- SIG_DATA_READ (R263, R412). -/
def execSigDataRead (rq : Req) (s : State) : Host.Outcome State Fault Refusal :=
  .next (s.begin.control rq false .both fun s => s.once rq 0xD0D0 fun s =>
    let (s, d) := s.sigData
    s.answer rq .ok 0 d)

/-! ## The commands: conformance -/

/-- CONFORMANCE_PROBE_DONE (R191): the probe completes within 1 s; `id` is YBL_ID as read, `digest` and `fault` the
outcome. -/
def execConformanceProbeDone (k : Fin 9) (id : Word) (digest : Digest) (fault : BitVec 4) (s : State) :
    Host.Outcome State Fault Refusal :=
  let s := s.begin
  .next (if !(s.port k).probeRunning then s
    else
      let s := s.modPort k fun p => { p with probeRunning := false, yblId := id, probeDigest := digest, probeFault := fault }
      match State.probeCheck k id digest fault with
      | some (c, v) => s.probeFail k c v
      | none =>
        let s := s.modPort k fun p => { p with conformed := true }
        if (s.tstPort k).flagged then s.quarantine k 8 else s.linkUp k)

/-- CONFORMANCE_TIMEOUT (R191): the probe has not completed within 1 s. -/
def execConformanceTimeout (k : Fin 9) (fault : BitVec 4) (s : State) : Host.Outcome State Fault Refusal :=
  let s := s.begin
  .next (if (s.port k).probeRunning then s.probeFail k 5 fault.toNat else s)

end Sys2Proof.Machine
end

