-- ==== Sys2Proof/Machine/Background.lean ====
section
/-!
DEFINITION. Sys2Proof/Machine/Background.lean: patrol scrub, HBM retraining, the NAND, the tally journal, telemetry, the discrete
inputs and the event recorder's window (17 R387–R400).
-/

namespace Sys2Proof.Machine

namespace State

/-! ## Scrub (R387–R389) -/

/-- Pages of one stack: 64 GiB of 2 MiB (R265). -/
def stackPagesHeld : Nat := 32768

/-- Scrub goes on with page `p` of the next stack that is in service and powered, looked for from `p` on (R387). -/
def scrubFrom (s : State) (p : Nat) : Nat → Nat
  | 0 => p % (8 * stackPagesHeld)
  | f + 1 =>
    let p := p % (8 * stackPagesHeld)
    let i := p / stackPagesHeld
    if (s.hbm i).failed || (s.region (regionOf i)).power = .off then s.scrubFrom ((i + 1) * stackPagesHeld) f else p

/-- A node's units of chunk c of a segment leave its contribution and its pair digest (R388). -/
def dropUnits (k c : Nat) (nodes : List (BitVec 16)) (g : Seg) : Seg :=
  let lo := contribBytes g.cfmt.toNat (1048576 * c)
  let hi := contribBytes g.cfmt.toNat (min g.elements.toNat (1048576 * (c + 1)))
  let gone (u : BitVec 16 × Nat) : Bool := nodes.contains u.1 && decide (lo / 256 ≤ u.2) && decide (256 * u.2 < hi)
  let term (u : BitVec 16 × Nat) : Digest :=
    let m : Mem := Map.get [] g.raw u.1.toNat
    hash256 ([0x41, 0x5A, 0x43, 0x44] ++ natLe 4 k ++ natLe 4 u.2 ++ Mem.read m (256 * u.2) (min 256 (hi - 256 * u.2)))
  { g with
    units := g.units.filter fun u => !gone u
    pairDigest := (g.units.filter gone).foldl (fun d u =>
      if d.any fun x => x.1 = u.1.toNat then Map.mod 0 d u.1.toNat (· - term u) else d) g.pairDigest }

/-- The sums and marks of one chunk leave the staging of a segment (R388). -/
def dropChunk (c : Nat) (g : Seg) : Seg :=
  let el (i : Nat) : Bool := i / 1048576 = c
  let bl (b : Nat) : Bool := b / 16384 = c
  unstage c { g with
    sums := g.sums.filter fun x => !el x.1, nf := g.nf.filter fun i => !el i, ovfEl := g.ovfEl.filter fun i => !el i
    ovfBlk := g.ovfBlk.filter fun b => !bl b, blkMax := g.blkMax.filter fun x => !bl x.1
    blocks := g.blocks.filter fun x => !bl x.2, sent := g.sent.filter fun b => !bl b }

/-- A detection in an HBM chunk slot of a chunk not yet sent (R388): staging and acceptance marks go, members and children
send the chunk again, CLR-040. -/
def scrubChunk (s : State) (r : ChunkRef) : State :=
  let n : Nat := r.ctx
  let k := r.seg.toNat
  let g := s.seg n k
  match s.openAtt n, (s.trees n).find? fun t => t.defn.group.setWidth 5 = g.group with
  | some a, some t =>
    if !(g.hbmChunks.any fun x => x.1 = r.chunk) || (chunkBlocks g r.chunk).all g.sent.contains then s
    else
      let members := s.localMembers n t.defn
      let s := s.modSeg n k fun g => dropChunk r.chunk (dropUnits k r.chunk members g)
      let again (x : InputKey) : Bool := match x with
        | .member sg node => sg.toNat = k && members.contains node
        | .child sg c node => sg.toNat = k && c = r.chunk && t.children.contains node
      let s := s.modCtx n fun c => { c with clr.arrived := c.clr.arrived.filter fun x => !again x.1 }
      (s.notes r.ctx (members ++ t.children) 0x15 (some a.hdr) [k, r.chunk]).record 6 40 (evSource 5 n) 0
        (a.step.setWidth 32) (a.attempt.setWidth 32)
  | _, _ => s

/-- A detection in root staging or in downward blocks not yet forwarded (R388): asked of the parent again, or recomputed from
the root's kept sum. -/
def scrubRoot (s : State) (r : ChunkRef) : State :=
  let n : Nat := r.ctx
  let g := s.seg n r.seg.toNat
  match (s.trees n).find? fun t => t.defn.group.setWidth 5 = g.group, g.rounds with
  | some t, d :: _ =>
    match t.parent, s.findAtt n d.step d.attempt with
    | some p, some a => s.note r.ctx p 0x15 (some a.hdr) [r.seg.toNat, r.chunk]
    | _, _ => s
  | _, _ => s

/-- A line of a copy is awaited from another copy (R140, R388). -/
def askLine (s : State) (i p line : Nat) : State :=
  s.modEntry i fun e => { e with scrubLines := putOnce e.scrubLines (p, line) }

/-- A detection in a mirror copy (R388): refetched from a copy that stands at the same version; where there is none the line
holds a free value until the vote repairs it (log entry 3). -/
def scrubMirror (s : State) (i p line : Nat) : State :=
  let e := s.entry i
  let n := e.ctx.toNat
  if e.st = .free || decide (e.pages.toNat ≤ p) || (if e.role then e.degradedP else e.degradedL) then s
  else if !e.role && yIn e e.version && e.seenY = e.version && (s.slotOf n i).isSome then
    match s.slotOf n i with
    | some (k, _) => s.askLine i p line |>.request { dest := .yobel (trayFin k), op := .rd, addr := stateAddr n e (p * 2097152 + 64 * line)
                                                     args := [e.claim.toNat, 3, i, p, line] }
    | none => s
  else if !otherLost e && (e.role || e.seenP = e.version) then (s.askLine i p line).sync n i .line p
  else
    let (s, v) := s.openValue 512
    s.modEntry i fun e => { e with mem := Mem.write e.mem (p * 2097152 + 64 * line) (natLe 64 v.toNat) }

/-- What a detection calls for, by what the line holds (R388). -/
def scrubRepair (s : State) (l : LineKind) : State :=
  match l with
  | .mirror e p line => s.scrubMirror e.toNat p line
  | .ledger e both =>
    if !both then { s with mir.twinRepairs := satInc s.mir.twinRepairs }
    else
      let n := (s.entry e.toNat).ctx.toNat
      (s.event 7 42 (evSource 5 n e.toNat)).loseCopy n e.toNat true
  | .chunkSlot c => s.scrubChunk c
  | .rootStaging c => s.scrubRoot c
  | .escrow c => s.abandonCkpt c 2
  | .replay p => s.retrain p
  | .program _ | .spill | .clean | .free => s

/-- A detection in stack i (R388, R389). -/
def scrubDetect (s : State) (i : Nat) (l : LineKind) (good : Bool) : State :=
  let now := s.now
  let s := { s with tel.detected := satInc s.tel.detected }
  let s := s.modHbm i fun h => { h with
    scrubDet := satInc h.scrubDet
    detTimes := (h.detTimes.filter fun t => decide (now.toNat < t.toNat + 3600 * second)) ++ [now] }
  let s := (s.event 4 10 (evSource 3 i)).scrubRepair l
  let s := if good then s else { s with die.retireDue := s.die.retireDue ++ [(i, l)] }.settleRetire
  let s := if 64 < (s.hbm i).detTimes.length then s.stackFail i else s
  s.judgeRetired

/-- Scrub passes from page `a` to page `b`: the stacks on the way whose region is gated are owed their scrub (R387). -/
def scrubPassed (s : State) (a b : Nat) : State :=
  let way := (b / stackPagesHeld + 8 - a / stackPagesHeld) % 8
  (List.range way).foldl (fun (s : State) k =>
    let i := (a / stackPagesHeld + k) % 8
    if (s.region (regionOf i)).power ≠ .off || s.die.scrubMissed.any (fun x => x.1 = i) then s
    else { s with die.scrubMissed := s.die.scrubMissed ++ [(i, if k = 0 then a % stackPagesHeld else 0)] }) s

/-- A stack that is owed its scrub, in a region that has its power back (R387). -/
def scrubOwed (s : State) : Option (Nat × Nat) :=
  s.die.scrubMissed.find? fun x => (s.region (regionOf x.1)).power ≠ .off

/-- The next line of a stack that is owed its scrub. -/
def scrubLate (s : State) (i p : Nat) (last : Bool) (found : Option LineKind) (good : Bool) : State :=
  let s := if (s.hbm i).failed then s else match found with
    | some l => s.scrubDetect i l good
    | none => s
  let over_ := (last && p + 1 = stackPagesHeld) || (s.hbm i).failed
  { s with die.scrubMissed :=
      if over_ then s.die.scrubMissed.filter fun x => x.1 ≠ i
      else s.die.scrubMissed.map fun x => if x.1 = i then (i, if last then p + 1 else p) else x }

/-- Patrol scrub reads the next line (R387): `last`, the last of its page; `found`, what a line with a detection holds;
`good`, the rewritten line reads back. -/
def scrubLine (s : State) (last : Bool) (found : Option LineKind) (good : Bool) : State :=
  let s := s.settleRetire.judgeRetired
  match s.scrubOwed with
  | some (i, p) => s.scrubLate i p last found good
  | none =>
  let p := s.scrubFrom s.die.scrubPage 8
  let s := s.scrubPassed s.die.scrubPage p
  let s := match found with
    | some l => s.scrubDetect (p / stackPagesHeld) l good
    | none => s
  let next := if last then s.scrubFrom (p + 1) 8 else p
  { s with die.scrubPage := next, tel.passes := if last && decide (next ≤ p) then satInc s.tel.passes else s.tel.passes }

/-- A stack retrains one channel (R391). -/
def hbmRetrain (s : State) (i : Nat) (pass : Bool) : State :=
  if (s.hbm i).failed then s
  else
    let s := s.modHbm i fun h => { h with retrains := satInc h.retrains, retrainFails := if pass then 0 else h.retrainFails + 1 }
    if (s.hbm i).retrainFails < 2 then s
    else ((s.storeSignature 1 i 3).event 4 20 (evSource 3 i)).stackFail i

/-! ## The NAND (R392–R394) -/

/-- Blocks of the NAND's spare area, 304 MiB (R392). -/
def spareTotal : Nat := 304 * 1048576 / (64 * (Config.recorderBlock.val + 1))

/-- A block of a NAND partition fails: replaced from the spares, NVM-001; the spares run low, NVM-002; none is left, and
writes to the partition stop, NVM-003. -/
def nandFail (s : State) (part : Nat) : State :=
  let s := s.bumpTally 23
  if s.evr.stopped.contains part then s
  else if s.evr.spareUsed < spareTotal then
    let low (used : Nat) : Bool := decide (100 * (spareTotal - used) < 2 * spareTotal)
    let was := low s.evr.spareUsed
    let s := { s with evr.spareUsed := s.evr.spareUsed + 1 }.event 20 1 0
    if low s.evr.spareUsed && !was then s.event 20 2 0 else s
  else { s with evr.stopped := s.evr.stopped ++ [part] }.event 20 3 0

/-! ## Telemetry (R395, R396) -/

/-- Words placed in the snapshot area from an offset on. -/
def snapWords (m : Map Word) (off : Nat) (l : List Word) : Map Word :=
  l.zipIdx.foldl (fun m x => Map.set 0 m (off + 8 * x.2) x.1) m

/-- The snapshot area of a window's counts (R395). -/
def snapMap (t : TelSample) : Map Word :=
  let m := t.ports.zipIdx.foldl (fun m x => snapWords m (0x1000 + 0x20 * x.2) [x.1.1, x.1.2.1, x.1.2.2.1, x.1.2.2.2]) []
  let m := snapWords m 0x1320 (t.levels.take 5)
  let m := snapWords m 0x1348 (t.vcs.take 32)
  let m := Map.set 0 m 0x1448 t.pkg
  let m := snapWords m 0x1450 (t.regions.take 4)
  snapWords m 0x1470 (t.hbms.take 8)

/-- The bytes of the snapshot area, as pushed on VC3. -/
def snapBytes (m : Map Word) : Bytes := (List.range 150).flatMap fun i => natLe 8 (Map.get 0 m (0x1000 + 8 * i)).toNat

/-- Contexts whose steps run. -/
def liveSteps (s : State) : List Nat := (List.range 16).filter fun n => (s.ctx n).life.st = .active

/-- What a window of 1 ms adds to the load of a context's step: 2,000,000 cycles, the stall cycles of each region at the HBM
level, the HBM traffic of its entries (R273, R284). -/
def measure (s : State) (n : Nat) (t : TelSample) : State :=
  let l := Map.get {} s.alc.load n
  let stall := (t.hbmStall.take 4).zipIdx.foldl (fun m (x : Nat × Nat) => Map.mod 0 m x.2 (· + x.1)) l.stall
  let mine := t.traffic.filter fun x => (s.entry x.1.toNat).ctx.toNat = n
  let traffic := mine.foldl (fun m x => Map.mod 0 m x.1.toNat (· + x.2)) l.traffic
  { s with alc.load := Map.set {} s.alc.load n { cycles := l.cycles + 2000000, stall := stall, traffic := traffic } }

/-- A window of 1 ms ends (R395, R396): the stall cycles of the levels are counted, the snapshot pushed, and shown unless HOLD
is set. -/
def telSnapshot (s : State) (t : TelSample) : State :=
  let stall := (t.levels.take 5).zipIdx.foldl (fun (m : Map Word) (x : Word × Nat) =>
    Map.mod 0 m x.2 fun w => satAdd w x.1.toNat) s.alc.stall
  let s := { s with alc.stall := stall }
  let s := (t.ports.take 25).zipIdx.foldl (fun (s : State) x =>
    { s with egress := Map.mod {} s.egress x.2 fun e => { e with stall := satAdd e.stall x.1.2.2.2.toNat } }) s
  let s := (s.liveSteps).foldl (fun (s : State) n => s.measure n t) s
  let t := { t with ports := t.ports.take 25 }
  let m := snapMap t
  let s := s.send { dest := .firmware, op := .wr, addr := 0x11000, data := snapBytes m }
  if s.tel.hold then { s with tel.skipped := satInc s.tel.skipped }
  else { s with tel.seq := s.tel.seq + 2, tel.time := s.now, tel.snap := m }

/-- TEL_CTL.HOLD written (R396). -/
def setHold (s : State) (v : Bool) : State :=
  { s with tel.hold := v, tel.holdAt := if v && !s.tel.hold then s.now else s.tel.holdAt }

/-! ## Discrete inputs (R397) -/

/-- The conditioning values of an input; all zeros for an unused one (R360). -/
def inputCfg (s : State) (i : Nat) : InputCfg := Map.get {} s.kin.img.inputs i

/-- The ports that an input's level speaks for are judged anew (R225). -/
def judgeInput (s : State) (i : Nat) : State :=
  (List.range 25).foldl (fun (s : State) p => if (s.port p).faultMap.getLsbD i then s.judgeVerdict p else s) s

/-- A change of level that has held for MIN_PULSE, with the time of its first sample (R397). -/
def acceptInput (s : State) (i : Nat) (level : Bool) (start : Word) : State :=
  let x := s.input i
  let c := s.inputCfg i
  if c = {} || x.level = level then s
  else
  let s := s.modInput i fun x => { x with since := start }
  if !level then
    let s := s.modInput i fun x => { x with level := false, asserted := false }
    if x.asserted then s.judgeInput i else s
  else if x.masked then s.modInput i fun x => { x with level := true }
  else
    let fast := match x.lastActed with
      | some t => decide (t.toNat ≤ start.toNat) && decide (start.toNat < t.toNat + 1000 * c.minPeriod.toNat)
      | none => false
    if fast then
      let s := s.modInput i fun x => { x with level := true, fast := satInc x.fast, fastSince := x.lastActed }
      if x.fastSince = x.lastActed then s else s.event 21 3 (evSource 6 i)
    else
      let s := s.modInput i fun x => { x with level := true, asserted := true, accepted := satInc x.accepted, lastActed := some start }
      (s.event 21 1 (evSource 6 i)).judgeInput i

/-- An input is still asserted at the end of HOLD: masked (R397). -/
def maskInput (s : State) (i : Nat) : State :=
  let x := s.input i
  if !x.level || x.masked || !s.outside x.since (1000000 * (s.inputCfg i).hold.toNat) then s
  else
    let s := s.modInput i fun x => { x with masked := true, asserted := false, stuck := satInc x.stuck }
    (s.event 21 2 (evSource 6 i)).judgeInput i

/-- An input's mask clears; while it is still asserted its hold window starts again (R397). -/
def unmaskInput (s : State) (i : Nat) : State :=
  let now := s.now
  if (s.input i).masked then
    (s.modInput i fun x => { x with masked := false, since := if x.level then now else x.since }).event 21 4 (evSource 6 i)
  else s

/-- EVR_IN_UNMASK written (R397). -/
def unmask (s : State) (m : BitVec 16) : State :=
  (List.range 16).foldl (fun (s : State) i => if m.getLsbD i then s.unmaskInput i else s) s

/-! ## The recorder's window (R398–R400) -/

/-- CRC-32C of bytes, one bit at a time from the low end: polynomial 0x1EDC6F41 reflected, all ones before and after. -/
def crcBit (c : BitVec 32) : Nat → BitVec 32
  | 0 => c
  | n + 1 => crcBit ((c >>> 1) ^^^ (if c.getLsbD 0 then 0x82F63B78 else 0)) n

def crc32c (b : Bytes) : BitVec 32 := ~~~(b.foldl (fun c x => crcBit (c ^^^ x.setWidth 32) 8) 0xFFFFFFFF)

/-- The 64 bytes of an event record (R398). -/
def recordBytes (r : Record) : Bytes :=
  let b := natLe 4 r.seq.toNat ++ natLe 1 r.cls.toNat ++ [0] ++ natLe 2 r.number.toNat ++ natLe 4 r.source.toNat ++
    natLe 2 r.rpt.toNat ++ natLe 2 (bit r.queued) ++ natLe 8 r.opSec.toNat ++ natLe 4 r.cycles.toNat ++ natLe 4 0 ++
    natLe 8 r.first.toNat ++ natLe 8 r.last.toNat ++ natLe 4 r.w0.toNat ++ natLe 4 r.w1.toNat ++ natLe 4 r.w2.toNat
  b ++ natLe 4 (crc32c b).toNat

/-- The bytes that EVR_REC0–EVR_REC7 show (R400): zeros where no record has the cursor's SEQ. -/
def cursorBytes (s : State) : Bytes :=
  match (s.evr.stored ++ s.evr.opened.toList ++ s.evr.queue).find? fun r => r.seq = s.evr.cursor with
  | some r => recordBytes r
  | none => List.replicate 64 0

/-- EVR_CURSOR written: a SEQ older than OLDEST is stored as OLDEST, counted modulo 2³² (R400). -/
def setCursor (s : State) (q : BitVec 32) : State :=
  let o := Evr.oldest s.evr
  { s with evr.cursor := if (q - o).toNat < 2147483648 then q else o }

/-- A read of EVR_REC7: the record's last word; the cursor moves on (R400). -/
def readRec7 (s : State) : State × Bytes :=
  ({ s with evr.cursor := s.evr.cursor + 1 }, Bytes.at s.cursorBytes 56 8)

/-- A freeze ends (R400): the queue is written in order; then EVR-001 when 60 s ended it, EVR-002 when events were lost. -/
def thaw (s : State) (timeout : Bool) : State :=
  if !s.evr.freeze then s
  else
    let rise := s.evr.lost - s.evr.lostAtFreeze
    let s := { s with evr := Evr.flush { s.evr with freeze := false } }
    let s := if timeout then s.event 22 1 0 else s
    let s := if rise ≠ 0 then s.record 22 2 0 0 rise 0 else s
    -- the cursor moves on when its block was erased (R400)
    s.setCursor s.evr.cursor

/-- EVR_CTL.FREEZE written (R400). -/
def setFreeze (s : State) (v : Bool) : State :=
  if !v then s.thaw false
  else if s.evr.freeze then s
  else { s with evr.freeze := true, evr.freezeAt := s.now, evr.lostAtFreeze := s.evr.lost }

end State

/-! ## The commands -/

/-- SCRUB_LINE (R387–R389). -/
def execScrubLine (last : Bool) (found : Option LineKind) (good : Bool) (s : State) : Host.Outcome State Fault Refusal :=
  .next (s.begin.scrubLine last found good)

/-- HBM_RETRAIN (R391). -/
def execHbmRetrain (i : Fin 8) (pass : Bool) (s : State) : Host.Outcome State Fault Refusal := .next (s.begin.hbmRetrain i pass)

/-- TALLY_JOURNAL_WRITE (R392–R394): the NAND's erases since the record before, the highest erase count of a block, the
partitions in which blocks failed, and whether the record stands undamaged. -/
def execTallyJournalWrite (erases worst : Nat) (bad : List (Fin 4)) (intact : Bool) (s : State) : Host.Outcome State Fault Refusal :=
  let s := s.begin.addTally 21 erases
  let s := if (s.tally 22).toNat < worst then s.setTally 22 (BitVec.ofNat 64 worst) else s
  let s := bad.foldl (fun (s : State) (p : Fin 4) => s.nandFail p) s
  .next (if s.evr.stopped.contains 3 then s else { s.journalWrite with evr.journalDamaged := !intact })

/-- TELEMETRY_SNAPSHOT (R395). -/
def execTelemetrySnapshot (t : TelSample) (s : State) : Host.Outcome State Fault Refusal := .next (s.begin.telSnapshot t)

/-- TEL_HOLD_TIMEOUT (R396): HOLD has stood for 1 s. -/
def execTelHoldTimeout (s : State) : Host.Outcome State Fault Refusal :=
  let s := s.begin
  .next (if s.tel.hold && s.outside s.tel.holdAt second then { s with tel.hold := false } else s)

/-- FAULT_IN_ACCEPT (R397). -/
def execFaultInAccept (i : Fin 16) (level : Bool) (start : Word) (s : State) : Host.Outcome State Fault Refusal :=
  .next (s.begin.acceptInput i level start)

/-- FAULT_IN_STUCK (R397). -/
def execFaultInStuck (i : Fin 16) (s : State) : Host.Outcome State Fault Refusal := .next (s.begin.maskInput i)

/-- FAULT_IN_QUIET (R397). -/
def execFaultInQuiet (i : Fin 16) (s : State) : Host.Outcome State Fault Refusal :=
  let s := s.begin
  let x := s.input i
  .next (if x.level || !s.outside x.since (1000000 * (s.inputCfg i).quiet.toNat) then s else s.unmaskInput i)

/-- UNMASK (R397). -/
def execUnmask (rq : Req) (m : BitVec 16) (s : State) : Host.Outcome State Fault Refusal :=
  .next (s.begin.control rq true .both fun s => (s.unmask m).ok rq)

/-- EVR_CURSOR_WRITE (R400). -/
def execEvrCursorWrite (rq : Req) (data : Word) (s : State) : Host.Outcome State Fault Refusal :=
  .next (s.begin.control rq true .both fun s => (s.setCursor (data.extractLsb' 0 32)).ok rq)

/-- EVR_REC7_READ (R400, R412). -/
def execEvrRec7Read (rq : Req) (s : State) : Host.Outcome State Fault Refusal :=
  .next (s.begin.control rq true .both fun s => s.once rq 0xE078 fun s =>
    let (s, d) := s.readRec7
    s.answer rq .ok 0 d)

/-- FREEZE (R400): EVR_CTL written with FREEZE = `v`. -/
def execEvrFreeze (rq : Req) (v : Bool) (s : State) : Host.Outcome State Fault Refusal :=
  .next (s.begin.control rq true .both fun s => (s.setFreeze v).ok rq)

/-- FREEZE_TIMEOUT (R400): 60 s have passed since FREEZE was set. -/
def execFreezeTimeout (s : State) : Host.Outcome State Fault Refusal :=
  let s := s.begin
  .next (if s.evr.freeze && s.outside s.evr.freezeAt (60 * second) then s.thaw true else s)

end Sys2Proof.Machine
end

