-- ==== Sys2Proof/Machine/Clock.lean ====
section
/-!
DEFINITION. Sys2Proof/Machine/Clock.lean: the commands of device time: ticks, increments and steps, the RTC, probes, pulses, the
two-way exchange and PPS (13).
-/

namespace Sys2Proof.Machine

/-- The limits of TIME_INCREMENT (R309). -/
def incLow : Nat := 0x00000009FF7CED92
def incHigh : Nat := 0x0000000A0083126E

/-- The region, and so the port group, of a port (R14, R321). -/
def portRegion (p : Nat) : Nat := if p = 8 then 2 else if p < 9 then p / 2 else (p - 9) / 4

/-- A nanosecond in stamp units of 2⁻³² ns. -/
def nsUnit : Nat := 4294967296

namespace State

/-! ## Pulses (R311, R322) -/

def pulse (s : State) (j : Nat) : Pulse := Map.get {} s.tim.pulse j
def modPulse (s : State) (j : Nat) (f : Pulse → Pulse) : State := { s with tim.pulse := Map.mod {} s.tim.pulse j f }

/-- The first k whose edge START + k × PERIOD is not before t. -/
def firstEdge (start period t : Nat) : Nat := if t ≤ start || period = 0 then 0 else (t - start + period - 1) / period

/-- The schedule of a pulse as it starts at time t (R322). -/
def startPulse (t : Nat) (p : Pulse) : Pulse :=
  let p := { p with enable := true, done := false, level := false, next := firstEdge p.start.toNat p.period.toNat t }
  if p.period = 0 && decide (p.start.toNat < t) then { p with missed := true, done := true } else p

/-- A pulse after an offset step to time t (R311): a periodic one goes on with the first edge not before t; nothing fires a
second time. -/
def stepPulse (t : Nat) (p : Pulse) : Pulse :=
  if p.enable && !p.done && p.period ≠ 0 && !p.level then { p with next := max p.next (firstEdge p.start.toNat p.period.toNat t) } else p

/-- The next edge of a running pulse is reached at time t: the output is asserted, or deasserted at the end of WIDTH; the
schedule ends after its one shot or its COUNT (R322). -/
def pulseEdge (t : Nat) (p : Pulse) : Pulse :=
  let rise := p.start.toNat + p.next * p.period.toNat
  if !p.enable || (p.done && !p.level) then p
  else if p.level then
    if rise + p.width.toNat ≤ t then
      { p with level := false, next := max (p.next + 1) (firstEdge p.start.toNat p.period.toNat t) }
    else p
  else if rise ≤ t then
    let last := p.period = 0 || p.count = 1
    { p with level := true, count := if p.count = 0 then 0 else p.count - 1, done := last }
  else p

/-- TIM_PULSE_CTL written (R322, R326). -/
def pulseCtl (t : Nat) (data : Word) (p : Pulse) : Pulse :=
  let on := data.getLsbD 0
  let w := max 20 (data.extractLsb' 32 32).toNat
  let p := { p with polarity := data.getLsbD 1 }
  let p := if p.enable then p
    else { p with
      width := BitVec.ofNat 32 w
      period := if p.period ≠ 0 && decide (p.period.toNat < w + 20) then BitVec.ofNat 64 (w + 20) else p.period }
  if on && !p.enable then startPulse t p
  else if !on then { p with enable := false, level := false }
  else p

/-! ## Ticks (R308–R311, R324) -/

/-- An offset step takes effect (R310, R311): STEPS, TIM-001. -/
def applyStep (s : State) (off : Word) : State :=
  let size : Int := (off - s.tim.offset).toInt
  let s := { s with tim.offset := off, tim.offNext := none, tim.steps := satInc s.tim.steps }
  let t := s.now.toNat
  let s := (List.range 4).foldl (fun (s : State) j => s.modPulse j (stepPulse t)) s
  s.record 16 1 0 0 (detailInt size) 0

/-- What the tallies count by the raw counter: operating seconds, and hours of each stack that is trained and powered (R393;
log entry 35). -/
def tickTallies (s : State) : State :=
  let s := if s.tim.raw.toNat % 100000000 = 0 then s.bumpTally 1 else s
  if s.tim.raw.toNat % 360000000000 = 0 && s.pwr.pgHbm then
    let idle (i : Nat) : Bool := (s.hbm i).failed || (s.region (regionOf i)).power = .off || (s.kin.power = .kindling && s.kin.stage ≤ 4)
    (List.range 8).foldl (fun (s : State) i => if idle i then s else s.bumpTally (11 + i)) s
  else s

/-- One REFCLK tick (R308–R310): a pending increment is in force for this tick, a pending offset applies at it. -/
def tick (s : State) : State :=
  let inc := s.tim.incNext.getD s.tim.inc
  let s := { s with tim.raw := s.tim.raw + 1, tim.inc := inc, tim.incNext := none, tim.acc := s.tim.acc + inc.setWidth 96 }
  let s := s.tickTallies
  match s.tim.offNext with
  | some o => s.applyStep o
  | none => s

/-- One tick of the 32.768 kHz crystal (R324). -/
def crystalTick (s : State) : State :=
  match s.tim.rtcSet with
  | some w => { s with tim.rtcSet := none, tim.rtcFrac := w.extractLsb' 0 15, tim.rtcSec := w.extractLsb' 16 48, tim.rtcValid := true }
  | none =>
    let f := s.tim.rtcFrac + 1
    { s with tim.rtcFrac := f, tim.rtcSec := if f = 0 then s.tim.rtcSec + 1 else s.tim.rtcSec }

/-! ## The exchange and the time tree (R315–R319) -/

/-- A link that carries the exchange: UP or QUARANTINE (R315). -/
def exchanges (s : State) (p : Nat) : Bool := (s.port p).state = .up || (s.port p).state = .quarantine

/-- HOPS and ROOT as this Azard tells them: a root has 0 and its own position word (R317). -/
def timeHops (s : State) : BitVec 8 := if s.tim.source = 0 then s.tim.hops else 0
def timeRoot (s : State) : Word := if s.tim.source = 0 then s.tim.root else s.fabric.selfPos

/-- LOCKED and HOLDOVER after a completed exchange with the parent (R318); θ in units of 2⁻⁸ ns. -/
def judgeLock (s : State) (theta : Int) : State :=
  let a := theta.natAbs
  let good := if a ≤ 5 * 256 then s.tim.good + 1 else 0
  let bad := if 20 * 256 < a then s.tim.bad + 1 else 0
  let locked := if 16 ≤ good then true else if 4 ≤ bad then false else s.tim.locked
  { s with tim.good := good, tim.bad := bad, tim.locked := locked, tim.holdover := false }

/-- The exchange of a SEQ completes (R316, R319): θ, and RTT on Osfel-L. -/
def completeExchange (s : State) (p : Nat) (t1 t2 t3 t4 : Stamp) : State :=
  let d : Int := ((t2 : Int) - t1) - ((t4 : Int) - t3)
  let asym : Int := if p < 9 then 0 else (Map.get (0 : BitVec 32) s.tim.asym p).toInt
  let theta : Int := (d * 1000 - asym * 4294967296) / (2 * 1000 * 16777216)
  let rtt : Int := (((t4 : Int) - t1) - ((t3 : Int) - t2)) / 4294967296
  let now := s.now
  let s := s.modPeerTime p fun t => { t with
    theta := BitVec.ofInt 48 theta, lastDone := some now
    adj := if p < 9 then BitVec.ofInt 64 (-(d / (2 * 65536))) else t.adj }
  let s := if (s.port p).mode = 2 then s.modPort p fun q => { q with rtt := BitVec.ofNat 32 rtt.toNat } else s
  let s := s.chooseParent
  if s.tim.source = 0 && s.tim.parent.toNat = p then s.judgeLock theta else s

/-- SYNC_REQ goes out on a link, once in a millisecond of corrected time, with its transmit stamp, `t1` at the MAC (R313–R315). -/
def sendSync (s : State) (p : Fin 25) (t1 : MacStamp) : State :=
  let ms := s.now.toNat / 1000000
  if !s.exchanges p || (s.peerTime p).sentMs = some ms then s
  else
    let t := s.peerTime p
    let adj := if p.val < 9 then t.adj else 0
    let t1 := s.txStamp p t1
    let s := s.modPeerTime p fun t => { t with
      sentMs := some ms, nextSeq := t.nextSeq + 1, sentReq := t.sentReq ++ [(t.nextSeq, t1)], adj := 0 }
    s.send { dest := .link p, op := .msg, kind := 5
             args := [s.timeHops.toNat, t.nextSeq.toNat, s.timeRoot.toNat, 0, 0, 0, adj.toNat] }

/-- A SYNC_REQ at Azard is answered with one SYNC_RESP (R315); `t2` and `t3` at the MAC. -/
def answerSync (s : State) (p : Fin 25) (m : SyncMsg) (t2 t3 : MacStamp) : State :=
  if !s.exchanges p then s
  else
    let t := s.peerTime p
    let t3 := s.txStamp p t3
    let s := s.modPeerTime p fun t => { t with hops := m.hops, root := m.root, prevSeq := m.seq, prevT3 := t3 }
    s.send { dest := .link p, op := .msg, kind := 6
             args := [s.timeHops.toNat, m.seq.toNat, s.timeRoot.toNat, s.rxStamp p t2, t.prevSeq.toNat, t.prevT3, 0] }

/-- The increment under which Yobel forms its own stamps: the nominal tick (R313, R319; log entry 90). -/
def yobelIncrement : Word := 0x0000000A00000000

/-- A SYNC_REQ at the Yobel of a tray port: ADJ is added to its time, unless it was sent in an older epoch (R176, R193, R319,
R325); `t2` and `t3` are Yobel's own stamps (log entry 90). -/
def yobelSync (s : State) (k : Fin 9) (m : SyncMsg) (epoch : BitVec 32) (t2 t3 : MacStamp) : State :=
  let v := s.yobel k
  let t2 := t2.read yobelIncrement
  let t3 := t3.read yobelIncrement
  let s := s.modYobel k fun v => { v with
    timeOff := if epoch = v.epoch then v.timeOff + m.adj else v.timeOff
    timeValid := true, syncAt := s.now, syncPrev := m.seq, syncT3 := t3 }
  s.send { dest := .azardOf k, op := .msg, kind := 6, args := [0xFF, m.seq.toNat, 0, t2, v.syncPrev.toNat, v.syncT3, 0] }

/-- A SYNC_RESP (R315, R316): the response to SEQ, and the exchange that PREV_SEQ completes. -/
def takeSyncResp (s : State) (p : Fin 25) (m : SyncMsg) (t4 : MacStamp) : State :=
  if !s.exchanges p then s
  else
    let t4 := s.rxStamp p t4
    let s := s.modPeerTime p fun t => { t with hops := m.hops, root := m.root, waiting := t.waiting ++ [(m.seq, m.t2, t4)] }
    let t := s.peerTime p
    match t.sentReq.find? fun x => x.1 = m.prevSeq, t.waiting.find? fun x => x.1 = m.prevSeq && x.1 ≠ m.seq with
    | some (_, t1), some (_, t2, t4') =>
      let s := s.modPeerTime p fun t => { t with
        sentReq := t.sentReq.filter fun x => x.1 ≠ m.prevSeq, waiting := t.waiting.filter fun x => x.1 ≠ m.prevSeq }
      s.completeExchange p t1 t2 m.t3prev t4'
    | _, _ => s

/-! ## Probes (R321) -/

/-- A transmit stamp enters its port group's queue (R321). -/
def queueStamp (s : State) (p : Fin 25) (id : BitVec 16) (t : Stamp) : State :=
  let q := portRegion p
  let l := Map.get [] s.tim.txq q
  if l.length < 16 then
    let x : TxStamp := { port := BitVec.ofNat 5 p, id := id, ns := BitVec.ofNat 64 (t / nsUnit), frac := BitVec.ofNat 32 t }
    { s with tim.txq := Map.set [] s.tim.txq q (l ++ [x]) }
  else if s.tim.txqOvf.getLsbD q then s
  else { s with tim.txqOvf := s.tim.txqOvf ||| BitVec.ofNat 4 (2 ^ q) }.event 16 6 0

/-- TIM_PROBE_CMD written (R321, R326); `stamp` is the PROBE's transmit stamp at the MAC (R314). -/
def probeCmd (s : State) (port : BitVec 5) (id seq : BitVec 16) (stamp : MacStamp) : State :=
  let old := s.tim.probeActed
  let s := { s with tim.probePort := port, tim.probeId := id, tim.probeSeq := seq }
  if seq = old then s
  else
    let s := { s with tim.probeActed := seq }
    if h : port.toNat < 25 then
      let p : Fin 25 := ⟨port.toNat, h⟩
      if s.exchanges p then (s.send { dest := .link p, op := .msg, kind := 7, args := [id.toNat] }).queueStamp p id (s.txStamp p stamp)
      else s
    else s

/-- A read of TIM_TXQ_TIMEq: the head entry's whole ns; the entry is removed (R321). -/
def popStamp (s : State) (q : Nat) : State × Word :=
  match Map.get [] s.tim.txq q with
  | [] => (s, 0)
  | x :: r => ({ s with tim.txq := Map.set [] s.tim.txq q r }, x.ns)

/-! ## Register writes (R309, R310) -/

/-- TIME_INCREMENT written: stored within its limits, in force from the next tick. -/
def incWrite (s : State) (data : Word) : State :=
  { s with tim.incNext := some (BitVec.ofNat 64 (clampNat incLow incHigh data.toNat)) }

/-- TIME_OFFSET written: none while a context is ACTIVE. -/
def offsetWrite (s : State) (data : Word) : Option State :=
  if State.ctxNums.any fun n => (s.ctx n).life.st = .active then none else some { s with tim.offNext := some data }

/-! ## PPS (R323) -/

/-- The fixed delay of PPS_IN, 2.5 ns (R323). -/
def ppsDelay : Nat := 10737418240

/-- A rising edge of PPS_IN (R323): `high` ns of high time; `t` its stamp at the input, taken back by the input's delay. -/
def ppsEdge (s : State) (t : MacStamp) (high : Nat) : State :=
  let t := t.read s.tim.inc - ppsDelay
  let ns := t / nsUnit
  let prev := s.tim.ppsStamp.toNat
  if high < 100 then s
  else if s.tim.ppsAny && decide (prev ≤ ns) && decide (ns < prev + 900000000) then { s with tim.ppsFast := satInc s.tim.ppsFast }
  else
    { s with
      tim.ppsStamp := BitVec.ofNat 64 ns, tim.ppsFrac := BitVec.ofNat 32 t, tim.ppsAny := true
      tim.ppsAccepted := s.tim.ppsAccepted + 1, tim.ppsLost := false }

end State

/-! ## The commands -/

/-- REFCLK_TICK (R308). -/
def execRefclkTick (s : State) : Host.Outcome State Fault Refusal :=
  let s := s.begin
  .next (if s.kin.power = .off then s else s.tick)

/-- CRYSTAL_TICK (R324): from VBAT when the pilot rail is off. -/
def execCrystalTick (s : State) : Host.Outcome State Fault Refusal :=
  let s := s.begin
  .next (if s.kin.power = .off && !s.pwr.vbatOk then s else s.crystalTick)

/-- TIME_INCREMENT_WRITE (R309): stored within its limits, in force from the next tick. -/
def execTimeIncrementWrite (rq : Req) (data : Word) (s : State) : Host.Outcome State Fault Refusal :=
  .next (s.begin.control rq false .both fun s => (s.incWrite data).ok rq)

/-- TIME_OFFSET_WRITE (R310). -/
def execTimeOffsetWrite (rq : Req) (data : Word) (s : State) : Host.Outcome State Fault Refusal :=
  .next (s.begin.control rq false .both fun s => match s.offsetWrite data with
    | some t => t.ok rq
    | none => s.nackAccess rq)

/-- RTC_SET (R324): in force from the next crystal tick. -/
def execRtcSet (rq : Req) (data : Word) (s : State) : Host.Outcome State Fault Refusal :=
  .next (s.begin.control rq true .both fun s => { s with tim.rtcSet := some data }.ok rq)

/-- PROBE_CMD (R321). -/
def execProbeCmd (rq : Req) (port : BitVec 5) (id seq : BitVec 16) (stamp : MacStamp) (s : State) : Host.Outcome State Fault Refusal :=
  .next (s.begin.control rq false .both fun s => (s.probeCmd port id seq stamp).ok rq)

/-- PROBE_RECEIVED (R321): answered with PROBE_ECHO, which carries the receive stamp. -/
def execProbeReceived (p : Fin 25) (id : BitVec 16) (stamp : MacStamp) (s : State) : Host.Outcome State Fault Refusal :=
  let s := s.begin
  .next (if s.exchanges p then s.send { dest := .link p, op := .msg, kind := 8, args := [id.toNat, s.rxStamp p stamp] } else s)

/-- PROBE_ECHO_RECEIVED (R321). -/
def execProbeEchoReceived (p : Fin 25) (stamp : Stamp) (s : State) : Host.Outcome State Fault Refusal :=
  let s := s.begin
  .next (if s.exchanges p then { s with tim.probeEcho := BitVec.ofNat 64 (stamp / nsUnit) } else s)

/-- TXQ_TIME_READ (R321, R412): the head entry's ns, which the read removes. -/
def execTxqTimeRead (rq : Req) (q : Fin 4) (s : State) : Host.Outcome State Fault Refusal :=
  .next (s.begin.control rq false .both fun s => s.once rq (0x3088 + 16 * q.val) fun s =>
    let (s, w) := s.popStamp q
    s.answer rq .ok 0 (natLe 8 w.toNat))

/-- PULSE_CTL_WRITE (R322). -/
def execPulseCtlWrite (rq : Req) (j : Fin 4) (data : Word) (s : State) : Host.Outcome State Fault Refusal :=
  .next (s.begin.control rq false .both fun s => (s.modPulse j (State.pulseCtl s.now.toNat data)).ok rq)

/-- PULSE_EDGE (R322). -/
def execPulseEdge (j : Fin 4) (s : State) : Host.Outcome State Fault Refusal :=
  let s := s.begin
  .next (s.modPulse j (State.pulseEdge s.now.toNat))

/-- SYNC_TIMER (R315): one link's request of this millisecond. -/
def execSyncTimer (p : Fin 25) (t1 : MacStamp) (s : State) : Host.Outcome State Fault Refusal := .next (s.begin.sendSync p t1)

/-- SYNC_REQ_RECEIVED (R315, R319): at a tray port the receiver is Yobel. -/
def execSyncReqReceived (p : Fin 25) (m : SyncMsg) (epoch : BitVec 32) (t2 t3 : MacStamp) (s : State) : Host.Outcome State Fault Refusal :=
  let s := s.begin
  .next (if p.val < 9 then s.yobelSync (State.trayFin p) m epoch t2 t3 else s.answerSync p m t2 t3)

/-- SYNC_RESP_RECEIVED (R316). -/
def execSyncRespReceived (p : Fin 25) (m : SyncMsg) (t4 : MacStamp) (s : State) : Host.Outcome State Fault Refusal :=
  .next (s.begin.takeSyncResp p m t4)

/-- HOLDOVER_TIMEOUT (R318): no exchange with a parent has completed for 10 ms. -/
def execHoldoverTimeout (s : State) : Host.Outcome State Fault Refusal :=
  let s := s.begin.chooseParent
  .next (if s.tim.source = 0 && s.tim.parent = 0x1F && !s.tim.holdover then
      { s with tim.holdover := true, tim.locked := false, tim.good := 0, tim.bad := 0 }.event 16 2 0
    else s)

/-- PPS_EDGE (R323). -/
def execPpsEdge (stamp : MacStamp) (high : Nat) (s : State) : Host.Outcome State Fault Refusal := .next (s.begin.ppsEdge stamp high)

/-- PPS_LOST (R323): no edge has been accepted for 1.5 s. -/
def execPpsLost (s : State) : Host.Outcome State Fault Refusal :=
  let s := s.begin
  .next (if s.tim.ppsLost || (s.tim.ppsAny && !s.outside s.tim.ppsStamp 1500000000) then s
    else { s with tim.ppsLost := true }.event 16 3 0)

end Sys2Proof.Machine
end

