-- ==== Sys2Proof/Machine/Die.lean ====
section
/-!
DEFINITION. Sys2Proof/Machine/Die.lean: errors of units, hearths, stacks, the supervisor and the die (01 R15–R22, 05 R113), clock
and power gating (01 R19, 11 R281), resets of contexts, hearths and the MPD, the watchdog, out of service (16 R374–R383).
-/

namespace Sys2Proof.Machine

namespace State

/-! ## Units and hearths (R16–R18, R376) -/

/-- The count of detections in a row of one operation, after one more (R16). -/
def detectedAgain (old : Word × Nat) (op : Word) : Word × Nat := (op, if old.1 = op then old.2 + 1 else 1)

/-- A unit detects an error in an operation (R16): its third detection in a row resets the hearth; a SerDes lane has no hearth,
and follows its port, which is retrained (log entry 84). -/
def unitError (s : State) (u : UnitAt) (unit : Fin 16) (op : Word) (adding : List ChunkRef) : State :=
  match u with
  | .hearth h =>
    let x := s.hearth h
    if x.role = .failed then s
    else
      let o := detectedAgain (Map.get (0, 0) x.ops unit) op
      let s := s.modHearth h fun x => { x with unitErrs := Map.mod 0 x.unitErrs unit (· + 1), ops := Map.set (0, 0) x.ops unit o }
      let s := s.event 3 10 (evSource 2 h)
      if o.2 < 3 then s else s.hearthReset h adding
  | .port p =>
    let l := portLane p + unit.val
    let o := detectedAgain (Map.get (0, 0) s.die.laneOps l) op
    let s := { s with die.laneErrs := Map.mod 0 s.die.laneErrs l (· + 1), die.laneOps := Map.set (0, 0) s.die.laneOps l o }
    let s := s.event 3 10 (evSource 8 l)
    if o.2 < 3 then s
    else if s.portUp p then s.retrain p else s

/-- A hearth fails: HRT-020, and its region runs as R18 states (R17, R376). -/
def hearthDead (s : State) (h : Nat) : State := (s.event 3 20 (evSource 2 h)).hearthFail h

/-- The structural test of a reset hearth ends (R17): it stands as the region's spare; where no spare took its role, it takes
it up again. -/
def structuralTest (s : State) (h : Nat) (pass : Bool) : State :=
  if (s.hearth h).role ≠ .resetting then s
  else if !pass then s.hearthDead h
  else
    let q := h / 17
    let working := (s.hearthsIn q .active).length + (s.hearthsIn q .outgoing).length
    s.modHearth h fun x => { x with role := if working < 16 then .active else .spare, testing := false }

/-- RST_HRT_CMD written (R376, R386): a hearth that is marked failed, or that there is none of, answers NACK_ACCESS. -/
def hearthCommand (s : State) (rq : Req) (h : BitVec 7) (cmd : Nat) (seq : BitVec 16) (adding : List ChunkRef) : State :=
  let t := { s with rst.hrtHearth := h, rst.hrtCmd := BitVec.ofNat 2 cmd, rst.hrtSeq := seq }
  if seq = s.rst.hrtActed then t.ok rq
  else
    let t := { t with rst.hrtActed := seq }
    if cmd ≠ 1 then t.ok rq
    else if 68 ≤ h.toNat || (s.hearth h.toNat).role = .failed then s.nackAccess rq
    else ((t.event 19 2 (evSource 2 h.toNat)).hearthReset h.toNat adding).ok rq

/-! ## The supervisor and the die (R15, R21) -/

/-- A supervisor channel disagrees with the other two (R15): it goes out of service; with one out already no two agree. -/
def supervisorOdd (s : State) (i : Nat) : State :=
  if Map.get false s.die.sup i then s
  else if s.die.sup.any fun x => x.2 then s.fatalError 1
  else
    (({ s with die.sup := Map.set false s.die.sup i true }).event 2 1 (evSource 7 i)).storeSignature 3 i 7

/-! ## Clock and power gating (R19, R281) -/

/-- Work stands on a hearth of region q: a run, or staging of an open attempt. -/
def regionBusy (s : State) (q : Nat) : Bool :=
  ((List.range 17).any fun i => let e := s.engine (17 * q + i); e.running || e.finished) ||
  ctxNums.any fun n =>
    ((s.openAtt n).any fun a => a.hearths.any fun h => h / 17 = q) ||
    (s.ctx n).clr.segs.any fun x => (x.2.sramChunks ++ x.2.hbmChunks).any fun c => c.2 = q

/-- Pages of region q that something holds. -/
def regionPages (s : State) (q : Nat) : Nat :=
  let here (l : List (Nat × Nat)) : Nat := pageCount (l.filter fun x => regionOf x.1 = q)
  (s.mir.entries.map fun e => here e.2.alloc).sum + (s.alc.waiters.map fun w => here w.held).sum +
  (s.ctxs.map fun c => here c.2.clr.rootAlloc + (c.2.esc.pages.filter fun p => regionOf p.stack = q).length).sum +
  ((s.alc.dirty.filter fun r => regionOf r.stack = q).map fun r => r.count).sum

/-- Root staging of region q goes to CLEAN pages of other powered regions; its sources become DIRTY (R19). -/
def moveRoot (s : State) (q : Nat) : State :=
  ctxNums.foldl (fun (s : State) (n : Fin 16) =>
    let mine := (s.ctx n).clr.rootAlloc.filter fun x => regionOf x.1 = q
    let others := (List.range 8).filter fun i => regionOf i ≠ q && s.powered (regionOf i)
    let k := pageCount mine
    if k = 0 || (others.map s.cleanStack).sum < k || s.freeClean < k then s
    else
      let (s, l) := s.takeFrom k others
      let s := s.modCtx n fun c => { c with clr.rootAlloc := (c.clr.rootAlloc.filter fun x => regionOf x.1 ≠ q) ++ l }
      { s.makeDirty (some n) .mirror mine with alc.moved := satAdd s.alc.moved k }) s

/-- Escrow pages of region q go to CLEAN escrow pages of other powered regions (R19). -/
def moveEscrow (s : State) (q : Nat) : State :=
  ctxNums.foldl (fun (s : State) (n : Fin 16) =>
    ((s.ctx n).esc.pages.filter fun p => regionOf p.stack = q).foldl (fun (s : State) p =>
      match (List.range 8).find? fun i => regionOf i ≠ q && s.powered (regionOf i) && (s.hbm i).cleanEscrow ≠ 0 with
      | none => s
      | some i =>
        let s := (s.modHbm i fun h => { h with cleanEscrow := h.cleanEscrow - 1 }).makeDirty (some n) .escrow [(p.stack, 1)]
        let s := s.modCtx n fun c => { c with esc.pages := c.esc.pages.map fun x => if x = p then { x with stack := i } else x }
        { s with alc.moved := satInc s.alc.moved }) s) s

/-- When context n's next work in region q is predicted, in ns: its contributions the median interval after the record's
acceptance, its updates the median release interval after the last release (R281); nothing before one interval is known
(log entry 87). -/
def predicted (s : State) (n q : Nat) : List Nat :=
  let w := (s.ctx n).wd
  let units := match w.acceptedAt with
    | some t => if w.firstGaps ≠ [] && (s.openAtt n).any fun a => a.hearths.any fun h => h / 17 = q then
        [t.toNat + medianOf w.firstGaps] else []
    | none => []
  let updates := match w.lastRelease with
    | some t => if w.intervals ≠ [] && (s.entriesOf n).any fun e => e.2.alloc.any fun x => x.2 ≠ 0 && regionOf x.1 = q then
        [t.toNat + medianOf w.intervals] else []
    | none => []
  units ++ updates

/-- Nothing is predicted for region q in the next d ns (R281). -/
def quietFor (s : State) (q d : Nat) : Bool :=
  ctxNums.all fun n => (s.predicted n q).all fun t => decide (t < s.now.toNat) || decide (s.now.toNat + d ≤ t)

/-- A region is prepared for gating, and gated once it holds no page and no work (R19).  At a step boundary its root staging and
escrow pages leave it; PAGE_MOVE takes the pages of copies away. -/
def gateRegion (s : State) (q : Nat) : State :=
  let p := (s.region q).power
  if !s.kin.img.gateRegions.getLsbD q || !(p = .on || p = .gating) then s
  else if s.regionPages q = 0 && !s.regionBusy q then
    let now := s.now
    s.modRegion q fun r => { r with power := .off, gatedAt := some now }
  else
    let s := s.modRegion q fun r => { r with power := .gating }
    if s.stepBoundary then (s.moveRoot q).moveEscrow q else s

/-- A region that was gated has its power back: its spare is tested before it takes work (R258, R281); where no test can run, it
is on. -/
def wakeRegion (s : State) (q : Nat) : State :=
  let s := s.powerRegion q
  if (s.region q).power ≠ .waking || (s.region q).testing then s
  else
    let s := s.startTest q
    if (s.region q).testing then s else s.modRegion q fun r => { r with power := .on }

/-- The scheduler wakes a resource; `late` work items reached it while it was still waking (R281). -/
def wake (s : State) (r : Resource) (late : Nat) : State :=
  let s := { s with alc.lateWakes := satAdd s.alc.lateWakes late }
  match r with
  | .hearth h => s.modHearth h fun x => { x with gated := false }
  | .pll q => s.modRegion q fun x => { x with pll := .running }
  | .region q => s.wakeRegion q

/-! ## The watchdog, the MPD, out of service (R377–R383) -/

/-- A ready task of a context is unfinished at the end of its window (R380): RST-010 names the task by its kind, in R379's
order, and its item. -/
def watchdog (s : State) (c : Fin 16) (task : Nat) (item : BitVec 32) : State :=
  let x := s.ctx c
  let st := x.life.st
  let early := match s.rst.mpdBack with | some t => !s.outside t (x.wd.limit.toNat * 1000000) | none => false
  if !x.wd.armed || !s.rst.mpdUp || early || !(st = .active || st = .quiesced || st = .evicting) then s
  else (s.record 19 10 (evSource 5 c) 0 (BitVec.ofNat 32 (task + 1)) item).contextReset c 3

/-- RST_CTX_CMD written (R374, R386): an endpoint resets its own context, a management path any; the answer leaves before the
reset. -/
def resetCommand (s : State) (rq : Req) (c : Fin 16) (cmd : Nat) (seq : BitVec 16) : State :=
  if !management rq && rq.ctx ≠ c then s.nackAccess rq
  else
    let t := { s with rst.ctxCmdCtx := BitVec.ofNat 4 c, rst.ctxCmd := BitVec.ofNat 2 cmd, rst.ctxCmdSeq := seq }
    if seq = s.rst.ctxCmdActed then t.ok rq
    else
      let t := ({ t with rst.ctxCmdActed := seq }).ok rq
      if cmd = 1 then t.contextReset c (if management rq then 2 else 1) else t

/-- CLEAR of RST_OOS_CMD (R383). -/
def clearOos (s : State) : State :=
  let s := { s with rst := { s.rst with oos := false, drained := false, oosCause := 0, counting := [] }, tst.draining := false }
  ((s.setTally 30 0).journalWrite).event 19 32 0

/-- RST_OOS_CMD written (R381, R383, R386). -/
def oosCommand (s : State) (rq : Req) (cmd : Nat) (seq : BitVec 16) : State :=
  let t := { s with rst.oosCmd := BitVec.ofNat 2 cmd, rst.oosSeq := seq }
  if seq = s.rst.oosActed then t.ok rq
  else
    let t := { t with rst.oosActed := seq }
    match cmd with
    | 1 => (t.outOfService 4).ok rq
    | 2 => if s.allEmpty then t.clearOos.ok rq else s.nackAccess rq
    | _ => t.ok rq

/-- RST_EVICT_END has come: the contexts still EVICTING go WIPING (R382). -/
def evictionEnd (s : State) : State :=
  if s.rst.evictEnd = 0 || decide (s.now.toNat < s.rst.evictEnd.toNat) then s
  else
    ctxNums.foldl (fun (s : State) (n : Fin 16) =>
      if (s.ctx n).life.st = .evicting then s.goWiping n else s) { s with rst.evictEnd := 0 }

end State

/-! ## The commands: units, hearths, the supervisor -/

/-- UNIT_ERROR_DETECTED (R16): an error in operation `op` of a unit; `adding`: the chunks its hearth works on. -/
def execUnitErrorDetected (u : UnitAt) (unit : Fin 16) (op : Word) (adding : List ChunkRef) (s : State) :
    Host.Outcome State Fault Refusal := .next (s.begin.unitError u unit op adding)

/-- HEARTH_RESET_CMD (R376). -/
def execHearthResetCmd (rq : Req) (h : BitVec 7) (seq : BitVec 16) (adding : List ChunkRef) (s : State) :
    Host.Outcome State Fault Refusal :=
  .next (s.begin.control rq false .both fun s => s.hearthCommand rq h 1 seq adding)

/-- HEARTH_RESET_TIMEOUT (R376): a hearth has not completed its reset within 100 µs. -/
def execHearthResetTimeout (h : Fin 68) (s : State) : Host.Outcome State Fault Refusal :=
  let s := s.begin
  .next (if (s.hearth h).role = .resetting then s.hearthDead h else s)

/-- STRUCTURAL_TEST_DONE (R17). -/
def execStructuralTestDone (h : Fin 68) (pass : Bool) (s : State) : Host.Outcome State Fault Refusal :=
  .next (s.begin.structuralTest h pass)

/-- SUPERVISOR_DISAGREE (R15). -/
def execSupervisorDisagree (i : Fin 3) (s : State) : Host.Outcome State Fault Refusal := .next (s.begin.supervisorOdd i)

/-- FATAL_DIE_ERROR (R21): causes 1 SUPERVISOR, 2 NOC, 3 VAULT, 4 ROM, in order. -/
def execFatalDieError (cause : Fin 4) (s : State) : Host.Outcome State Fault Refusal :=
  let s := s.begin
  .next (match s.kin.power with
    | .off | .railLost => s
    | _ => s.fatalError (cause + 1))

/-- HBM_STACK_FAIL (R20). -/
def execHbmStackFail (i : Fin 8) (s : State) : Host.Outcome State Fault Refusal := .next (s.begin.stackFail i)

/-- TABLE_REBUILD_DONE (R113). -/
def execTableRebuildDone (s : State) : Host.Outcome State Fault Refusal := .next { s.begin with mir.rebuild := false }

/-! ## The commands: gating -/

/-- REGION_POWER_GATE (R19). -/
def execRegionPowerGate (q : Fin 4) (s : State) : Host.Outcome State Fault Refusal := .next (s.begin.gateRegion q)

/-- RESOURCE_WAKE (R281). -/
def execResourceWake (r : Resource) (late : Nat) (s : State) : Host.Outcome State Fault Refusal := .next (s.begin.wake r late)

/-- HEARTH_CLOCK_GATE (R281): a hearth idle for GATE_IDLE (in 0.1 µs), in a region for which nothing is predicted within
400 ns. -/
def execHearthClockGate (h : Fin 68) (s : State) : Host.Outcome State Fault Refusal :=
  let s := s.begin
  let e := s.engine h
  let idle := s.outside (s.hearth h).idleSince (100 * s.alc.gateIdle.toNat)
  let busy := e.running || e.finished || (s.hearth h).testing
  .next (if busy || !idle || !s.quietFor (h / 17) 400 then s else s.modHearth h fun x => { x with gated := true })

/-- PLL_STOP (R281): nothing is predicted within 50 µs, or (`cold`) within 10 ms. -/
def execPllStop (q : Fin 4) (cold : Bool) (s : State) : Host.Outcome State Fault Refusal :=
  let s := s.begin
  let within := if cold then 10000000 else 50000
  .next (if s.regionBusy q || !s.quietFor q within then s else s.modRegion q fun r => { r with pll := if cold then .cold else .warm })

/-! ## The commands: resets -/

/-- RESET (R374, R375). -/
def execCtxReset (rq : Req) (c : Fin 16) (seq : BitVec 16) (s : State) : Host.Outcome State Fault Refusal :=
  .next (s.begin.control rq false .both fun s => s.resetCommand rq c 1 seq)

/-- TASK_RELEASE_TIMEOUT (R375): 1 ms after a context reset a hearth still holds one of its tasks. -/
def execTaskReleaseTimeout (h : Fin 68) (adding : List ChunkRef) (s : State) : Host.Outcome State Fault Refusal :=
  .next (s.begin.hearthReset h adding)

/-- RESET_NOTE_RECEIVED (R378). -/
def execResetNoteReceived (rq : Req) (node : BitVec 16) (ep : BitVec 32) (s : State) : Host.Outcome State Fault Refusal :=
  .next (s.message rq fun s => if (s.ctx rq.ctx).life.stepRoot then s.takeResetNote rq.ctx node ep else s)

/-- WATCHDOG_EXPIRY (R380). -/
def execWatchdogExpiry (c : Fin 16) (task : Fin 6) (item : BitVec 32) (s : State) : Host.Outcome State Fault Refusal :=
  .next (s.begin.watchdog c task item)

/-! ## The commands: the MPD -/

/-- MPD_HEARTBEAT (R377). -/
def execMpdHeartbeat (s : State) : Host.Outcome State Fault Refusal :=
  let s := s.begin
  .next (if s.rst.mpdUp then { s with rst.lastBeat := some s.now } else s)

/-- MPD_HEARTBEAT_TIMEOUT (R377): 1 s without a heartbeat restarts the MPD alone. -/
def execMpdHeartbeatTimeout (s : State) : Host.Outcome State Fault Refusal :=
  let s := s.begin
  let silent := match s.rst.lastBeat with | some t => s.outside t second | none => true
  .next (if s.rst.mpdUp && silent then
      (({ s with rst.mpdUp := false, rst.lastBeat := some s.now, rst.mpdRestarts := satInc s.rst.mpdRestarts }).bumpTally 10).event 19 20 0
    else s)

/-- MPD_RESTART_DONE (R377): the firmware is back; each watchdog window starts again in full. -/
def execMpdRestartDone (s : State) : Host.Outcome State Fault Refusal :=
  let s := s.begin
  .next (if s.rst.mpdUp then s else { s with rst.mpdUp := true, rst.lastBeat := some s.now, rst.mpdBack := some s.now })

/-- MPD_RESTART_TIMEOUT (R377): the firmware is not back within 2 s. -/
def execMpdRestartTimeout (s : State) : Host.Outcome State Fault Refusal :=
  let s := s.begin
  let late := match s.rst.lastBeat with | some t => s.outside t (2 * second) | none => true
  .next (if s.rst.mpdUp || !late then s else s.recover 5)

/-! ## The commands: out of service -/

/-- ENTER (R381). -/
def execOosEnter (rq : Req) (seq : BitVec 16) (s : State) : Host.Outcome State Fault Refusal :=
  .next (s.begin.control rq false .both fun s => s.oosCommand rq 1 seq)

/-- OOS_CLEAR (R383). -/
def execOosClear (rq : Req) (seq : BitVec 16) (s : State) : Host.Outcome State Fault Refusal :=
  .next (s.begin.control rq false .both fun s => s.oosCommand rq 2 seq)

/-- EVICTION_END (R382). -/
def execEvictionEnd (s : State) : Host.Outcome State Fault Refusal := .next s.begin.evictionEnd

end Sys2Proof.Machine
end

