-- ==== Sys2Proof/Machine/Links.lean ====
section
/-!
DEFINITION. Sys2Proof/Machine/Links.lean: the commands of the links (12), of their keys (14 R341, R342), of verdicts (09 R225) and
of spill peers (11 R275).
-/

namespace Sys2Proof.Machine

namespace State

/-! ## Port states (R296, R297) -/

/-- Lanes of a width code (R287, R306). -/
def widthLanes (w : BitVec 3) : Nat :=
  match w.toNat with
  | 1 => 2
  | 2 => 4
  | 3 => 8
  | 4 => 16
  | _ => 0

/-- Port p is the anchor of a configured link, or a tray port. -/
def isAnchor (s : State) (p : Nat) : Bool := (s.port p).state ≠ .member && (s.port p).mode ≠ 3 && (s.port p).width ≠ 0

/-- An Osfel-L port's module reports ModuleReady, state 3 of CMIS (R304; log entry 33). -/
def moduleReady (s : State) (p : Nat) : Bool :=
  (s.port p).mode ≠ 2 || ((linkPorts p (s.port p).width).all fun q => (s.port q).modPresent && (s.port q).modState = 3)

/-- Calibration begins: DOWN → TRAINING (R296, R304); a tray port without an accelerator stays DOWN (R30). -/
def beginTraining (s : State) (p : Nat) : State :=
  let q := s.port p
  if s.linksTrain && q.state = .down && q.enable && s.isAnchor p && s.moduleReady p && (decide (9 ≤ p) || q.fitted) then
    (s.modPort p fun q => { q with state := .training, retryDue := false }).linkChanged
  else s

/-- The widest permitted number of lanes (R287) that `n` common working lanes provide. -/
def agreedLanes (n : Nat) : Nat := if 16 ≤ n then 16 else if 8 ≤ n then 8 else if 4 ≤ n then 4 else if 2 ≤ n then 2 else 0

/-! ## Link hello (R298, R299, R341) -/

/-- A received HELLO read by its layout; a revision-2 hello lacks the topology digest (R298, R300). -/
def parseHello (b : Bytes) : Hello :=
  let osfel := BitVec.ofNat 8 (Bytes.le b 4 1)
  let at0 := if osfel = 2 then 0x28 else 0x48
  let n := Bytes.le b at0 4
  { osfel := osfel, role := BitVec.ofNat 8 (Bytes.le b 5 1), portIdx := BitVec.ofNat 8 (Bytes.le b 6 1)
    shape := BitVec.ofNat 8 (Bytes.le b 7 1), pos := Bytes.word b 8, expect := Bytes.word b 0x10, coord := Bytes.word b 0x18
    firmware := BitVec.ofNat 32 (Bytes.le b 0x20 4), packageEpoch := BitVec.ofNat 32 (Bytes.le b 0x24 4)
    topoDigest := if osfel = 2 then 0 else Bytes.digest b 0x28, chain := (b.drop (at0 + 8)).take n
    ek := (b.drop (at0 + 8 + n)).take 1568, raw := b }

/-- The key of a HELLO's sender: its chain verified against the Gelvoger roots for an Azard, the trusted roots of other
parties otherwise, and its signature over every earlier byte (R341). -/
def helloKey (s : State) (h : Hello) : Option Bytes :=
  let key := if h.role = 0 then Config.gelvogerKey h.chain else s.kin.img.roots.findSome? fun r => Config.chainKey r h.chain
  match key with
  | none => none
  | some k =>
    if h.raw.take 4 = [0x41, 0x5A, 0x48, 0x4C] &&
        Config.falconVerify k (h.raw.take (h.raw.length - 1280)) (h.raw.drop (h.raw.length - 1280)) then some k
    else none

/-- Check 6 of R299 on two coordinate words; `long`: the link is Osfel-L. -/
def coordOk (a b : Word) (long : Bool) : Bool :=
  let diff (x : Nat) : Nat := (coAxis a x - coAxis b x) + (coAxis b x - coAxis a x)
  let site := a.extractLsb' 52 2 = b.extractLsb' 52 2
  let near : Bool := if a.getLsbD 51 then decide (diff 0 = 1)
    else
      match [0, 1, 2].filter fun x => diff x ≠ 0 with
      | [x] => decide (diff x = 1) || (a.getLsbD (48 + x) && decide (diff x = coLen a x - 1))
      | _ => false
  near && (site || long)

/-- The first check of R299 that a HELLO fails, as QCAUSE; 0 when checks 1 to 6 pass.  No revision-2 peer is an Osfel-L end
(R300). -/
def helloCheck (s : State) (p : Nat) (h : Hello) : Nat :=
  let q := s.port p
  let e := q.expect
  if (s.helloKey h).isNone then 1
  else if !(h.osfel = 3 || (h.osfel = 2 && 9 ≤ p && q.mode ≠ 2)) then 2
  else if h.shape ≠ shapeByte q then 3
  else if e.msb && !(h.pos = barePos e && (e.getLsbD 47 || h.portIdx.toNat = (e.extractLsb' 42 5).toNat)) then 4
  else if e.msb && h.expect.msb && h.osfel = 3 && h.topoDigest ≠ topoDigestOf s.fabric.selfPos e then 5
  else if 9 ≤ p && h.role = 0 && !coordOk s.fabric.selfCoord h.coord (q.mode = 2) then 6
  else 0

/-- This end initiates the key exchange: the lower position word, and Azard on a tray link (R298). -/
def initiates (s : State) (p : Nat) (h : Hello) : Bool := p < 9 || decide (s.fabric.selfPos.toNat < h.pos.toNat)

/-- Key material of a link (R341). -/
def linkKeys (secret : Digest) (hi hr : Digest) : Bytes :=
  shake256 ([0x41, 0x5A, 0x4C, 0x4B] ++ digestBytes secret ++ digestBytes hi ++ digestBytes hr) 128

/-- What FINISH carries: the digests of the initiator's and the responder's HELLO (R341). -/
def finishBytes (s : State) (p : Nat) (h : Hello) : Digest × Digest :=
  let mine := hash256 (s.port p).helloSent
  let other := hash256 h.raw
  if s.initiates p h then (mine, other) else (other, mine)

/-- The link keys are set and FINISH goes out as the first encrypted packet (R341). -/
def setKeys (s : State) (p : Fin 25) (h : Hello) (secret : Digest) : State :=
  let (hi, hr) := s.finishBytes p h
  let k := linkKeys secret hi hr
  let d (o : Nat) : Digest := Bytes.digest k o
  let w (o : Nat) : BitVec 32 := BitVec.ofNat 32 (Bytes.le k o 4)
  let init := s.initiates p h
  let s := s.modPort p fun q => { q with
    keyOut := d (if init then 0 else 32), keyIn := d (if init then 32 else 0)
    saltOut := w (if init then 64 else 68), saltIn := w (if init then 68 else 64)
    captureKey := if p.val < 9 then d 72 else 0, keysSet := true, finishSent := true, finishGot := false, nonceIn := 0 }
  let s := { s with egress := Map.mod {} s.egress p.val fun e => { e with nonce := 0 } }
  -- the Yobel at a tray link's other end holds the same keys, turned about, and the capture key (R172, R189)
  let s := s.modLinkEnd p fun v =>
    let g := s.port p
    { v with captureKey := g.captureKey
             link := { v.link with keyOut := g.keyIn, keyIn := g.keyOut, saltOut := g.saltIn, saltIn := g.saltOut, keysSet := true
                                   finishSent := false, finishGot := true } }
  s.send { dest := .link p, op := .msg, kind := 3, data := digestBytes hi ++ digestBytes hr }

/-- A HELLO that passes the checks: the peer is noted, and the key exchange begins where this end initiates it (R298, R299,
R302). -/
def helloPass (s : State) (p : Fin 25) (h : Hello) (key : Bytes) : State :=
  let q := s.port p
  let subject := hash256 key
  let pos := barePos h.pos ||| BitVec.ofNat 64 (h.portIdx.toNat % 32 * 4398046511104)
  let differs := q.everPeer && (q.peerSubject ≠ subject || barePos q.peerPos ≠ barePos h.pos)
  -- another device identity than the flagged one has been fitted (R252)
  let s := if p.val < 9 && (s.tstPort p).flagged && q.everPeer && q.peerSubject ≠ subject then
      s.modTstPort p fun t => { t with flagged := false }
    else s
  let fw := s.kin.fwVersion
  let s := s.modPort p fun q => { q with
    helloGot := some { h with key := key }, peerOsfel := h.osfel.setWidth 4, peerPos := pos, peerCoord := h.coord
    peerFw := h.firmware, peerRole := h.role.setWidth 2, fwDiff := h.firmware ≠ fw, peerSubject := subject
    peerSerial := Bytes.word h.chain 8, everPeer := true, rewireDue := q.rewireDue || differs }
  let s := if q.expect.msb then s else s.event 15 10 (evSource 1 p)
  if s.initiates p h then
    let (ct, secret) := Config.kemEncap h.ek s.free
    let s := s.useFree
    let m := [0x41, 0x5A, 0x4B, 0x58] ++ Bytes.at ct 0 1568
    let sig := Bytes.at (Config.falconSign s.sec.identityKey m) 0 1280
    (s.send { dest := .link p, op := .msg, kind := 2, data := m ++ sig }).setKeys p h secret
  else s

/-- A HELLO arrives (R299). -/
def takeHello (s : State) (p : Fin 25) (b : Bytes) : State :=
  if (s.port p).state ≠ .hello || (s.port p).helloGot.isSome then s
  else
    let s := s.modLinkEnd p fun v => { v with link := { v.link with helloOut := b } }
    let h := parseHello b
    let c := s.helloCheck p h
    match s.helloKey h with
    | some k => if c = 0 then s.helloPass p h k else s.quarantine p c
    | none => s.quarantine p 1

/-- The conformance probe of a tray port starts: YBL_ID is read, the probe area and YBL_PROBE_CMD are written (R191). -/
def startProbe (s : State) (k : Fin 9) : State :=
  let seq := (s.port k).probeSeq + 1
  let s := s.modPort k fun q => { q with probeRunning := true, probeSeq := seq }
  let s := s.request { dest := .yobel k, op := .rd, addr := 0 }
  let s := s.request { dest := .yobel k, op := .wrc, addr := 4 * 17592186044416 + 15 * 4294967296, data := Config.probeArea }
  s.yobelWr k 0x700 (natLe 8 seq.toNat)

/-- Contexts that are ACTIVE or QUIESCED. -/
def liveCtxs (s : State) : List Nat := (List.range 16).filter fun n => (s.ctx n).life.st = .active || (s.ctx n).life.st = .quiesced

/-- A hello shows a newer package epoch of the Azard at a position: each context that has it in its slice learns (R378). -/
def peerReset (s : State) (pos : Word) (ep : BitVec 32) : State :=
  s.liveCtxs.foldl (fun (s : State) n =>
    match (s.ctx n).life.charter.nodes.find? fun x => x.role = 0 && posEq x.pos pos with
    | some x => s.learnReset n x.lnode ep.toNat
    | none => s) s

/-- A FINISH arrives (R341): the port leaves HELLO when it verifies; a tray port then runs the conformance probe. -/
def takeFinish (s : State) (p : Fin 25) (d : Bytes) : State :=
  let q := s.port p
  match q.state, q.helloGot with
  | .hello, some h =>
    let (hi, hr) := s.finishBytes p h
    -- no link leaves HELLO while the security block is in ERROR (R329)
    if q.finishGot || s.sec.error then s
    else if !q.keysSet || d ≠ digestBytes hi ++ digestBytes hr then (s.dropKeys p).quarantine p 1
    else
      let s := s.modPort p fun q => { q with finishGot := true, nonceIn := 1, peerEpoch := h.packageEpoch }
      let s := s.modLinkEnd p fun v => { v with link := { v.link with finishSent := true } }
      let s := if q.peerEpoch ≠ 0 && q.peerEpoch ≠ h.packageEpoch && !q.rewireDue then s.peerReset h.pos h.packageEpoch else s
      if p.val < 9 then s.startProbe (trayFin p) else s.linkUp p
  | _, _ => s

/-- A KEYX arrives at the end that does not initiate (R341). -/
def takeKeyx (s : State) (p : Fin 25) (ct sig : Bytes) : State :=
  let q := s.port p
  match q.state, q.helloGot with
  | .hello, some h =>
    if q.keysSet || s.initiates p h then s
    else if !Config.falconVerify h.key ([0x41, 0x5A, 0x4B, 0x58] ++ ct) sig then s.quarantine p 1
    else
      let n := q.helloSent.length
      let ek := (q.helloSent.drop (n - 1280 - 1568)).take 1568
      s.setKeys p h (Config.kemDecap ek ct)
  | _, _ => s

/-- The lanes among the first `full` that work, lowest first. -/
def workingLanes (lanes : BitVec 16) (full : Nat) : List Nat := (List.range full).filter fun j => lanes.getLsbD j

/-- The signatures of lanes of a port (R261), numbered from its first lane (R263). -/
def laneSignatures (s : State) (p : Fin 25) (failed : List Nat) : State :=
  failed.foldl (fun (s : State) j => s.storeSignature 2 (portLane p + j) 8) s

/-- Calibration has ended with `lanes` working: a signature is stored for each configured lane that failed (R261); the lowest of
the working lanes carry the agreed width, and HELLO is sent (R296–R298); fewer than 2 leave the port in TRAINING (R297). -/
def linkLock (s : State) (p : Fin 25) (lanes : BitVec 16) : State :=
  let q := s.port p
  let full := widthLanes q.width
  let w := workingLanes lanes full
  let n := agreedLanes w.length
  if q.state ≠ .training then s
  else
  let s := s.laneSignatures p ((List.range full).filter fun j => !lanes.getLsbD j)
  if n = 0 then s
  else
    let s := s.modPort p fun q =>
      { q with state := .hello, retrainDue := false, lanes := BitVec.ofNat 5 n, degraded := decide (n < full)
               laneSet := BitVec.ofNat 16 ((w.take n).foldl (fun (a : Nat) j => a + 2 ^ j) 0) }
    let s := if n < full then s.event 15 3 (evSource 1 p) else s
    let s := s.linkChanged
    -- a port that locks in stage 4 says hello once stages 4 and 5 have ended (R355)
    if s.linksHello then s.sendHello p else s

/-! ## Codewords (R289–R293, R303) -/

/-- A packet that the port carries in its state: a QUARANTINE or HELLO port carries link-local traffic only (R296). -/
def carries (q : Port) (x : Packet) : Bool :=
  match q.state with
  | .up => !(x.req.ctxv && q.closedFor.contains x.req.ctx.val)
  | .hello | .quarantine => !x.req.ctxv
  | _ => false

/-- A packet whose CRC is good: its tag, its OP, and what no other command answers (R292, R402–R404): a packet for another
node of its context goes on by the route; a request to a space that Azard does not decode answers NACK_ADDRESS. -/
def takePacket (s : State) (p : Fin 25) (x : Packet) : State :=
  let s := s.modPort p fun q => { q with nonceIn := q.nonceIn + 1, rx := satAdd q.rx x.bytes, heard := s.now }
  if !carries (s.port p) x then s
  else if !x.tagOk then (s.modPort p fun q => { q with crcFail := satInc q.crcFail }).event 15 5 (evSource 1 p)
  else if !x.opKnown then s.modPort p fun q => { q with crcFail := satInc q.crcFail }
  else if x.req.ctxv && x.req.node ≠ (s.ctx x.req.ctx).life.self then
    if !s.sourceOk p x.req then s.sourceDrop p
    else if s.rst.drained && x.vc ≠ 2 then s
    else s.send { dest := .node x.req.ctx x.req.node, op := x.op, addr := x.space.toNat * 17592186044416
                  transit := some { vc := x.vc, source := x.req.source, bytes := x.bytes } }
  else if 6 ≤ x.space.toNat && x.op ≠ .resp && x.op ≠ .msg then 
    let rq := { x.req with path := .port p }
    s.judge rq false fun s => s.nackAddress rq
  else s

/-- The coins that a codeword's packets take in the receive buffer, in all and by VC (R283, R306; log entry 32). -/
def noteCoins (q : Port) (xs : List Packet) : Port :=
  let n := BitVec.ofNat 16 ((xs.map fun x => packetCoins x.bytes).sum)
  { q with
    qNow := n, qMax := if q.qMax.toNat < n.toNat then n else q.qMax
    vcq := xs.foldl (fun m x => Map.set 0 m x.vc.toNat (Map.get 0 m x.vc.toNat + BitVec.ofNat 16 (packetCoins x.bytes))) [] }

/-- A resend from `seq` (R293): 8 in a row of one codeword, or more than 64 in a millisecond of device time, retrain. -/
def resend (s : State) (p : Nat) (seq : BitVec 16) : State :=
  let ms := s.now.toNat / 1000000
  let s := s.modPort p fun q => { q with
    retries := satInc q.retries
    resendTries := if q.resendSeq = seq && q.resendTries ≠ 0 then q.resendTries + 1 else 1
    resendSeq := seq
    resendsInMs := if q.resendMs = ms then q.resendsInMs + 1 else 1
    resendMs := ms }
  if 8 ≤ (s.port p).resendTries || 64 < (s.port p).resendsInMs then (s.event 15 4 (evSource 1 p)).retrain p else s

/-- A codeword on an Osfel-T or Osfel-F link (R293). -/
def takeRetryCodeword (s : State) (p : Fin 25) (c : Codeword) : State :=
  let lost := !c.correctable || c.packets.any fun x => !x.crcOk
  let bad := (c.packets.filter fun x => !x.crcOk).length
  let s := s.modPort p fun q => { q with
    corrected := if c.correctable && c.corrected then satInc q.corrected else q.corrected
    crcFail := if c.correctable then satAdd q.crcFail bad else q.crcFail }
  let q := s.port p
  let s := if lost then
      let s := s.modPort p fun q => { q with uncorrected := satInc q.uncorrected }
      if q.discarding then s else s.modPort p fun q => { q with nackDue := true, discarding := true }
    else if c.seq ≠ q.rxSeq then s
    else
      let s := s.modPort p fun q =>
        noteCoins { q with rxSeq := c.seq + 1, lastGood := c.seq, nackDue := false, discarding := false } c.packets
      let s := s.returnCoins p c.coinVc c.coins.toNat
      c.packets.foldl (fun (s : State) x => s.takePacket p x) s
  let s := if c.correctable then s.ackRetry p c.ack else s
  if c.correctable && c.nack then s.resend p (c.ack + 1) else s

/-- REPLAY_ACK (R303): the newest RSN received in order, with GAP. -/
def sendReplayAck (s : State) (p : Fin 25) : State :=
  let q := s.port p
  s.send { dest := .link p, op := .msg, kind := 9, args := [(q.rsnIn - 1).toNat, bit q.gapDue] }

/-- A packet on an Osfel-L link: delivered in RSN order; what follows a gap is discarded (R303).  Time exchange and replay
acknowledgements carry no RSN (VC3). -/
def takeReplayPacket (s : State) (p : Fin 25) (x : Packet) : State :=
  let q := s.port p
  if x.vc = 3 then (if x.crcOk then s.takePacket p x else s.modPort p fun q => { q with crcFail := satInc q.crcFail })
  else if !x.crcOk || !x.tagOk then
    let s := s.modPort p fun q => { q with crcFail := satInc q.crcFail }
    if x.crcOk then s.event 15 5 (evSource 1 p) else s
  else if x.rsn = q.rsnIn then (s.modPort p fun q => { q with rsnIn := q.rsnIn + 1, gapDue := false }).takePacket p x
  else if q.rsnIn.toNat < x.rsn.toNat && !q.gapDue then (s.modPort p fun q => { q with gapDue := true }).sendReplayAck p
  else s

/-- A codeword on an Osfel-L link (R303). -/
def takeReplayCodeword (s : State) (p : Fin 25) (c : Codeword) : State :=
  if !c.correctable then s.modPort p fun q => { q with uncorrected := satInc q.uncorrected }
  else
    let s := s.modPort p fun q => noteCoins { q with corrected := if c.corrected then satInc q.corrected else q.corrected } c.packets
    let s := s.returnCoins p c.coinVc c.coins.toNat
    c.packets.foldl (fun (s : State) x => s.takeReplayPacket p x) s

/-- A codeword arrives. -/
def takeCodeword (s : State) (p : Fin 25) (c : Codeword) : State :=
  match (s.port p).state with
  | .up | .hello | .quarantine => if (s.port p).mode = 2 then s.takeReplayCodeword p c else s.takeRetryCodeword p c
  | _ => s

/-- An Osfel-L sender resends from the oldest unacknowledged RSN (R303): 16 resends of one RSN retrain the link. -/
def goBack (s : State) (p : Nat) : State :=
  let s := s.modPort p fun q => { q with gobacks := satInc q.gobacks, rsnTries := q.rsnTries + 1 }
  if 16 ≤ (s.port p).rsnTries then (s.retrain p).modPort p fun q => { q with modRestart := true } else s

/-! ## Announcements (R301) -/

/-- Entries of the announcement table (R301). -/
def topoMax : Nat := 8448

/-- An announcement arrives on a port: the newest of each position is kept and forwarded (R301). -/
def takeTopo (s : State) (p : Fin 25) (t : Topo) : State :=
  let s := { s with fabric.received := satInc s.fabric.received }
  let mine := posEq t.pos s.fabric.selfPos
  let old := s.fabric.topo.find? fun x => posEq x.pos t.pos
  let fresh := match old with | some x => decide (x.seq < t.seq) | none => decide (s.fabric.topo.length < topoMax)
  let s := if posEq t.pos (s.port p).peerPos then (s.modPort p fun q => { q with peerOos := t.outOfService }).judgeVerdict p else s
  if mine || !fresh then s
  else
    let s := { s with fabric.topo := (s.fabric.topo.filter fun (x : Topo) => !posEq x.pos t.pos) ++ [t] }
    (s.fabricUp.filter fun q => q ≠ p).foldl (fun (s : State) q => s.send { dest := .link q, op := .msg, kind := 4, args := topoArgs t }) s

/-- A context's traffic routes over port p: an accelerator bound there, or a route to another Azard of the slice (R301,
R306). -/
def routesOver (s : State) (n p : Nat) : Bool :=
  ((s.ctx n).bind.bound.any fun b => b.2.toNat = p && p < 9) ||
  (match s.slice n with
    | none => false
    | some sl => match sl.find? fun x => posEq x.pos s.fabric.selfPos with
      | none => false
      | some u => sl.any fun v => match s.route sl u v with
        | some (_ :: x :: _) => s.portTo x.pos = some p
        | _ => false)

/-! ## Modules (R304) -/

/-- A module on FP12–FP15 reports: its flags, state and temperature; a fault retrains an UP link, LNK-030. -/
def pollModule (s : State) (p : Nat) (present : Bool) (st : BitVec 3) (fault : Bool) (temp : BitVec 8) : State :=
  if p < 21 then s
  else
    let s := s.modPort p fun q => { q with modPresent := present, modState := st, modFault := q.modFault || fault, modTemp := temp }
    let s := if present && st = 3 then s.modPort (s.port p).anchor.toNat fun q => { q with modRestart := false } else s
    let a := (s.port p).anchor.toNat
    if fault && (s.port a).mode = 2 && s.portUp a then (s.event 15 30 (evSource 1 p)).retrain a else s

end State

/-! ## The commands -/

/-- LIVENESS_TIMER (R225): the time since the last frame, or out of UP, is judged. -/
def execLivenessTimer (p : Fin 25) (s : State) : Host.Outcome State Fault Refusal := .next (s.begin.judgeVerdict p)

/-- Pilot-only ends (R429): the rails are switched on under R425; the ports then train as their signals are detected. -/
def State.pilotWake (s : State) : State :=
  if s.kin.power = .pilotOnly then { s with kin.power := .waking, pwr.goingOff := false }.nextEnable else s

/-- LNK_CFG written (R296, R306): ENABLE is bit 12; 0 holds the port DOWN. -/
def State.linkCfg (s : State) (p : Nat) (data : Word) : State :=
  let on := data.getLsbD 12
  let s := (s.modPort p fun q => { q with enable := on }).pilotWake
  if on || (s.port p).state = .down || (s.port p).state = .member then s else s.portLeave p .down

/-- LNK_CMD.RETRAIN (R296). -/
def State.linkRetrain (s : State) (p : Nat) : State :=
  let s := s.pilotWake
  if (s.port p).state = .up || (s.port p).state = .quarantine then
    (s.retrain p).modPort p fun q => { q with retrainDue := true }
  else s

/-- LNK_CMD.CLEAR (R306). -/
def State.linkClear (s : State) (p : Nat) : State :=
  s.modPort p fun q => { q with corrected := 0, uncorrected := 0, crcFail := 0, retries := 0, qMax := 0 }

/-- LNK_EXPECT written (R306): none while a live context routes over the port. -/
def State.linkExpect (s : State) (p : Nat) (data : Word) : Option State :=
  if s.liveCtxs.any fun n => s.routesOver n p then none else some (s.modPort p fun q => { q with expect := data })

/-- LNK_SELF_COORD written (R307): none while a context is ACTIVE or QUIESCED; every fabric link that is UP retrains. -/
def State.selfCoordWrite (s : State) (data : Word) : Option State :=
  if s.liveCtxs ≠ [] then none
  else some (s.fabricUp.foldl (fun (s : State) (p : Fin 25) => s.retrain p) { s with fabric.selfCoord := data })

/-- LINK_CFG_WRITE (R296, R306). -/
def execLinkCfgWrite (rq : Req) (p : Fin 25) (data : Word) (s : State) : Host.Outcome State Fault Refusal :=
  .next (s.begin.control rq false .both fun s => (s.linkCfg p data).ok rq)

/-- RETRAIN (R296): LNK_CMD.RETRAIN. -/
def execLinkRetrain (rq : Req) (p : Fin 25) (s : State) : Host.Outcome State Fault Refusal :=
  .next (s.begin.control rq false .both fun s => (s.linkRetrain p).ok rq)

/-- LINK_COUNTER_CLEAR (R306): LNK_CMD.CLEAR. -/
def execLinkCounterClear (rq : Req) (p : Fin 25) (s : State) : Host.Outcome State Fault Refusal :=
  .next (s.begin.control rq false .both fun s => (s.linkClear p).ok rq)

/-- LINK_EXPECT_WRITE (R306). -/
def execLinkExpectWrite (rq : Req) (p : Fin 25) (data : Word) (s : State) : Host.Outcome State Fault Refusal :=
  .next (s.begin.control rq false .both fun s => match s.linkExpect p data with
    | some t => t.ok rq
    | none => s.nackAccess rq)

/-- SELF_COORD_WRITE (R307). -/
def execSelfCoordWrite (rq : Req) (data : Word) (s : State) : Host.Outcome State Fault Refusal :=
  .next (s.begin.control rq false .both fun s => match s.selfCoordWrite data with
    | some t => t.ok rq
    | none => s.nackAccess rq)

/-- SIGNAL_DETECT (R296): signal on the configured lanes of an enabled port; on a tray port it shows that an accelerator is
fitted (R30; log entry 83). -/
def execSignalDetect (p : Fin 25) (s : State) : Host.Outcome State Fault Refusal :=
  let s := s.begin.modPort p fun q => { q with fitted := q.fitted || decide (p.val < 9) }
  .next (if (s.port p).retryDue then s else s.beginTraining p)

/-- LINK_LOCK (R296, R297): `lanes` common working lanes have locked. -/
def execLinkLock (p : Fin 25) (lanes : BitVec 16) (s : State) : Host.Outcome State Fault Refusal :=
  .next (s.begin.linkLock p lanes)

/-- TRAINING_TIMEOUT (R296). -/
def execTrainingTimeout (p : Fin 25) (s : State) : Host.Outcome State Fault Refusal :=
  let s := s.begin
  .next (if (s.port p).state = .training then
      ((s.portLeave p .down).modPort p fun q => { q with retryDue := true }).event 15 1 (evSource 1 p)
    else s)

/-- LINK_RETRY_TIMER (R296). -/
def execLinkRetryTimer (p : Fin 25) (s : State) : Host.Outcome State Fault Refusal :=
  let s := s.begin
  .next (if (s.port p).retryDue then (s.modPort p fun q => { q with retryDue := false }).beginTraining p else s)

/-- HELLO_RECEIVED (R299). -/
def execHelloReceived (p : Fin 25) (raw : Bytes) (s : State) : Host.Outcome State Fault Refusal := .next (s.begin.takeHello p raw)

/-- HELLO_TIMEOUT (R296). -/
def execHelloTimeout (p : Fin 25) (s : State) : Host.Outcome State Fault Refusal :=
  let s := s.begin
  .next (if (s.port p).state = .hello && (s.port p).helloGot.isNone then
      (s.portLeave p .down).modPort p fun q => { q with retryDue := true }
    else s)

/-- KEYX_RECEIVED (R341). -/
def execKeyxReceived (p : Fin 25) (ct sig : Bytes) (s : State) : Host.Outcome State Fault Refusal := .next (s.begin.takeKeyx p ct sig)

/-- FINISH_RECEIVED (R341): `payload` as it decrypts. -/
def execFinishReceived (p : Fin 25) (payload : Bytes) (s : State) : Host.Outcome State Fault Refusal :=
  .next (s.begin.takeFinish p payload)

/-- LOSS_OF_LOCK (R296). -/
def execLossOfLock (p : Fin 25) (s : State) : Host.Outcome State Fault Refusal :=
  let s := s.begin
  .next (if (s.port p).state = .up || (s.port p).state = .quarantine then s.retrain p else s)

/-- CODEWORD_RECEIVED (R292, R293, R303). -/
def execCodewordReceived (p : Fin 25) (c : Codeword) (s : State) : Host.Outcome State Fault Refusal := .next (s.begin.takeCodeword p c)

/-- REPLAY_ACK_RECEIVED (R303). -/
def execReplayAckReceived (p : Fin 25) (rsn : BitVec 48) (gap : Bool) (s : State) : Host.Outcome State Fault Refusal :=
  let s := s.begin
  .next (if (s.port p).mode ≠ 2 || !s.portUp p then s
    else
      let s := s.modPort p fun q =>
        if q.rsnOut.toNat ≤ rsn.toNat then { q with rsnTries := 0, rsnOut := rsn + 1 } else q
      let s := s.ackWindow p rsn
      if gap then s.goBack p else s)

/-- REPLAY_ACK_TIMER (R303). -/
def execReplayAckTimer (p : Fin 25) (s : State) : Host.Outcome State Fault Refusal :=
  let s := s.begin
  .next (if (s.port p).mode = 2 && s.portUp p then s.sendReplayAck p else s)

/-- REPLAY_TIMEOUT (R303): no acknowledgement has advanced the window of a sender that holds packets. -/
def execReplayTimeout (p : Fin 25) (s : State) : Host.Outcome State Fault Refusal :=
  let s := s.begin
  .next (if (s.port p).mode = 2 && s.portUp p && (s.out p).window ≠ [] then s.goBack p else s)

/-- MODULE_POLL (R304). -/
def execModulePoll (p : Fin 25) (present : Bool) (st : BitVec 3) (fault : Bool) (temp : BitVec 8) (s : State) :
    Host.Outcome State Fault Refusal := .next (s.begin.pollModule p present st fault temp)

/-- MODULE_READY_TIMEOUT (R304). -/
def execModuleReadyTimeout (p : Fin 25) (s : State) : Host.Outcome State Fault Refusal :=
  let s := s.begin
  .next (if (s.port p).mode = 2 && (s.port p).state = .down && !s.moduleReady p then s.event 15 30 (evSource 1 p) else s)

/-- TOPO_RECEIVED (R301). -/
def execTopoReceived (p : Fin 25) (t : Topo) (s : State) : Host.Outcome State Fault Refusal :=
  let s := s.begin
  .next (if 9 ≤ p.val && s.portUp p then s.takeTopo p t else s)

/-- TOPO_TIMER (R301): once a second, and whenever a link has changed state. -/
def execTopoTimer (s : State) : Host.Outcome State Fault Refusal :=
  let s := s.begin
  .next (if s.kin.power = .ready then s.announce else s)

/-- NONCE_COUNTER_LIMIT (R342): a counter nears 2⁴⁸; new keys come with a new hello. -/
def execNonceCounterLimit (p : Fin 25) (s : State) : Host.Outcome State Fault Refusal :=
  let s := s.begin
  .next (if s.portUp p then s.retrain p else s)

/-- LANE_RECALIBRATE (R390): the lanes in turn; `held` says that the lane's margin holds; where it does not, a signature of the
lane is stored (R261) and the link retrains. -/
def execLaneRecalibrate (p : Fin 25) (held : Bool) (s : State) : Host.Outcome State Fault Refusal :=
  let s := s.begin
  .next (if !s.portUp p then s
    else if !held then
      (s.laneSignatures p (((State.workingLanes (s.port p).laneSet 16)[(s.port p).nextLane]?).toList)).retrain p
    else s.modPort p fun q => { q with nextLane := (q.nextLane + 1) % q.lanes.toNat })

/-- EPOCH_CHANGED_EXPIRY (R225). -/
def execEpochChangedExpiry (p : Fin 25) (s : State) : Host.Outcome State Fault Refusal :=
  .next ((s.begin.modPort p fun q => { q with epochChanged := false }).judgeVerdict p)

/-- Where a spill peer's slot lies in the area: the peers named by the image have slots of their own (R275). -/
def State.spillSlotOf (s : State) (p slot : Nat) : Nat :=
  (if s.kin.img.spillPeer0.getLsbD 63 && State.posEq s.kin.img.spillPeer0 (s.port p).peerPos then 0 else 8192) + slot

/-- The spill area has a page for a slot: it holds one already, or fewer than SPILL_OFFER are in use (R275). -/
def State.spillRoom (s : State) (k : Nat) : Bool :=
  s.alc.spillArea.any (fun x => x.1 = k) || decide (s.alc.spillArea.length < s.alc.spillOffer.toNat)

/-- SPILL_RECEIVED (R275): a spill peer writes one page into this Azard's spill area (`data`), or has it returned. -/
def execSpillReceived (rq : Req) (slot : Nat) (data : Option Bytes) (s : State) : Host.Outcome State Fault Refusal :=
  .next (s.osfel rq fun s =>
    match rq.path with
    | .port p =>
      let k := s.spillSlotOf p slot
      if rq.ctxv || !s.isSpillPeer p then s.nackAccess rq
      else if s.alc.spillOffer.toNat ≤ slot then s.nackAddress rq
      else match data with
        | some d =>
          if !s.spillRoom k then s.nackAddress rq
          else
            let area := Map.set [] s.alc.spillArea k d
            { s with alc.spillArea := area, alc.spillIn := BitVec.ofNat 32 area.length }.ok rq
        | none => s.answer rq .ok 0 (Map.get [] s.alc.spillArea k)
    | _ => s)

end Sys2Proof.Machine
end

