-- ==== Sys2Proof/Machine/Security.lean ====
section
/-!
DEFINITION. Sys2Proof/Machine/Security.lean: the life cycle (14 R348, R349), the DRBG and its entropy source (14 R330).
-/

namespace Sys2Proof.Machine

/-- A certificate of R332, signed by the issuer's key. -/
def certificate (kind : Nat) (serial : Word) (issuerKey issuer key : Bytes) : Bytes :=
  let len := 0x80 + (key.length + 7) / 8 * 8 + 1280
  let body := [0x41, 0x5A, 0x43, 0x54] ++ natLe 2 1 ++ natLe 1 kind ++ [0] ++ natLe 8 serial.toNat ++
    digestBytes (hash256 key) ++ digestBytes (hash256 issuer) ++
    [0x41, 0x5A, 0x38, 0x2D, 0x31, 0x36, 0x30, 0x30, 0, 0, 0, 0, 0, 0, 0, 0] ++ natLe 4 key.length ++ natLe 4 len ++
    List.replicate 0x18 0 ++ Bytes.at key 0 ((key.length + 7) / 8 * 8)
  body ++ Bytes.at (Config.falconSign issuerKey body) 0 1280

/-! ## The command object (R348, R349) -/

/-- CMD codes of R349. -/
def lcEnroll : Nat := 1
def lcRotate : Nat := 2
def lcDisown : Nat := 3
def lcService : Nat := 4
def lcRetire : Nat := 5
def lcProvision : Nat := 6

/-- The state a command leads to, when the table of R348 has it. -/
def lcNext (st : LifeCycle) (cmd : Nat) : Option LifeCycle :=
  match st, cmd with
  | .retired, _ => none
  | .provisioned, 1 => some .owned
  | .owned, 2 => some .owned
  | .owned, 3 => some .provisioned
  | .provisioned, 4 => some .service
  | .owned, 4 => some .service
  | _, 5 => some .retired
  | .service, 6 => some .provisioned
  | .blank, 6 => some .provisioned
  | _, _ => none

/-- Offset of the first signer's part: after the new operator key of ENROLL and ROTATE. -/
def lcBase (cmd : Nat) : Nat := if cmd = lcEnroll || cmd = lcRotate then 0x20 + 1800 else 0x20

/-- The signers' part of an object: operator's signature, Gelvoger's chain and signature (R349). -/
inductive LcForm
  | operator
  | gelvoger
  | both
  deriving DecidableEq, Repr

/-- The signers that R348 asks of a command in a state; RETIRE in OWNED takes either, told by the object's length. -/
def lcForm (st : LifeCycle) (cmd rest : Nat) : LcForm :=
  match cmd with
  | 1 | 2 | 3 => .operator
  | 4 => if st = .owned then .both else .gelvoger
  | 5 => if st = .owned && rest = 1280 then .operator else .gelvoger
  | _ => .gelvoger

/-- Length of a signers' part. -/
def lcFormLen (f : LcForm) (rest : Bytes) : Nat :=
  match f with
  | .operator => 1280
  | .gelvoger => 8 + Bytes.le rest 0 4 + 1280
  | .both => 1280 + 8 + Bytes.le rest 1280 4 + 1280

/-- Gelvoger's part verifies over a message. -/
def gelvogerOk (msg part : Bytes) : Bool :=
  let n := Bytes.le part 0 4
  match Config.gelvogerKey ((part.drop 8).take n) with
  | some k => Config.falconVerify k msg ((part.drop (8 + n)).take 1280)
  | none => false

/-- Check FORMAT of SEC_LC_STATUS. -/
def lcFormatOk (st : LifeCycle) (cmd : Nat) (o : Bytes) : Bool :=
  let rest := o.drop (lcBase cmd)
  Bytes.le o 0 4 = 0x434C5A41 && decide (1 ≤ cmd) && decide (cmd ≤ 6) && Bytes.le o 5 3 = 0 && Bytes.le o 0x18 8 = 0 &&
  (lcBase cmd = 0x20 || Bytes.le o (0x20 + 1793) 7 = 0) && lcFormLen (lcForm st cmd rest.length) rest = rest.length

/-- Check SIGNATURE of SEC_LC_STATUS: every signer's signature over the bytes before the first signature (R349). -/
def lcSigned (st : LifeCycle) (opKey : Bytes) (cmd : Nat) (o : Bytes) : Bool :=
  let b := lcBase cmd
  let rest := o.drop b
  let key := if cmd = lcEnroll then (o.drop 0x20).take 1793 else opKey
  let op := Config.falconVerify key (o.take b) (rest.take 1280)
  match lcForm st cmd rest.length with
  | .operator => op
  | .gelvoger => gelvogerOk (o.take (b + 8 + Bytes.le rest 0 4)) rest
  | .both => op && gelvogerOk (o.take b) (rest.drop 1280)

namespace State

/-- CAUSE of SEC_LC_STATUS for a command object, 0 when it is accepted. -/
def lcCause (s : State) (cmd : Nat) (o : Bytes) : Nat :=
  if !lcFormatOk s.sec.lc cmd o then 1
  else if Bytes.le o 8 8 ≠ s.ident.serial.toNat then 2
  else if Bytes.le o 0x10 8 ≠ s.sec.nonce.toNat then 3
  else if (lcNext s.sec.lc cmd).isNone then 5
  else if !lcSigned s.sec.lc s.sec.opKey cmd o then 4
  else 0

/-- The operator key and its SUBJECT. -/
def setOperator (s : State) (k : Bytes) : State :=
  { s with sec.opKey := k, sec.opSubject := if k = [] then 0 else hash256 k }

/-- Every context that is not EMPTY is zeroised, without eviction (R350, R352). -/
def zeroContexts (s : State) : State :=
  let s := ctxNums.foldl (fun (s : State) (n : Fin 16) => if (s.ctx n).life.st = .empty then s else s.zeroised 1) s
  { s with ctxs := [], mir.entries := [], alc.dirty := [], alc.waiters := [] }

/-- Every secret is zeroised (R350): the device's private keys and the operator key among them. -/
def zeroSecrets (s : State) : State :=
  let t := s.zeroContexts
  ({ t with sec.identityKey := [], sec.kemKey := [], sec.identity := 0, sec.identityChain := [], sec.kemCert := [] }.setOperator
    []).zeroised 4

/-- Provisioning (R331, R332): a new identity pair with a chain that Gelvoger issues, whose bytes no rule states, and a new
KEM pair with a certificate under the identity key. -/
def newIdentity (s : State) : State :=
  let (s, chain) := s.draw (8 * 6416)
  let idk := Config.newKey s.free
  let s := s.useFree
  let kem := Config.newKey s.free
  let s := s.useFree
  { s with
    sec.identityKey := idk, sec.kemKey := kem, sec.identity := hash256 idk, sec.identityChain := natLe 6416 chain.toNat
    sec.kemCert := certificate 4 s.ident.serial idk idk kem }

/-- A transition of R348; one that zeroises begins a kindling. -/
def lcAct (s : State) (cmd : Nat) (o : Bytes) (next : LifeCycle) : State :=
  let s := { s with sec.lc := next, sec.jtag := decide (next = LifeCycle.service), sec.tap := .testLogicReset }
  match cmd with
  | 1 => (s.setOperator ((o.drop 0x20).take 1793)).kindle 5
  | 2 => s.setOperator ((o.drop 0x20).take 1793)
  | 3 => ((s.zeroContexts).setOperator []).kindle 5
  | 4 => { s.zeroSecrets.kindle 5 with sec.jtag := true }
  | 5 => s.zeroSecrets.kindle 5
  | _ => s.newIdentity

/-- SEC_LC_DATA written: 8 bytes are appended to the command object (R353). -/
def lcAppend (s : State) (data : Word) : State := { s with sec.lcData := s.sec.lcData ++ natLe 8 data.toNat }

/-- A write of SEC_LC_CMD (R349): the object that SEC_LC_DATA holds, its CMD reading `cmd`, is judged and acted on; the object
is emptied and the nonce is fresh. -/
def lcCommand (s : State) (rq : Req) (cmd : Nat) (length : BitVec 32) (seq : BitVec 16) : State :=
  s.begin.control rq true .both fun s =>
    let d := s.sec.lcData
    let full := (d.take length.toNat).take 4 ++ natLe 1 cmd ++ (d.take length.toNat).drop 5
    let old := s.sec.lcActed
    let s := { s with sec.lcSeq := seq, sec.lcLength := length, sec.lcData := [] }
    if seq = old then s.ok rq
    else
      let short := d.length ≠ (length.toNat + 7) / 8 * 8 || length.toNat < 0x20
      let why := if short then 1 else s.lcCause cmd full
      let s := { s with sec.lcActed := seq, sec.nonce := s.freeBits 64 }.useFree
      match why, lcNext s.sec.lc cmd with
      | 0, some next => ({ s with sec.lcState := 2, sec.lcCause := 0 }.ok rq).lcAct cmd full next
      | _, _ => { s with sec.lcState := 3, sec.lcCause := BitVec.ofNat 8 why }.ok rq

end State

/-! ## The commands -/

/-- ENROLL (R348). -/
def execLcEnroll (rq : Req) (length : BitVec 32) (seq : BitVec 16) (s : State) : Host.Outcome State Fault Refusal :=
  .next (s.lcCommand rq lcEnroll length seq)

/-- ROTATE (R348). -/
def execLcRotate (rq : Req) (length : BitVec 32) (seq : BitVec 16) (s : State) : Host.Outcome State Fault Refusal :=
  .next (s.lcCommand rq lcRotate length seq)

/-- DISOWN (R348). -/
def execLcDisown (rq : Req) (length : BitVec 32) (seq : BitVec 16) (s : State) : Host.Outcome State Fault Refusal :=
  .next (s.lcCommand rq lcDisown length seq)

/-- SERVICE (R348). -/
def execLcService (rq : Req) (length : BitVec 32) (seq : BitVec 16) (s : State) : Host.Outcome State Fault Refusal :=
  .next (s.lcCommand rq lcService length seq)

/-- RETIRE_DEVICE (R348). -/
def execLcRetire (rq : Req) (length : BitVec 32) (seq : BitVec 16) (s : State) : Host.Outcome State Fault Refusal :=
  .next (s.lcCommand rq lcRetire length seq)

/-- PROVISION (R348). -/
def execLcProvision (rq : Req) (length : BitVec 32) (seq : BitVec 16) (s : State) : Host.Outcome State Fault Refusal :=
  .next (s.lcCommand rq lcProvision length seq)

/-- LC_DATA_WRITE (R349, R353, R412). -/
def execLcDataWrite (rq : Req) (data : Word) (s : State) : Host.Outcome State Fault Refusal :=
  .next (s.begin.control rq true .both fun s => s.once rq 0xF060 fun s =>
    (s.lcAppend data).ok rq)

/-- ENTROPY_HEALTH_FAIL (R330): the block is discarded and counted; three within 1 s are a loss of the vault's integrity,
which fails a kindling (R364) and otherwise begins a package recovery (R21). -/
def execEntropyHealthFail (s : State) : Host.Outcome State Fault Refusal :=
  let s := s.begin
  match s.kin.power with
  | .off | .railLost | .ember | .retryWait => .next s
  | _ =>
    let l := (s.sec.failTimes ++ [s.now]).drop (s.sec.failTimes.length + 1 - 3)
    let s := { s with sec.healthFail := satInc s.sec.healthFail, sec.failTimes := l }
    let three := match l with
      | [a, _, _] => decide ((s.now - a).toNat < second)
      | _ => false
    if !three then .next s
    else
      let s := { s with sec.error := true }
      .next (s.fatalError 3)

/-- DRBG_RESEED (R330). -/
def execDrbgReseed (s : State) : Host.Outcome State Fault Refusal :=
  let s := s.begin
  .next (if s.sec.drbgValid then { s with sec.reseeds := satInc s.sec.reseeds, sec.requests := 0 } else s)

/-! ## Leaving the factory, and the test access port -/

/-- Azard as it leaves the factory (R4), without power: PROVISIONED, its identity key generated in the vault with a chain to a
Gelvoger root beside it, and nothing else of its life begun. -/
def State.factory : State :=
  { State.reset.pilotLost with
    sec := { lc := .provisioned, identityKey := Config.factoryKey, identityChain := Config.factoryChain,
             identity := hash256 Config.factoryKey }
    pwr := { pgPilot := false, pgCore := false, pgSram := false, pgSerdes := false, pgHbm := false,
             enCore := false, enSram := false, enSerdes := false, enHbm := false } }

/-- The TAP controller after a rising edge of TCK with TMS high or low (IEEE 1149.1; log entry 101). -/
def TapState.next (t : TapState) (tms : Bool) : TapState :=
  match t with
  | .testLogicReset => if tms then .testLogicReset else .runTest
  | .runTest => if tms then .selectDr else .runTest
  | .selectDr => if tms then .selectIr else .captureDr
  | .captureDr => if tms then .exit1Dr else .shiftDr
  | .shiftDr => if tms then .exit1Dr else .shiftDr
  | .exit1Dr => if tms then .updateDr else .pauseDr
  | .pauseDr => if tms then .exit2Dr else .pauseDr
  | .exit2Dr => if tms then .updateDr else .shiftDr
  | .updateDr => if tms then .selectDr else .runTest
  | .selectIr => if tms then .testLogicReset else .captureIr
  | .captureIr => if tms then .exit1Ir else .shiftIr
  | .shiftIr => if tms then .exit1Ir else .shiftIr
  | .exit1Ir => if tms then .updateIr else .pauseIr
  | .pauseIr => if tms then .exit2Ir else .pauseIr
  | .exit2Ir => if tms then .updateIr else .shiftIr
  | .updateIr => if tms then .selectDr else .runTest

/-- A rising edge of TCK (R423): outside SERVICE the controller is held in Test-Logic-Reset whatever TMS does.  The table has
no row for it (log entry 101). -/
def State.tckEdge (s : State) (tms : Bool) : State :=
  { s with sec.tap := if s.sec.lc = .service then s.sec.tap.next tms else .testLogicReset }

/-- TRST_n asserted. -/
def State.trst (s : State) : State := { s with sec.tap := .testLogicReset }

/-- TDO is driven, not high-impedance: never outside SERVICE (R423), and in SERVICE while a register is shifted. -/
def State.tdoDriven (s : State) : Bool :=
  s.sec.lc = .service && (s.sec.tap = .shiftDr || s.sec.tap = .shiftIr)

end Sys2Proof.Machine
end

