-- ==== Sys2Proof/Machine/Registers.lean ====
section
/-!
DEFINITION. Sys2Proof/Machine/Registers.lean: what a read of each control register returns (18 R413–R417, with the register
tables of the other chapters).  Reserved bits, WO fields and offsets without a register read 0 (R6, R9, R413).  The few
registers whose read has an effect stand at the end.
-/

namespace Sys2Proof.Machine

/-! ## Codes -/

def RegionPower.num : RegionPower → Nat
  | .on => 0 | .gating => 1 | .off => 2 | .waking => 3

def LinkState.num : LinkState → Nat
  | .down => 0 | .training => 1 | .hello => 2 | .quarantine => 3 | .up => 4 | .member => 5

def Verdict.num : Verdict → Nat
  | .none => 0 | .alive => 1 | .silent => 2 | .lost => 3

def CtxState.num : CtxState → Nat
  | .empty => 0 | .chartered => 1 | .waitClean => 2 | .active => 3 | .quiesced => 4 | .evicting => 5 | .wiping => 6

def Phase.num : Phase → Nat
  | .none => 0 | .opened => 1 | .released => 2 | .updated => 3 | .voted => 4 | .voided => 5

def UpdState.num : UpdState → Nat
  | .idle => 0 | .opened => 1 | .busy => 2 | .staged => 3 | .armed => 4 | .refused => 5

def LifeCycle.num : LifeCycle → Nat
  | .blank => 0 | .provisioned => 1 | .owned => 2 | .service => 3 | .retired => 4

def PairStatus.num : PairStatus → Nat
  | .none => 0 | .agreed => 1 | .mismatch => 2 | .refereeArmed => 3 | .shadowOdd => 4 | .refereeOdd => 5
  | .primaryOdd => 6 | .undecided => 7

/-- Bits set in a word for the numbers of a list. -/
def bitSet (l : List Nat) : Word := l.foldl (fun (w : Word) i => w ||| BitVec.ofNat 64 (2 ^ i)) 0

/-- The 64-bit part i of a 256-bit digest. -/
def digestPart (d : Digest) (i : Nat) : Word := BitVec.ofNat 64 (d.toNat / 2 ^ (64 * i))

namespace State

/-! ## Identity, power, resets (R415, R416, R386, R368) -/

def idReg (s : State) (o : Nat) : Word :=
  match o with
  | 0x000 => Word.pack [(0, 0x8160), (16, s.ident.stepping.toNat), (24, s.ident.pkgRev.toNat)]
  | 0x008 => s.ident.serial
  | 0x010 => Word.pack [(0, s.ident.lot.toNat), (48, s.ident.dateCode.toNat)]
  | 0x018 => Word.pack [(0, 68), (8, 64), (16, 4), (20, 8), (32, 512), (42, 16), (47, 32)]
  | 0x020 => Word.pack [(0, 9), (4, 16), (9, 136), (17, 3), (21, 2), (25, 3)]
  | 0x028 => 0x003F
  | _ => 0

def pwrReg (s : State) (o : Nat) : Word :=
  let w := s.pwr
  match o with
  | 0x000 => Word.pack [(0, bit w.pgPilot), (1, bit w.pgCore), (2, bit w.pgSram), (3, bit w.pgSerdes), (4, bit w.pgHbm),
      (5, bit w.vbatOk)]
  | 0x008 => Word.pack [(0, w.limit.toNat)]
  | 0x010 => Word.pack [(0, 105), (8, 100), (16, 115)]
  | 0x018 => Word.pack [(0, bit w.active), (1, w.cause.toNat), (3, bit w.out), (32, w.entries.toNat)]
  | 0x020 => Word.pack [(0, w.mw.toNat), (32, w.junction.toNat)]
  | _ => 0

/-- Counting resets inside the window that the oldest listed one opens (R381, R386). -/
def resetsInWindow (s : State) : Nat :=
  match s.rst.counting with
  | [] => 0
  | t :: _ => (s.rst.counting.filter fun x => decide (x.toNat < t.toNat + s.kin.img.escMinutes.toNat * 60 * second)).length

/-- VERSION of the standby bundle, 0 when it fails verification (R368). -/
def standbyVersion (s : State) : Nat :=
  let b := (norSet s s.standby).bundle
  if verifyBundle s b = 0 then Bytes.le b 8 4 else 0

def rstReg (s : State) (o : Nat) : Word :=
  let r := s.rst
  let k := s.kin
  let m := s.kin.img
  match o with
  | 0x000 => Word.pack [(0, r.kind.toNat), (8, r.recoveryCause.toNat)]
  | 0x008 => Word.pack [(0, r.epoch.toNat)]
  | 0x030 => Word.pack [(0, r.ctxCmdCtx.toNat), (4, r.ctxCmd.toNat), (16, r.ctxCmdSeq.toNat)]
  | 0x038 => Word.pack [(0, r.lastCtx.toNat), (4, r.lastCause.toNat), (8, bit r.lastCounted)]
  | 0x040 => r.lastTime
  | 0x048 => Word.pack [(0, m.escResets.toNat % 32), (5, m.escMinutes.toNat % 2048), (16, m.evict.toNat % 131072),
      (33, m.wdFloor.toNat % 4096), (45, m.wdMult.toNat % 128)]
  | 0x050 => Word.pack [(0, s.resetsInWindow), (5, bit r.oos), (6, bit r.drained), (8, r.oosCause.toNat)]
  | 0x058 => Word.pack [(0, r.oosCmd.toNat), (16, r.oosSeq.toNat)]
  | 0x060 => r.evictEnd
  | 0x068 => Word.pack [(0, r.hrtHearth.toNat), (8, r.hrtCmd.toNat), (16, r.hrtSeq.toNat)]
  | 0x070 => Word.pack [(0, r.ctxResets.toNat), (32, r.hearthResets.toNat)]
  | 0x078 => Word.pack [(0, r.recoveries.toNat), (32, r.mpdRestarts.toNat)]
  | 0x800 => Word.pack [(0, k.stage.toNat), (8, k.reason.toNat), (16, k.fails.toNat), (24, bit k.device), (25, bit k.pending),
      (26, bit k.lastGood), (32, k.elapsed.toNat)]
  | 0x808 => Word.pack [(0, m.counter.toNat), (10, k.floor.toNat), (20, k.fwCounter.toNat), (28, k.fwFloor.toNat)]
  | 0x810 => m.build
  | 0x818 => Word.pack [(0, k.fwVersion.toNat), (32, s.standbyVersion)]
  | 0x820 => Word.pack [(0, k.cmd.toNat), (16, k.cmdSeq.toNat)]
  | 0x828 => Word.pack [(0, k.updCmd.toNat), (3, k.updTarget.toNat), (16, k.updSeq.toNat), (32, k.updLength.toNat)]
  | 0x838 => Word.pack [(0, k.updState.num), (8, k.updCause.toNat), (16, bit s.standby), (32, k.updCount.toNat)]
  | _ =>
    if 0x010 ≤ o ∧ o ≤ 0x028 then
      let i := 4 * ((o - 0x010) / 8)
      Word.pack [(0, (s.ctx i).epoch.toNat), (16, (s.ctx (i + 1)).epoch.toNat), (32, (s.ctx (i + 2)).epoch.toNat),
        (48, (s.ctx (i + 3)).epoch.toNat)]
    else if 0x100 ≤ o ∧ o ≤ 0x178 then
      let w := (s.ctx ((o - 0x100) / 8)).wd
      Word.pack [(0, w.limit.toNat), (32, w.median.toNat), (63, bit w.armed)]
    else 0

/-! ## Time (R326) -/

/-- TIM_PULSE_*j* at an offset of its 0x20 bytes. -/
def pulseReg (s : State) (j o : Nat) : Word :=
  let p := s.pulse j
  match o with
  | 0x00 => p.start
  | 0x08 => p.period
  | 0x10 => Word.pack [(0, bit p.enable), (1, bit p.polarity), (32, p.width.toNat)]
  | 0x18 => Word.pack [(0, p.count.toNat), (32, bit p.missed), (33, bit p.done)]
  | _ => 0

/-- TIM_TXQ_HEAD of a port group (R321, R326). -/
def txqHead (s : State) (q : Nat) : Word :=
  match Map.get [] s.tim.txq q with
  | [] => 0
  | x :: r => Word.pack [(0, 1), (1, min 15 (r.length + 1)), (5, x.port.toNat), (16, x.id.toNat), (32, x.frac.toNat)]

/-- TIM_TXQ_TIME of a port group as it stands. -/
def txqTime (s : State) (q : Nat) : Word := (s.popStamp q).2

def timReg (s : State) (o : Nat) : Word :=
  let t := s.tim
  match o with
  | 0x000 => t.raw
  | 0x008 => s.now
  | 0x010 => t.inc
  | 0x018 => t.offset
  | 0x020 => Word.pack [(0, t.source.toNat)]
  | 0x028 => Word.pack [(0, bit t.locked), (1, bit t.holdover), (2, bit t.ppsLost), (4, t.txqOvf.toNat), (8, t.parent.toNat),
      (16, s.timeHops.toNat), (32, t.steps.toNat)]
  | 0x030 => s.timeRoot
  | 0x040 => t.ppsStamp
  | 0x048 => Word.pack [(0, t.ppsFrac.toNat), (32, t.ppsAccepted.toNat), (48, t.ppsFast.toNat)]
  | 0x050 => Word.pack [(0, t.rtcFrac.toNat), (15, bit t.rtcValid), (16, t.rtcSec.toNat)]
  | 0x060 => Word.pack [(0, t.probePort.toNat), (16, t.probeId.toNat), (32, t.probeSeq.toNat)]
  | 0x068 => t.probeEcho
  | _ =>
    if 0x080 ≤ o ∧ o ≤ 0x0B8 then
      let q := (o - 0x080) / 16
      if o % 16 = 0 then s.txqHead q else s.txqTime q
    else if 0x100 ≤ o ∧ o ≤ 0x178 then s.pulseReg ((o - 0x100) / 32) (o % 32)
    else if 0x200 ≤ o ∧ o ≤ 0x2C0 then Word.pack [(0, (Map.get 0 t.asym ((o - 0x200) / 8)).toNat)]
    else if 0x300 ≤ o ∧ o ≤ 0x3C0 then
      let p := (o - 0x300) / 8
      let x := s.peerTime p
      Word.pack [(0, x.theta.toNat), (48, x.hops.toNat), (56, bit (s.peerValid p))]
    else 0

/-! ## Links (R306, R307, R227) -/

/-- The receive coins in use by a virtual channel on a port. -/
def vcCoins (q : Port) (v : Nat) : Nat := (Map.get 0 q.vcq v).toNat

/-- The LNK_ block of port p (R306); a member port's reads MEMBER in LNK_STATE and nothing else beside LNK_CFG and LNK_MOD (R296,
R306; log entry 102). -/
def lnkReg (s : State) (p o : Nat) : Word :=
  let q := s.port p
  let e := s.out p
  let cfg := Word.pack [(0, q.mode.toNat), (2, q.width.toNat), (5, bit q.fec), (6, q.anchor.toNat), (11, bit q.fwMatch),
    (12, bit q.enable)]
  let mod := if p < 21 then 0 else Word.pack [(0, bit q.modPresent), (1, q.modState.toNat), (4, bit q.modFault),
    (5, q.modTemp.toNat), (16, q.appsel.toNat)]
  if q.state = .member then (match o with | 0x00 => cfg | 0x08 => Word.pack [(0, q.state.num)] | 0x78 => mod | _ => 0)
  else match o with
  | 0x00 => cfg
  | 0x08 => Word.pack [(0, q.state.num), (3, bit q.degraded), (4, q.qcause.toNat), (8, q.lanes.toNat), (16, q.peerOsfel.toNat),
      (20, bit q.fwDiff), (21, bit q.rewired), (32, q.retrains.toNat)]
  | 0x18 => q.expect
  | 0x20 => q.peerPos
  | 0x28 => q.peerCoord
  | 0x30 => Word.pack [(0, q.peerFw.toNat), (32, q.peerRole.toNat)]
  | 0x38 => Word.pack [(0, q.corrected.toNat), (32, q.uncorrected.toNat)]
  | 0x40 => Word.pack [(0, q.crcFail.toNat), (32, q.retries.toNat)]
  | 0x10 => bit q.retrainDue
  | 0x48 => e.tx
  | 0x50 => q.rx
  | 0x58 => e.stall
  | 0x60 => Word.pack [(0, q.qNow.toNat), (16, q.qMax.toNat)]
  | 0x68 =>
    let used := windowUsed e
    Word.pack [(0, (min used (s.windowRoom p) + 1023) / 1024 % 1048576), (32, s.windowSpill p e % 65536)]
  | 0x70 => Word.pack [(0, q.rtt.toNat), (32, q.gobacks.toNat)]
  | 0x78 => mod
  | 0xE0 => Word.pack [(0, q.verdict.num), (4, q.evidence.toNat), (32, q.changes.toNat)]
  | 0xE8 => q.heard
  | _ =>
    if 0x80 ≤ o ∧ o ≤ 0xB8 then
      let v := 4 * ((o - 0x80) / 8)
      Word.pack [(0, vcCoins q v), (16, vcCoins q (v + 1)), (32, vcCoins q (v + 2)), (48, vcCoins q (v + 3))]
    else 0

/-- The self block (R307), by offset from 0x7F00. -/
def selfReg (s : State) (o : Nat) : Word :=
  match o with
  | 0x00 => s.fabric.selfPos
  | 0x08 => s.fabric.selfCoord
  | 0x10 => Word.pack [(0, s.fabric.topo.length), (32, s.fabric.received.toNat)]
  | _ => 0

/-! ## Allocation (R285) -/

/-- Mirror partition pages that are not RETIRED: clean, dirty, and those of copies, root staging and waiting contexts. -/
def mirrorPages (s : State) : Nat :=
  s.cleanMirror + s.dirtyMirror + (s.mir.entries.map fun e => pageCount e.2.alloc).sum +
    (s.ctxs.map fun c => pageCount c.2.clr.rootAlloc).sum + (s.alc.waiters.map fun w => pageCount w.held).sum

/-- A region holds part of a split copy. -/
def holdsSplit (s : State) (q : Nat) : Bool :=
  s.mir.entries.any fun e => e.2.alloc.any (fun x => x.2 ≠ 0 && regionOf x.1 = q) &&
    e.2.alloc.any (fun x => x.2 ≠ 0 && regionOf x.1 ≠ q)

/-- This Azard's pages held at spill peers (R276, R285). -/
def spilledOut (s : State) : Nat :=
  s.alc.parkedPages.length + (s.egress.map fun e => s.windowSpill e.1 e.2).sum

def alcReg (s : State) (o : Nat) : Word :=
  let a := s.alc
  match o with
  | 0x000 => Word.pack [(0, s.mirrorPages), (32, 8192), (48, a.spillPeers.toNat)]
  | 0x008 => Word.pack [(0, a.wipePct.toNat), (8, a.wipeUrgent.toNat), (16, a.migratePct.toNat), (32, a.migratePages.toNat)]
  | 0x010 => Word.pack [(0, a.wakeGuard.toNat), (16, a.gateIdle.toNat), (24, a.vcMaxPct.toNat), (32, a.replaySpill.toNat),
      (48, a.spillOffer.toNat)]
  | 0x018 => Word.pack [(0, s.cleanMirror), (32, s.dirtyMirror)]
  | 0x020 => match a.waiters with
    | [] => 0
    | w :: r => Word.pack [(0, r.length + 1), (8, w.ctx.val), (32, waiterOpen w)]
  | 0x028 => Word.pack [(0, a.actLastCtx.toNat), (8, a.actLastCause.toNat)]
  | 0x088 => Word.pack [(0, a.missed.toNat), (32, a.lateWakes.toNat)]
  | 0x090 => Word.pack [(0, a.moved.toNat), (32, a.stopped.toNat)]
  | 0x098 => Word.pack [(0, s.spilledOut), (32, a.spillIn.toNat)]
  | _ =>
    if 0x040 ≤ o ∧ o ≤ 0x058 then
      let q := (o - 0x040) / 8
      Word.pack [(0, s.workingHearths q), (5, (s.region q).power.num),
        (7, bit (s.hbm (2 * q)).failed), (8, bit (s.hbm (2 * q + 1)).failed), (9, bit (s.holdsSplit q)),
        (32, s.cleanRegion q)]
    else if 0x060 ≤ o ∧ o ≤ 0x080 then Map.get 0 a.stall ((o - 0x060) / 8)
    else 0

/-! ## Contexts (R335, R55, R167, R230) -/

def ctxReg (s : State) (n o : Nat) : Word :=
  let c := s.ctx n
  let l := c.life
  let t := c.step
  let p := c.prog
  let b := c.bind
  match o with
  | 0x00 => Word.pack [(0, l.st.num), (3, bit l.stepRoot)]
  | 0x08 => Word.pack [(0, l.cmd.toNat), (16, l.seq.toNat)]
  | 0x10 => Word.pack [(0, l.count.toNat), (24, l.cause.toNat), (28, l.relCause.toNat), (32, l.relKeysN.toNat)]
  | 0x18 => digestPart l.digest 0
  | 0x20 => digestPart l.digest 1
  | 0x28 => digestPart l.digest 2
  | 0x30 => digestPart l.digest 3
  | 0x38 => l.receiptStep
  | 0x80 => t.cur
  | 0x88 => Word.pack [(0, t.attempt.toNat), (16, t.phase.num), (19, bit t.lagWait), (20, t.voidCause.toNat),
      (24, t.voteLag.toNat), (28, t.refuse.toNat), (32, t.voidOrigin.toNat)]
  | 0x90 => t.released
  | 0x98 => t.voted
  | 0xA0 => t.tag
  | 0xA8 => Word.pack [(0, t.voids.toNat)]
  | 0xB0 => Word.pack [(0, p.fault.toNat), (4, p.section_.toNat), (8, p.abortCode.toNat), (24, p.entry.toNat),
      (40, p.index.toNat)]
  | 0xB8 => p.step
  | 0xC0 => Word.pack [(0, p.flags.toNat), (32, p.faults.toNat)]
  | 0xD0 => Word.pack [(0, b.logical.toNat), (16, b.port.toNat), (32, b.seq.toNat)]
  | 0xD8 => Word.pack [(0, b.st.toNat), (8, b.cause.toNat), (16, b.stSeq.toNat), (32, b.stLogical.toNat), (48, b.oldPort.toNat)]
  | _ => 0

/-! ## Clearing, mirrors, escrow (R106, R139, R219) -/

/-- The group that uses a virtual channel at this Azard, with its context. -/
def groupOfVc (s : State) (v : Nat) : Option (Fin 16 × GroupTree) :=
  ctxNums.findSome? fun (n : Fin 16) =>
    ((s.ctx n).clr.groups.find? fun g => (g.clearing || g.transit) && g.defn.vc.toNat = v).map fun g => (n, g)

/-- CLR_VC's ROLE: 0 leaf, 1 interior, 2 group root, 3 step root. -/
def vcRole (s : State) (n : Fin 16) (g : GroupTree) : Nat :=
  if g.isRoot then (if (s.ctx n).life.stepRoot then 3 else 2) else if g.children = [] then 0 else 1

def vcReg (s : State) (v : Nat) : Word :=
  match s.groupOfVc v with
  | some (n, g) => Word.pack [(0, 1), (1, n.val), (5, g.defn.group.toNat % 32), (10, s.vcRole n g), (12, g.height % 64),
      (18, g.parentPort.toNat), (23, g.children.length % 32), (28, g.allow % 1048576), (48, bit g.transit)]
  | none => Word.pack [(18, 0x1F)]

def clrReg (s : State) (o : Nat) : Word :=
  match o with
  | 0x000 => Word.pack [(0, 28), (8, 4095), (20, 20), (28, 64), (36, 8)]
  | 0x008 => Word.pack [(0, s.clr.blockErr.toNat), (32, s.clr.late.toNat)]
  | 0x010 => Word.pack [(0, s.clr.dup.toNat), (32, s.clr.stale.toNat)]
  | 0x018 => Word.pack [(0, ((List.range 4).map s.sramUsed).sum), (16, s.hbmUsed),
      (32, (s.ctxs.map fun c => pageCount c.2.clr.rootAlloc).sum)]
  | _ => if 0x100 ≤ o ∧ o ≤ 0x1D8 then s.vcReg (4 + (o - 0x100) / 8) else 0

def mirReg (s : State) (o : Nat) : Word :=
  let m := s.mir
  match o with
  | 0x000 => Word.pack [(0, 65536), (17, 4096), (30, 21)]
  | 0x008 => Word.pack [(0, m.digestWait.toNat), (16, m.repairTries.toNat), (20, bit m.crossSite)]
  | 0x010 => Word.pack [(0, s.mirrorPages), (32, s.cleanMirror)]
  | 0x018 => m.agreed
  | 0x020 => Word.pack [(0, m.oddAccel.toNat), (32, m.oddMirror.toNat)]
  | 0x028 => Word.pack [(0, m.divergent.toNat), (32, m.repairFail.toNat)]
  | 0x088 => Word.pack [(0, m.suspectSelf.toNat), (32, m.suspectSelfStep.toNat)]
  | 0x090 => Word.pack [(0, s.pinned), (32, m.misses.toNat)]
  | 0x098 => Word.pack [(0, m.stackA.toNat), (3, m.stackB.toNat), (6, bit m.rebuild), (32, m.twinRepairs.toNat)]
  | 0x0A0 => Word.pack [(0, m.lastEntry.toNat), (16, m.lastPage.toNat), (35, m.lastOutcome.toNat), (38, m.lastCtx.toNat)]
  | 0x0A8 => m.lastStep
  | _ =>
    if 0x040 ≤ o ∧ o ≤ 0x080 then
      let x := Map.get (0, 0) m.suspect ((o - 0x040) / 8)
      Word.pack [(0, x.1.toNat), (32, x.2.toNat)]
    else 0

/-- ESC_CKPT_CUR.PHASE: COMMITTING at a step root that holds every SHARD_DONE (R219). -/
def ckptPhase (s : State) (n : Nat) : Nat :=
  let c := s.ctx n
  if c.esc.curSeq = 0 then 0
  else if s.allDone n then 2
  else 1

def escCtxReg (s : State) (n o : Nat) : Word :=
  let e := (s.ctx n).esc
  match o with
  | 0x00 => Word.pack [(0, e.steps.toNat), (32, e.seconds.toNat), (49, e.baseEvery.toNat), (57, e.targets.toNat)]
  | 0x08 => Word.pack [(0, e.curSeq.toNat), (32, s.ckptPhase n), (34, bit (e.base && e.curSeq ≠ 0)), (35, bit e.deferred)]
  | 0x10 => e.ckptStep
  | 0x18 => Word.pack [(0, e.doneSeq.toNat), (32, e.abandonCause.toNat)]
  | 0x20 => e.doneStep
  | 0x28 => Word.pack [(0, e.rstMax.toNat), (32, e.rstCmd.toNat), (48, e.rstSeqno.toNat)]
  | 0x30 => Word.pack [(0, e.rstState.toNat), (8, e.rstCause.toNat), (32, e.rstSeq.toNat)]
  | 0x38 => e.rstStep
  | _ => 0

def escReg (s : State) (o : Nat) : Word :=
  let e := s.esc
  match o with
  | 0x000 => Word.pack [(0, e.poolGib.toNat), (8, e.lowWater.toNat), (16, e.damperPct.toNat), (23, e.fullPct.toNat),
      (32, e.outstanding.toNat)]
  | 0x008 => Word.pack [(0, e.poolGib.toNat * 512), (32, s.cleanEscrow)]
  | 0x010 => Word.pack [(0, bit e.damperOpen), (1, bit e.waiting), (32, (s.mir.entries.map fun x => x.2.heldPages.length).sum)]
  | 0x018 => Word.pack [(0, e.cow.toNat), (32, e.abandoned.toNat)]
  | 0x020 => Word.pack [(0, e.sent.toNat), (32, e.resent.toNat)]
  | 0x028 => e.bytes
  | 0x030 => Word.pack [(0, e.refetch.toNat), (32, e.digestFail.toNat)]
  | _ => if 0x100 ≤ o ∧ o < 0x500 then s.escCtxReg ((o - 0x100) / 64) (o % 64) else 0

/-! ## Tests (R264) -/

/-- The spare hearth of a region; 0x7F when it has none (log entry 37). -/
def spareOf (s : State) (q : Nat) : Nat := ((s.hearthsIn q .spare).head?).getD 0x7F

def tstPortReg (s : State) (k o : Nat) : Word :=
  let t := s.tstPort k
  match o with
  | 0x00 => Word.pack [(0, t.capMismatch.toNat), (16, t.pairOdd.toNat), (32, bit t.suspect), (33, bit t.flagged),
      (34, bit t.overdue), (36, t.lastResult.toNat), (40, t.cause.toNat)]
  | 0x08 => Word.pack [(0, bit t.pairValid), (1, t.pairCtx.toNat), (5, t.pairShadow.toNat), (21, t.pairStatus.num),
      (32, t.mismatches.toNat), (48, t.transient.toNat)]
  | 0x10 => t.due
  | _ => 0

def tstReg (s : State) (o : Nat) : Word :=
  let t := s.tst
  match o with
  | 0x000 => Word.pack [(0, t.slack.toNat), (16, t.deferH.toNat), (32, t.accelH.toNat), (48, t.rotateMin.toNat)]
  | 0x008 => Word.pack [(0, t.oddPages.toNat), (16, t.capLimit.toNat), (32, t.pairLimit.toNat)]
  | 0x010 => Word.pack [(0, t.records.toNat), (32, t.mismatch.toNat)]
  | 0x018 => Word.pack [(0, t.skipNonfinite.toNat), (32, t.malformed.toNat), (48, t.backlog.toNat)]
  | 0x020 => Word.pack [(0, bit t.suspect), (1, bit t.draining), (2, bit t.flagged), (8, t.cause.toNat)]
  | 0x028 => bitSet ((List.range 64).filter fun h => (s.hearth h).uncovered)
  | 0x030 => bitSet ((List.range 4).filter fun h => (s.hearth (64 + h)).uncovered) |||
      Word.pack [(4, t.uncovPorts.toNat), (32, t.uncovCount.toNat)]
  | 0x038 => bitSet ((List.range 64).filter fun h => (s.hearth h).testFailed)
  | 0x040 => bitSet ((List.range 4).filter fun h => (s.hearth (64 + h)).testFailed)
  | 0x080 => Word.pack [(0, t.packCmd.toNat), (8, t.packSet.toNat), (48, t.packSeqno.toNat)]
  | 0x088 => Word.pack [(0, t.packState.toNat), (8, t.packCause.toNat), (32, t.packStSet.toNat)]
  | 0x090 => Word.pack [(0, t.active.toNat), (32, t.sets.length % 16)]
  | 0x0A0 => Word.pack [(0, t.grantPort.toNat), (16, t.grantSeq.toNat), (32, t.grantSet.toNat)]
  | 0x0A8 => t.grantStart
  | 0x0B0 => t.grantEnd
  | 0x0B8 => Word.pack [(0, t.grantState.toNat), (8, t.grantCause.toNat), (16, t.grantResult.toNat), (32, t.grantStSeq.toNat),
      (48, t.grantStPort.toNat)]
  | 0x0C0 => Word.pack [(0, t.sigCmd.toNat), (8, t.sigClass.toNat), (16, t.sigIndex.toNat), (32, t.sigSeq.toNat)]
  | 0x0C8 => Word.pack [(0, t.sigState.toNat), (32, t.sigStream.length)]
  | _ =>
    if 0x048 ≤ o ∧ o ≤ 0x060 then
      let q := (o - 0x048) / 8
      let r := s.region q
      Word.pack [(0, s.spareOf q), (7, bit r.testing), (8, r.outgoing.toNat), (16, (s.hearthsIn q .failed).length),
        (32, r.passes.toNat)]
    else if 0x100 ≤ o ∧ o < 0x220 then s.tstPortReg ((o - 0x100) / 32) (o % 32)
    else 0

/-! ## Recorder, security, telemetry (R400, R353, R396) -/

def evrReg (s : State) (o : Nat) : Word :=
  let e := s.evr
  match o with
  | 0x000 => Word.pack [(0, (Evr.oldest e).toNat), (32, (Evr.newest e).toNat)]
  | 0x008 => Word.pack [(0, e.cursor.toNat)]
  | 0x010 => Word.pack [(0, bit e.freeze), (8, e.queue.length)]
  | 0x018 => Word.pack [(0, e.lost.toNat), (32, e.overwritten.toNat)]
  | 0x020 =>
    let which (f : Nat → Bool) : Word := bitSet ((List.range 16).filter f)
    which (fun i => (s.input i).asserted) ||| (which (fun i => (s.input i).masked) <<< 16) |||
      (which (fun i => s.inputCfg i = {}) <<< 32)
  | 0x030 => Word.pack [(0, e.tallySel.toNat)]
  | 0x038 => s.tally e.tallySel.toNat
  | _ =>
    if 0x040 ≤ o ∧ o ≤ 0x078 then Bytes.word s.cursorBytes (o - 0x040)
    else if 0x100 ≤ o ∧ o ≤ 0x178 then
      let x := s.input ((o - 0x100) / 8)
      Word.pack [(0, x.stuck.toNat), (16, x.fast.toNat), (32, x.accepted.toNat)]
    else 0

def secReg (s : State) (o : Nat) : Word :=
  let c := s.sec
  match o with
  | 0x000 => Word.pack [(0, c.lc.num), (3, bit ((c.lc = .provisioned || c.lc = .owned) && c.selftest = 1 && !c.error)),
      (4, c.selftest.toNat), (6, bit c.error), (7, bit c.jtag)]
  | 0x008 => digestPart c.identity 0
  | 0x010 => digestPart c.identity 1
  | 0x018 => digestPart c.identity 2
  | 0x020 => digestPart c.identity 3
  | 0x028 => digestPart c.opSubject 0
  | 0x030 => digestPart c.opSubject 1
  | 0x038 => digestPart c.opSubject 2
  | 0x040 => digestPart c.opSubject 3
  | 0x048 => c.nonce
  | 0x050 => Word.pack [(0, c.lcSeq.toNat), (32, c.lcLength.toNat)]
  | 0x058 => Word.pack [(0, c.lcState.toNat), (8, c.lcCause.toNat)]
  | 0x068 => Word.pack [(0, c.reseeds.toNat), (32, c.healthFail.toNat)]
  | 0x070 => Word.pack [(0, c.failed.toNat)]
  | 0x078 => Word.pack [(0, c.sourceDrops.toNat)]
  | 0x080 => Word.pack [(0, c.zeroCount.toNat), (32, c.zeroLast.toNat)]
  | _ => 0

def telReg (s : State) (o : Nat) : Word :=
  let t := s.tel
  match o with
  | 0x000 => t.seq
  | 0x008 => t.time
  | 0x010 => Word.pack [(0, bit t.hold), (32, t.skipped.toNat)]
  | 0x020 => Word.pack [(0, t.periodH.toNat)]
  | 0x028 => Word.pack [(0, t.passes.toNat), (32, t.detected.toNat)]
  | _ =>
    if 0x040 ≤ o ∧ o ≤ 0x078 then
      let h := s.hbm ((o - 0x040) / 8)
      Word.pack [(0, h.retrains.toNat), (32, h.scrubDet.toNat), (48, h.retiredPages % 65536)]
    else if 0x1000 ≤ o then Map.get 0 t.snap o
    else 0

/-! ## The whole map (R417) -/

/-- What the register at an offset of control space shows. -/
def regValue (s : State) (a : Nat) : Word :=
  let o := a % 4096
  if 0x10000 ≤ a then s.telReg (a - 0x10000)
  else match a / 4096 with
  | 0x0 => s.idReg o
  | 0x1 => s.pwrReg o
  | 0x2 => s.rstReg o
  | 0x3 => s.timReg o
  | 0x4 => s.lnkReg (o / 256) (o % 256)
  | 0x5 => s.lnkReg (16 + o / 256) (o % 256)
  | 0x7 => s.selfReg (o % 256)
  | 0x8 => s.alcReg o
  | 0x9 => s.ctxReg (o / 256) (o % 256)
  | 0xA => s.clrReg o
  | 0xB => s.mirReg o
  | 0xC => s.escReg o
  | 0xD => s.tstReg o
  | 0xE => s.evrReg o
  | 0xF => s.secReg o
  | _ => 0

/-- The block of control space that an offset lies in: its first and last byte (R417). -/
def blockOf (a : Nat) : Option (Nat × Nat) :=
  if a < 0x4000 then some (a / 4096 * 4096, a / 4096 * 4096 + 4095)
  else if a < 0x5900 then some (a / 256 * 256, a / 256 * 256 + 255)
  else if a < 0x7F00 then none
  else if a < 0x8000 then some (0x7F00, 0x7FFF)
  else if 0x9000 ≤ a ∧ a < 0xA000 then some (a / 256 * 256, a / 256 * 256 + 255)
  else if a < 0x10000 then some (a / 4096 * 4096, a / 4096 * 4096 + 4095)
  else if a < 0x114B0 then some (0x10000, 0x114AF)
  else none

/-- An access starts on an 8-byte boundary, carries a multiple of 8 bytes and lies within one block (R413). -/
def inBlock (a n : Nat) : Bool :=
  a % 8 = 0 && n % 8 = 0 && n ≠ 0 && (match blockOf a with
    | some (_, last) => decide (a + n ≤ last + 1)
    | none => false)

/-- The register at an offset answers in ember mode and during a kindling (R365). -/
def emberReg (a : Nat) : Bool :=
  decide (a < 0x1000) || (decide (0x2800 ≤ a) && decide (a < 0x2840)) || (decide (0xE000 ≤ a) && decide (a < 0xF000)) ||
    [0x3050, 0x3058, 0xF000, 0xF048, 0xF050, 0xF058, 0xF060].contains a

/-- The offsets of the registers of an access. -/
def regsOf (a n : Nat) : List Nat := (List.range ((n + 7) / 8)).map fun i => a + 8 * i

/-- The register whose read has an effect (R412): TIM_TXQ_TIMEq, TST_SIG_DATA, EVR_REC7. -/
def readActs (a : Nat) : Bool := (decide (0x3080 ≤ a) && decide (a < 0x30C0) && a % 16 = 8) || a = 0xD0D0 || a = 0xE078

/-- One register read, with the effect of the read. -/
def readReg (s : State) (a : Nat) : State × Word :=
  if a = 0xD0D0 then
    let (t, d) := s.sigData
    (t, BitVec.ofNat 64 (leNat d))
  else if a = 0xE078 then ((s.readRec7).1, s.regValue a)
  else if readActs a then s.popStamp ((a - 0x3080) / 16)
  else (s, s.regValue a)

/-- Several registers read, one after another (R413). -/
def readRegs (s : State) : List Nat → State × Bytes
  | [] => (s, [])
  | a :: r =>
    let (s, w) := s.readReg a
    let (s, d) := readRegs s r
    (s, natLe 8 w.toNat ++ d)

end State

end Sys2Proof.Machine
end

