-- ==== Sys2Proof/Machine/Control.lean ====
section
/-!
DEFINITION. Sys2Proof/Machine/Control.lean: accesses to control space (18 R413, R414, R417): what a write of each register
does, the rules of an access, and the I3C and SGMII paths.  A command register acts here through the operations of its own
command.
-/

namespace Sys2Proof.Machine

namespace State

/-! ## Registers without behaviour of their own: RW and W1C fields (R6) -/

/-- W1C: the bits written 1 are cleared. -/
def w1c {n : Nat} (v w : BitVec n) : BitVec n := v &&& ~~~w

/-- TIM_PULSE_START, PERIOD and STAT (R322, R326): START and PERIOD are ignored while ENABLE = 1. -/
def storePulse (o : Nat) (w : Word) (p : Pulse) : Pulse :=
  match o with
  | 0x00 => if p.enable then p else { p with start := w }
  | 0x08 =>
    if p.enable then p
    else { p with period := if w ≠ 0 && decide (w.toNat < p.width.toNat + 20) then BitVec.ofNat 64 (p.width.toNat + 20) else w }
  | _ => { p with count := w.extractLsb' 0 32, missed := p.missed && !w.getLsbD 32 }

/-- TST_SUSP_TPk (R251, R252, R264). -/
def storeSusp (w : Word) (t : TstPort) : TstPort :=
  { t with
    capMismatch := w.extractLsb' 0 16, pairOdd := w.extractLsb' 16 16
    suspect := t.suspect && !w.getLsbD 32, flagged := t.flagged && !w.getLsbD 33 }

/-- CTX_STEP_PHASE.REFUSE, CTX_PROG_FLAGS.FLAGS: the W1C fields of a context's block. -/
def storeCtx (o : Nat) (w : Word) (c : Ctx) : Ctx :=
  if o = 0x88 then { c with step.refuse := w1c c.step.refuse (w.extractLsb' 28 4) }
  else { c with prog.flags := w1c c.prog.flags (w.extractLsb' 0 5) }

/-- A write of a register whose fields are only stored or cleared; none for any other offset. -/
def storeReg (s : State) (a : Nat) (w : Word) : Option State :=
  match a with
  | 0x1008 => some { s with pwr.limit := clampField w 0 11 300 1100 }
  | 0x3028 => some { s with tim.txqOvf := w1c s.tim.txqOvf (w.extractLsb' 4 4) }
  | 0x8008 => some { s with alc := s.alc.setCfg0 w }
  | 0x8010 => some { s with alc := s.alc.setCfg1 w }
  | 0xB008 => some { s with mir := s.mir.setCfg w }
  | 0xB088 => some { s with mir.suspectSelf := w.extractLsb' 0 32 }
  | 0xC000 => some { s with esc := s.esc.setCfg w }.damper
  | 0xD000 => some { s with tst := s.tst.setCfg0 w }
  | 0xD008 => some { s with tst := s.tst.setCfg1 w }
  | 0xD0A8 => some { s with tst.grantStart := w }
  | 0xD0B0 => some { s with tst.grantEnd := w }
  | 0xE030 => some { s with evr.tallySel := w.extractLsb' 0 8 }
  | 0x10010 => some (s.setHold (w.getLsbD 0))
  | 0x10020 => some { s with tel.periodH := clampField w 0 8 1 168 }
  | _ =>
    if 0x3100 ≤ a ∧ a < 0x3180 ∧ a % 32 ≠ 16 then some (s.modPulse ((a - 0x3100) / 32) (storePulse (a % 32) w))
    else if 0x3200 ≤ a ∧ a ≤ 0x32C0 then
      some { s with tim.asym := Map.set 0 s.tim.asym ((a - 0x3200) / 8) (w.extractLsb' 0 32) }
    else if 0x9000 ≤ a ∧ a < 0xA000 ∧ (a % 256 = 0x88 ∨ a % 256 = 0xC0) then
      some (s.modCtx ((a - 0x9000) / 256) (storeCtx (a % 256) w))
    else if 0xB040 ≤ a ∧ a ≤ 0xB080 then
      let k := (a - 0xB040) / 8
      some { s with mir.suspect := Map.set (0, 0) s.mir.suspect k (w.extractLsb' 0 32, (Map.get (0, 0) s.mir.suspect k).2) }
    else if 0xC100 ≤ a ∧ a < 0xC500 ∧ a % 64 = 8 then
      some (s.modCtx ((a - 0xC100) / 64) fun c => { c with esc.deferred := c.esc.deferred && !w.getLsbD 35 })
    else if 0xD100 ≤ a ∧ a < 0xD220 ∧ a % 32 = 0 then some (s.modTstPort ((a - 0xD100) / 32) (storeSusp w))
    else none

/-- The W1C bits of a register, as a mask. -/
def w1cMask (a : Nat) : Word :=
  match a with
  | 0x3028 => 0xF0
  | 0xD020 => 1
  | _ =>
    if 0x3100 ≤ a ∧ a < 0x3180 ∧ a % 32 = 24 then 0x100000000
    else if 0x9000 ≤ a ∧ a < 0xA000 ∧ a % 256 = 0x88 then 0xF0000000
    else if 0x9000 ≤ a ∧ a < 0xA000 ∧ a % 256 = 0xC0 then 0x1F
    else if 0xC100 ≤ a ∧ a < 0xC500 ∧ a % 64 = 8 then 0x800000000
    else if 0xD100 ≤ a ∧ a < 0xD220 ∧ a % 32 = 0 then 0x300000000
    else 0

/-! ## Command registers -/

/-- RST_KIN_CMD (R368). -/
def writeKin (s : State) (rq : Req) (w : Word) : State :=
  let seq := w.extractLsb' 16 16
  match (w.extractLsb' 0 2).toNat with
  | 1 => s.rekindle rq seq
  | 2 => s.kinCmd rq 2 seq fun s => some s.commitFloors
  | 3 => s.kinCmd rq 3 seq fun s => some { s with kin.pending := false }
  | c => s.kinCmd rq c seq some

/-- RST_UPD_CMD (R366, R368). -/
def writeUpd (s : State) (rq : Req) (w : Word) (good : Bool) : State :=
  let cmd := (w.extractLsb' 0 3).toNat
  let target := w.extractLsb' 3 3
  let length := w.extractLsb' 32 32
  s.updCmdWrite rq cmd target (w.extractLsb' 16 16) length fun s =>
    match cmd with
    | 1 => s.updOpen target length
    | 2 => s.updClose good packStaged
    | 3 => s.updArm
    | 4 => s.updAbort
    | _ => s

/-- CTX_CMD of context n (R335); 0, 6 and 7 are stored and change nothing. -/
def writeCtxCmd (s : State) (rq : Req) (n : Fin 16) (w : Word) : State :=
  let seq := w.extractLsb' 16 16
  match (w.extractLsb' 0 3).toNat with
  | 1 => s.ctxActivate rq n seq
  | 2 => s.ctxQuiesce rq n seq
  | 3 => s.ctxResume rq n seq
  | 4 => s.ctxRelease rq n seq
  | 5 => s.ctxClear rq n seq
  | c => s.ctxCommand rq n c seq .charter (fun _ => true) fun s => s.ok rq

/-- ESC_RST_CMD of context n (R219). -/
def writeRst (s : State) (rq : Req) (n : Fin 16) (w : Word) (e : WriteEnv) : State :=
  let max := w.extractLsb' 0 32
  let seq := w.extractLsb' 48 16
  match (w.extractLsb' 32 2).toNat with
  | 1 => s.rstCommand rq n 1 max seq fun s => s.selectCkpt n max e.candidates e.reached
  | 2 => s.rstCommand rq n 2 max seq fun s => (s.abandonCkpt n 7).resumeSeals n
  | c => s.rstCommand rq n c max seq fun s => s

/-- A write of a command register of a port (R306). -/
def writeLink (s : State) (rq : Req) (p o : Nat) (w : Word) : State :=
  match o with
  | 0x00 => (s.linkCfg p w).ok rq
  | 0x10 =>
    let s := if w.getLsbD 1 then s.linkClear p else s
    (if w.getLsbD 0 then s.linkRetrain p else s).ok rq
  | 0x18 => match s.linkExpect p w with
    | some t => t.ok rq
    | none => s.nackAccess rq
  | _ => s.nackAccess rq

/-- One register written with 8 bytes, and its answer.  A register in which every field is RO, and an offset without a
register, answer NACK_ACCESS (R8, R413). -/
def writeReg (s : State) (rq : Req) (e : WriteEnv) (a : Nat) (w : Word) : State :=
  match s.storeReg a w with
  | some t => t.ok rq
  | none =>
    match a with
    | 0x2030 => s.resetCommand rq (ctxFin (w.extractLsb' 0 4).toNat) (w.extractLsb' 4 2).toNat (w.extractLsb' 16 16)
    | 0x2058 => s.oosCommand rq (w.extractLsb' 0 2).toNat (w.extractLsb' 16 16)
    | 0x2068 => s.hearthCommand rq (w.extractLsb' 0 7) (w.extractLsb' 8 2).toNat (w.extractLsb' 16 16) e.adding
    | 0x2820 => s.writeKin rq w
    | 0x2828 => s.writeUpd rq w e.good
    | 0x2830 => if management rq then (s.updAppend w).ok rq else s.nackAccess rq
    | 0x3010 => (s.incWrite w).ok rq
    | 0x3018 => match s.offsetWrite w with
      | some t => t.ok rq
      | none => s.nackAccess rq
    | 0x3058 => { s with tim.rtcSet := some w }.ok rq
    | 0x3060 => (s.probeCmd (w.extractLsb' 0 5) (w.extractLsb' 16 16) (w.extractLsb' 32 16) e.stamp).ok rq
    | 0x7F08 => match s.selfCoordWrite w with
      | some t => t.ok rq
      | none => s.nackAccess rq
    | 0xD020 =>
      let s := { s with tst.suspect := s.tst.suspect && !w.getLsbD 0 }
      (if w.getLsbD 1 then s.drainSelf else s).ok rq
    | 0xD080 => (s.packCommand (w.extractLsb' 0 2).toNat (w.extractLsb' 8 32) (w.extractLsb' 48 16)).ok rq
    | 0xD0A0 => (s.grantTest (w.extractLsb' 0 4) (w.extractLsb' 16 16) (w.extractLsb' 32 32)).ok rq
    | 0xD0C0 => (s.sigCommand (w.extractLsb' 0 2).toNat (w.extractLsb' 8 8) (w.extractLsb' 16 8) (w.extractLsb' 32 16)).ok rq
    | 0xE008 => (s.setCursor (w.extractLsb' 0 32)).ok rq
    | 0xE010 => (s.setFreeze (w.getLsbD 0)).ok rq
    | 0xE028 => (s.unmask (w.extractLsb' 0 16)).ok rq
    | 0xF050 => s.lcCommand rq ((s.sec.lcData.getD 4 0).toNat) (w.extractLsb' 32 32) (w.extractLsb' 0 16)
    | 0xF060 => (s.lcAppend w).ok rq
    | _ =>
      if 0x3100 ≤ a ∧ a < 0x3180 then (s.modPulse ((a - 0x3100) / 32) (State.pulseCtl s.now.toNat w)).ok rq
      else if 0x4000 ≤ a ∧ a < 0x5900 then s.writeLink rq ((a - 0x4000) / 256) (a % 256) w
      else if 0x9000 ≤ a ∧ a < 0xA000 ∧ a % 256 = 0x08 then s.writeCtxCmd rq (ctxFin ((a - 0x9000) / 256)) w
      else if 0x9000 ≤ a ∧ a < 0xA000 ∧ a % 256 = 0xD0 then
        s.bindCommand rq (ctxFin ((a - 0x9000) / 256)) (w.extractLsb' 0 16) (w.extractLsb' 16 4) (w.extractLsb' 32 16)
      else if 0xC100 ≤ a ∧ a < 0xC500 ∧ a % 64 = 0x28 then s.writeRst rq (ctxFin ((a - 0xC100) / 64)) w e
      else s.nackAccess rq

/-- Several registers written in rising order; the first that is not answered OK ends the write with its answer, and what
was written before it stays (log entry 38). -/
def writeRegs (s : State) (rq : Req) (e : WriteEnv) : Nat → List Word → State
  | _, [] => s
  | a, w :: r =>
    let t := ({ s with answers := [], sent := [] }).writeReg rq e a w
    let t := { t with sent := s.sent ++ t.sent }
    match t.answers, r with
    | [x], _ :: _ => if x.result = .ok then writeRegs t rq e (a + 8) r else t
    | _, _ => t

/-! ## Accesses (R413, R343, R365) -/

/-- The words of a payload. -/
def payloadWords (d : Bytes) : List Word := (List.range (d.length / 8)).map fun i => Bytes.word d (8 * i)

/-- The access's effect would be doubled by a repeat (R412). -/
def repeats (op : OpCode) (a n : Nat) (data : Bytes) : Bool :=
  match op with
  | .rd => (regsOf a n).any readActs
  | _ => (regsOf a n).any (fun r => r = 0x2830 || r = 0xF060) ||
    (payloadWords data).zipIdx.any fun x => (x.1 &&& w1cMask (a + 8 * x.2)) ≠ 0

/-- Only tallies, the event recorder and ID_ remain readable in RETIRED (R348). -/
def readable (s : State) (a : Nat) : Bool :=
  s.sec.lc ≠ .retired || decide (a < 0x1000) || (decide (0xE000 ≤ a) && decide (a < 0xF000))

/-- The requester may make the access (R343): a management path or a charter endpoint; any other requester reads ID_ only. -/
def mayAccess (s : State) (rq : Req) (op : OpCode) (a : Nat) : Bool :=
  (management rq || s.endpoint rq || (op = .rd && decide (a < 0x1000))) && (op ≠ .rd || s.readable a)

/-- An access to control space at offset `a`: `n` bytes read, or `data` written (R413, R405).  `new`: the access is never a
repeat (R414). -/
def access (s : State) (rq : Req) (op : OpCode) (a n : Nat) (data : Bytes) (e : WriteEnv) (new : Bool) : State :=
  let n := if op = .rd then n else data.length
  s.judge rq ((regsOf a n).all emberReg) fun s =>
    if op ≠ .rd && op ≠ .wr then s.nackAccess rq
    else if !inBlock a n || (op = .rd && decide (256 < n)) then s.nackAddress rq
    else if !s.mayAccess rq op a then s.nackAccess rq
    else
      let act (s : State) : State :=
        if op = .rd then
          let (s, d) := s.readRegs (regsOf a n)
          s.answer rq .ok 0 d
        else s.writeRegs rq e a (payloadWords data)
      if repeats op a n data && !new then s.once rq a act else act s

/-! ## The management paths (R414) -/

/-- RESULT as a RESP codes it (R406). -/
def resultNum : Result → Nat
  | .ok => 1 | .nackRetry => 2 | .nackClaim => 3 | .nackAccess => 4 | .nackAddress => 5 | .nackBusy => 6

/-- A request of the I3C path: it carries no header of its own. -/
def i3cReq : Req :=
  { path := .i3c, ctxv := false, ctx := 0, node := 0xFFFF, source := 0xFFFF, epoch := 0, reqId := 0, ext := none }

/-- An I3C private write: 4 bytes set the offset, 12 write a register there, any other length leaves RESULT 5 for the next
read.  A RESULT kept for the next read is that of the newest write; 0: none (log entry 39). -/
def i3cWrite (s : State) (d : Bytes) (e : WriteEnv) : State :=
  let a := BitVec.ofNat 32 (Bytes.le d 0 4)
  if s.kin.power = .off || s.kin.power = .railLost then s
  else if d.length = 4 then { s with ctl.i3cOffset := a, ctl.i3cResult := 0 }
  else if d.length = 12 then
    let t := s.access i3cReq .wr a.toNat 0 (d.drop 4) e true
    let r := match t.answers.getLast? with
      | some x => resultNum x.result
      | none => 0
    { t with answers := s.answers, ctl.i3cOffset := a, ctl.i3cResult := BitVec.ofNat 8 r }
  else { s with ctl.i3cResult := 5 }

/-- An I3C private read: 9 bytes, the RESULT and the 8 bytes that a new RD at the offset returns. -/
def i3cRead (s : State) : State :=
  let t := s.access i3cReq .rd s.ctl.i3cOffset.toNat 8 [] {} true
  match t.answers.getLast? with
  | none => t
  | some x =>
    let r := if s.ctl.i3cResult = 0 then resultNum x.result else s.ctl.i3cResult.toNat
    { t with answers := s.answers, ctl.i3cResult := 0 }.answer i3cReq .ok 0 (natLe 1 r ++ Bytes.at x.data 0 8)

/-- A datagram's request: control space only; Osfel's other spaces are not permitted on this path (R343, R414). -/
def sgmiiRequest (s : State) (rq : Req) (op : OpCode) (addr n : Nat) (data : Bytes) (e : WriteEnv) : State :=
  let rq := { rq with path := .sgmii }
  if addr < 2 ^ 44 then s.access rq op addr n data e false
  else s.judge rq false fun s => if addr < 6 * 2 ^ 44 then s.nackAccess rq else s.nackAddress rq

end State

/-! ## The commands -/

/-- I3C_PRIVATE_WRITE (R414). -/
def execI3cPrivateWrite (data : Bytes) (env : WriteEnv) (s : State) : Host.Outcome State Fault Refusal :=
  .next (s.begin.i3cWrite data env)

/-- I3C_PRIVATE_READ (R414). -/
def execI3cPrivateRead (s : State) : Host.Outcome State Fault Refusal := .next s.begin.i3cRead

/-- SGMII_DATAGRAM (R414): to UDP port 17,310; `addr` is [47:0] of ADDRESS, `len` the OPERAND of a RD. -/
def execSgmiiDatagram (rq : Req) (op : OpCode) (addr len : Nat) (data : Bytes) (env : WriteEnv) (s : State) :
    Host.Outcome State Fault Refusal :=
  .next (s.begin.sgmiiRequest rq op addr len data env)

/-- REGISTER_WRITE (R413), and every other access to a control register by any path: `op` with `data` written, or `len`
bytes read, at an offset of control space. -/
def execRegisterWrite (rq : Req) (op : OpCode) (offset len : Nat) (data : Bytes) (env : WriteEnv) (s : State) :
    Host.Outcome State Fault Refusal :=
  .next (s.begin.access rq op offset len data env false)

end Sys2Proof.Machine
end

