-- ==== Sys2Proof/Machine/Thermal.lean ====
section
/-!
DEFINITION. Sys2Proof/Machine/Thermal.lean: pilot-only, the power limit and throttling, the thermal trip (19 R429–R432).
-/

namespace Sys2Proof.Machine

namespace State

/-- Pilot-only begins (R429): every region is gated and every port has been DOWN for 60 s. -/
def pilotEnter (s : State) : State :=
  let gated := (List.range 4).all fun q => (s.region q).power = .off
  let down := (List.range 25).all fun p =>
    let q := s.port p
    (q.state = .down || q.state = .member) &&
      (match q.downSince with | some t => s.outside t (60 * second) | none => true)
  if s.kin.power = .ready && gated && down then { s with kin.power := .pilotOnly }.railsOff else s

/-- Throttling acts (R430): rate work first, then the hearth clock, to no less than 1.0 GHz. -/
def throttleDown (s : State) : State :=
  let s := if s.pwr.active then s
    else
      { s with pwr.active := true, pwr.out := true, pwr.entries := satInc s.pwr.entries }.bumpTally 19 |>.event 24 1 0
  if !s.pwr.halved then { s with pwr.halved := true }
  else { s with pwr.clockSteps := min 8 (s.pwr.clockSteps + 1) }

/-- One step back up, in reverse order; throttling ends with the last (R430, R431). -/
def throttleUp (s : State) : State :=
  let s := if s.pwr.clockSteps ≠ 0 then { s with pwr.clockSteps := s.pwr.clockSteps - 1 }
    else { s with pwr.halved := false }
  if s.pwr.clockSteps = 0 && !s.pwr.halved then { s with pwr.active := false, pwr.out := false, pwr.cause := 0 } else s

/-- A 1 ms window ends (R430, R431). -/
def powerWindow (s : State) (p : PowerSample) : State :=
  let s := { s with pwr.mw := p.mw, pwr.junction := p.junction }
  let limit := 1000 * s.pwr.limit.toNat
  let heat := decide (1600 ≤ p.junction.toInt) || p.hbmHot
  let watts := decide (limit < p.mw.toNat)
  if heat || watts then { s.throttleDown with pwr.cause := BitVec.ofNat 2 (bit heat + 2 * bit watts) }
  else if s.pwr.active && decide (100 * p.mw.toNat ≤ 95 * limit) && decide (p.junction.toInt < 1552) then s.throttleUp
  else s

/-- The junction reaches 115 °C (R432): as a failed kindling with REASON THERMAL; what ran is lost with the rails. -/
def thermalTrip (s : State) : State :=
  match s.kin.power with
  | .off | .retryWait | .ember | .railLost => s
  | _ =>
    let s := (s.event 24 2 0).bumpTally 20
    let s := { s with ctxs := [], engines := s.engines.filter (fun x => 68 ≤ x.1)
                      mir := { stackA := s.mir.stackA, stackB := s.mir.stackB } }
    s.kindleFail 9

end State

/-- PILOT_ONLY_ENTRY (R429). -/
def execPilotOnlyEntry (s : State) : Host.Outcome State Fault Refusal := .next s.begin.pilotEnter

/-- PILOT_ONLY_WAKE (R429): signal appears on port p; a management write wakes through its own command. -/
def execPilotOnlyWake (p : Fin 25) (s : State) : Host.Outcome State Fault Refusal :=
  let s := s.begin
  .next (if (s.port p).enable then s.pilotWake else s)

/-- POWER_WINDOW (R430); the same steps apply in a kindling's stages 4 to 6 (R435). -/
def execPowerWindow (p : PowerSample) (s : State) : Host.Outcome State Fault Refusal :=
  let s := s.begin
  .next (if s.kin.power = .ready || (s.kin.power = .kindling && decide (4 ≤ s.kin.stage)) then s.powerWindow p else s)

/-- THERMAL_TRIP (R432). -/
def execThermalTrip (s : State) : Host.Outcome State Fault Refusal := .next s.begin.thermalTrip

end Sys2Proof.Machine
end

