-- ==== Sys2Proof/Machine/Dispatch.lean ====
section
/-!
DEFINITION. Sys2Proof/Machine/Dispatch.lean: one arm per command, in the order of spec/opcode_table.json.
-/

namespace Sys2Proof.Machine

/-- The command's effect on everything but the queue. -/
def exec (i : Instr) (s : State) : Host.Outcome State Fault Refusal :=
  match i with
  | .pilotRailPowerUp => Sys2Proof.Machine.execPilotRailPowerUp s
  | .resetInN held => Sys2Proof.Machine.execResetInN held s
  | .switchedPgLoss r => Sys2Proof.Machine.execSwitchedPgLoss r s
  | .corePowerUpKindling => Sys2Proof.Machine.execCorePowerUpKindling s
  | .pilotPgLoss => Sys2Proof.Machine.execPilotPgLoss s
  | .refclkLoss => Sys2Proof.Machine.execRefclkLoss s
  | .vbatLow => Sys2Proof.Machine.execVbatLow s
  | .railPgAssert r => Sys2Proof.Machine.execRailPgAssert r s
  | .railPgTimeout r => Sys2Proof.Machine.execRailPgTimeout r s
  | .kindlingStageDone rep => Sys2Proof.Machine.execKindlingStageDone rep s
  | .kindlingStageTimeout whole elapsed => Sys2Proof.Machine.execKindlingStageTimeout whole elapsed s
  | .kindlingRetry => Sys2Proof.Machine.execKindlingRetry s
  | .rekindle rq seq => Sys2Proof.Machine.execRekindle rq seq s
  | .kinCommit rq seq => Sys2Proof.Machine.execKinCommit rq seq s
  | .kinDisarm rq seq => Sys2Proof.Machine.execKinDisarm rq seq s
  | .updOpen rq target seq length => Sys2Proof.Machine.execUpdOpen rq target seq length s
  | .updEraseDone good => Sys2Proof.Machine.execUpdEraseDone good s
  | .updDataWrite rq data => Sys2Proof.Machine.execUpdDataWrite rq data s
  | .updClose rq target seq length good => Sys2Proof.Machine.execUpdClose rq target seq length good s
  | .updArm rq target seq length => Sys2Proof.Machine.execUpdArm rq target seq length s
  | .updAbort rq target seq length => Sys2Proof.Machine.execUpdAbort rq target seq length s
  | .unitErrorDetected u unit op adding => Sys2Proof.Machine.execUnitErrorDetected u unit op adding s
  | .hearthResetCmd rq h seq adding => Sys2Proof.Machine.execHearthResetCmd rq h seq adding s
  | .hearthResetTimeout h => Sys2Proof.Machine.execHearthResetTimeout h s
  | .structuralTestDone h pass => Sys2Proof.Machine.execStructuralTestDone h pass s
  | .supervisorDisagree k => Sys2Proof.Machine.execSupervisorDisagree k s
  | .fatalDieError cause => Sys2Proof.Machine.execFatalDieError cause s
  | .hbmStackFail k => Sys2Proof.Machine.execHbmStackFail k s
  | .tableRebuildDone => Sys2Proof.Machine.execTableRebuildDone s
  | .regionPowerGate q => Sys2Proof.Machine.execRegionPowerGate q s
  | .resourceWake r late => Sys2Proof.Machine.execResourceWake r late s
  | .hearthClockGate h => Sys2Proof.Machine.execHearthClockGate h s
  | .stepRecordStore rq op off len data => Sys2Proof.Machine.execStepRecordStore rq op off len data s
  | .stepOpen rq data => Sys2Proof.Machine.execStepOpen rq data s
  | .stepVoid rq data => Sys2Proof.Machine.execStepVoid rq data s
  | .stepRecordReservedCmd rq data => Sys2Proof.Machine.execStepRecordReservedCmd rq data s
  | .contributionWrc rq op seg off data stamp => Sys2Proof.Machine.execContributionWrc rq op seg off data stamp s
  | .upwardBlockSend c seg b => Sys2Proof.Machine.execUpwardBlockSend c seg b s
  | .upwardBlockReceived rq hdr seg data stamp => Sys2Proof.Machine.execUpwardBlockReceived rq hdr seg data stamp s
  | .reportReceived rq hdr g segs stamp => Sys2Proof.Machine.execReportReceived rq hdr g segs stamp s
  | .lagClearReceived rq hdr => Sys2Proof.Machine.execLagClearReceived rq hdr s
  | .divergentNoteReceived rq entry step => Sys2Proof.Machine.execDivergentNoteReceived rq entry step s
  | .releaseReceived rq hdr g ms ckpt => Sys2Proof.Machine.execReleaseReceived rq hdr g ms ckpt s
  | .downwardBlockReceived rq hdr seg data => Sys2Proof.Machine.execDownwardBlockReceived rq hdr seg data s
  | .resultDelivery x step seg c node => Sys2Proof.Machine.execResultDelivery x step seg c node s
  | .effectiveDeadline c g => Sys2Proof.Machine.execEffectiveDeadline c g s
  | .reportDeadline c => Sys2Proof.Machine.execReportDeadline c s
  | .voidReceived rq hdr cause origin segs => Sys2Proof.Machine.execVoidReceived rq hdr cause origin segs s
  | .resendReceived rq hdr seg c => Sys2Proof.Machine.execResendReceived rq hdr seg c s
  | .shardLedgerWr rq op off len data => Sys2Proof.Machine.execShardLedgerWr rq op off len data s
  | .defineEntry rq e seq cmp => Sys2Proof.Machine.execDefineEntry rq e seq cmp s
  | .fillYobel rq e seq cmp => Sys2Proof.Machine.execFillYobel rq e seq cmp s
  | .fillWindow rq e seq cmp => Sys2Proof.Machine.execFillWindow rq e seq cmp s
  | .fillRestore rq e seq cmp => Sys2Proof.Machine.execFillRestore rq e seq cmp s
  | .fillMirror rq e seq cmp => Sys2Proof.Machine.execFillMirror rq e seq cmp s
  | .fillMirrorStart e => Sys2Proof.Machine.execFillMirrorStart e s
  | .fillPageRetry e page => Sys2Proof.Machine.execFillPageRetry e page s
  | .sealEntry rq e seq cmp => Sys2Proof.Machine.execSealEntry rq e seq cmp s
  | .remirror rq e seq cmp => Sys2Proof.Machine.execRemirror rq e seq cmp s
  | .dropPartner rq e seq cmp => Sys2Proof.Machine.execDropPartner rq e seq cmp s
  | .retireEntry rq e seq cmp => Sys2Proof.Machine.execRetireEntry rq e seq cmp s
  | .entryWipeDone e => Sys2Proof.Machine.execEntryWipeDone e s
  | .entrySyncReceived rq m => Sys2Proof.Machine.execEntrySyncReceived rq m s
  | .claimCas rq e cmp new => Sys2Proof.Machine.execClaimCas rq e cmp new s
  | .claimFwdReceived rq shard claim => Sys2Proof.Machine.execClaimFwdReceived rq shard claim s
  | .stepProgramRun e h => Sys2Proof.Machine.execStepProgramRun e h s
  | .stepUpdateDone h => Sys2Proof.Machine.execStepUpdateDone h s
  | .partnerDigestReceived rq shard page version claim install digest => Sys2Proof.Machine.execPartnerDigestReceived rq shard page version claim install digest s
  | .voteOutcomeReceived rq shard step pages => Sys2Proof.Machine.execVoteOutcomeReceived rq shard step pages s
  | .partnerPageReceived rq shard claim page version purpose digest off data => Sys2Proof.Machine.execPartnerPageReceived rq shard claim page version purpose digest off data s
  | .digestWaitExpiry e page version => Sys2Proof.Machine.execDigestWaitExpiry e page version s
  | .mirrorWindowRd rq off len => Sys2Proof.Machine.execMirrorWindowRd rq off len s
  | .mirrorWindowWr rq op off data => Sys2Proof.Machine.execMirrorWindowWr rq op off data s
  | .nop h f => Sys2Proof.Machine.execNop h f s
  | .halt h f choice => Sys2Proof.Machine.execHalt h f choice s
  | .nextInsn h f choice => Sys2Proof.Machine.execNextInsn h f choice s
  | .abortInsn h f => Sys2Proof.Machine.execAbortInsn h f s
  | .jmp h f => Sys2Proof.Machine.execJmp h f s
  | .beq h f => Sys2Proof.Machine.execBeq h f s
  | .bne h f => Sys2Proof.Machine.execBne h f s
  | .blt h f => Sys2Proof.Machine.execBlt h f s
  | .bge h f => Sys2Proof.Machine.execBge h f s
  | .csrr h f => Sys2Proof.Machine.execCsrr h f s
  | .csrw h f => Sys2Proof.Machine.execCsrw h f s
  | .li h f => Sys2Proof.Machine.execLi h f s
  | .lui h f => Sys2Proof.Machine.execLui h f s
  | .sadd h f => Sys2Proof.Machine.execSadd h f s
  | .saddi h f => Sys2Proof.Machine.execSaddi h f s
  | .ssub h f => Sys2Proof.Machine.execSsub h f s
  | .smul h f => Sys2Proof.Machine.execSmul h f s
  | .sand h f => Sys2Proof.Machine.execSand h f s
  | .sor h f => Sys2Proof.Machine.execSor h f s
  | .sxor h f => Sys2Proof.Machine.execSxor h f s
  | .sshli h f => Sys2Proof.Machine.execSshli h f s
  | .sshri h f => Sys2Proof.Machine.execSshri h f s
  | .smin h f => Sys2Proof.Machine.execSmin h f s
  | .sld h f => Sys2Proof.Machine.execSld h f s
  | .sst h f => Sys2Proof.Machine.execSst h f s
  | .setvl h f => Sys2Proof.Machine.execSetvl h f s
  | .vld h f => Sys2Proof.Machine.execVld h f s
  | .vst h f => Sys2Proof.Machine.execVst h f s
  | .viota h f => Sys2Proof.Machine.execViota h f s
  | .vadd h f => Sys2Proof.Machine.execVadd h f s
  | .vsub h f => Sys2Proof.Machine.execVsub h f s
  | .vmul h f => Sys2Proof.Machine.execVmul h f s
  | .vdiv h f => Sys2Proof.Machine.execVdiv h f s
  | .vfma h f => Sys2Proof.Machine.execVfma h f s
  | .vfms h f => Sys2Proof.Machine.execVfms h f s
  | .vfnma h f => Sys2Proof.Machine.execVfnma h f s
  | .vsqrt h f => Sys2Proof.Machine.execVsqrt h f s
  | .vrsqrt h f => Sys2Proof.Machine.execVrsqrt h f s
  | .vmin h f => Sys2Proof.Machine.execVmin h f s
  | .vmax h f => Sys2Proof.Machine.execVmax h f s
  | .vabs h f => Sys2Proof.Machine.execVabs h f s
  | .vneg h f => Sys2Proof.Machine.execVneg h f s
  | .vcvt h f => Sys2Proof.Machine.execVcvt h f s
  | .vceq h f => Sys2Proof.Machine.execVceq h f s
  | .vclt h f => Sys2Proof.Machine.execVclt h f s
  | .vcle h f => Sys2Proof.Machine.execVcle h f s
  | .vnf h f => Sys2Proof.Machine.execVnf h f s
  | .vand h f => Sys2Proof.Machine.execVand h f s
  | .vor h f => Sys2Proof.Machine.execVor h f s
  | .vxor h f => Sys2Proof.Machine.execVxor h f s
  | .vsel h f => Sys2Proof.Machine.execVsel h f s
  | .viadd h f => Sys2Proof.Machine.execViadd h f s
  | .vany h f => Sys2Proof.Machine.execVany h f s
  | .vrand h f => Sys2Proof.Machine.execVrand h f s
  | .aclr h f => Sys2Proof.Machine.execAclr h f s
  | .aadd h f => Sys2Proof.Machine.execAadd h f s
  | .aget h f => Sys2Proof.Machine.execAget h f s
  | .tld h f => Sys2Proof.Machine.execTld h f s
  | .tst h f => Sys2Proof.Machine.execTst h f s
  | .tzero h f => Sys2Proof.Machine.execTzero h f s
  | .tmma h f => Sys2Proof.Machine.execTmma h f s
  | .tred h f => Sys2Proof.Machine.execTred h f s
  | .insnLimitFault h => Sys2Proof.Machine.execInsnLimitFault h s
  | .slotLengthWr rq op area off len data => Sys2Proof.Machine.execSlotLengthWr rq op area off len data s
  | .imageWrc rq slot off data => Sys2Proof.Machine.execImageWrc rq slot off data s
  | .slotClear rq slot seq => Sys2Proof.Machine.execSlotClear rq slot seq s
  | .hyperWr rq op off len data => Sys2Proof.Machine.execHyperWr rq op off len data s
  | .yobelRestart k => Sys2Proof.Machine.execYobelRestart k s
  | .yobelTagWrite y c reg v => Sys2Proof.Machine.execYobelTagWrite y c reg v s
  | .yobelClaimWrite y c v => Sys2Proof.Machine.execYobelClaimWrite y c v s
  | .yobelRemove y c cmd seq => Sys2Proof.Machine.execYobelRemove y c cmd seq s
  | .yobelContribute k c seg off data ans => Sys2Proof.Machine.execYobelContribute k c seg off data ans s
  | .yobelResultWrc y op seg off data => Sys2Proof.Machine.execYobelResultWrc y op seg off data s
  | .yobelStatusWr y op off len data => Sys2Proof.Machine.execYobelStatusWr y op off len data s
  | .yobelDirectoryWr y op off len data => Sys2Proof.Machine.execYobelDirectoryWr y op off len data s
  | .yobelImageWrc y op area off data => Sys2Proof.Machine.execYobelImageWrc y op area off data s
  | .yobelSlotWr y op slot off len data => Sys2Proof.Machine.execYobelSlotWr y op slot off len data s
  | .releaseStepWrite y slot step => Sys2Proof.Machine.execReleaseStepWrite y slot step s
  | .yobelStepUpdate k slot fuel => Sys2Proof.Machine.execYobelStepUpdate k slot fuel s
  | .yobelHold y r => Sys2Proof.Machine.execYobelHold y r s
  | .installFill y r => Sys2Proof.Machine.execInstallFill y r s
  | .installRepair y r => Sys2Proof.Machine.execInstallRepair y r s
  | .installRelease y r => Sys2Proof.Machine.execInstallRelease y r s
  | .statePortRd y off len => Sys2Proof.Machine.execStatePortRd y off len s
  | .statePortWr y op off data => Sys2Proof.Machine.execStatePortWr y op off data s
  | .tileCapture k c rec => Sys2Proof.Machine.execTileCapture k c rec s
  | .captureSend k c ok => Sys2Proof.Machine.execCaptureSend k c ok s
  | .captureRecordDrop k c => Sys2Proof.Machine.execCaptureRecordDrop k c s
  | .yobelProbeCmd y seq fuel => Sys2Proof.Machine.execYobelProbeCmd y seq fuel s
  | .conformanceProbeDone k id digest fault => Sys2Proof.Machine.execConformanceProbeDone k id digest fault s
  | .conformanceTimeout k fault => Sys2Proof.Machine.execConformanceTimeout k fault s
  | .yobelTestGrant y start stop seq set => Sys2Proof.Machine.execYobelTestGrant y start stop seq set s
  | .yobelTestEnd k result failUnit start stop => Sys2Proof.Machine.execYobelTestEnd k result failUnit start stop s
  | .digestRecord rq op r => Sys2Proof.Machine.execDigestRecord rq op r s
  | .captureRecord rq op r => Sys2Proof.Machine.execCaptureRecord rq op r s
  | .captureCompare => Sys2Proof.Machine.execCaptureCompare s
  | .testReport rq op r => Sys2Proof.Machine.execTestReport rq op r s
  | .accelDrain k => Sys2Proof.Machine.execAccelDrain k s
  | .selfDrain rq => Sys2Proof.Machine.execSelfDrain rq s
  | .packInstall rq set seq => Sys2Proof.Machine.execPackInstall rq set seq s
  | .packDelete rq set seq => Sys2Proof.Machine.execPackDelete rq set seq s
  | .hearthTestStart q => Sys2Proof.Machine.execHearthTestStart q s
  | .hearthTestDone q transient pass => Sys2Proof.Machine.execHearthTestDone q transient pass s
  | .handover q => Sys2Proof.Machine.execHandover q s
  | .handoverTimeout q => Sys2Proof.Machine.execHandoverTimeout q s
  | .hearthUncovered h => Sys2Proof.Machine.execHearthUncovered h s
  | .tstOverdue k => Sys2Proof.Machine.execTstOverdue k s
  | .testGrant rq port seq set => Sys2Proof.Machine.execTestGrant rq port seq set s
  | .sigOpen rq cls idx seq => Sys2Proof.Machine.execSigOpen rq cls idx seq s
  | .sigClose rq cls idx seq => Sys2Proof.Machine.execSigClose rq cls idx seq s
  | .sigDataRead rq => Sys2Proof.Machine.execSigDataRead rq s
  | .ctxActivate rq n seq => Sys2Proof.Machine.execCtxActivate rq n seq s
  | .charterCheckReceived rq answer digest => Sys2Proof.Machine.execCharterCheckReceived rq answer digest s
  | .ctxQuiesce rq n seq => Sys2Proof.Machine.execCtxQuiesce rq n seq s
  | .ctxResume rq n seq => Sys2Proof.Machine.execCtxResume rq n seq s
  | .resumeComplete n => Sys2Proof.Machine.execResumeComplete n s
  | .ctxRelease rq n seq => Sys2Proof.Machine.execCtxRelease rq n seq s
  | .ctxClear rq n seq => Sys2Proof.Machine.execCtxClear rq n seq s
  | .pageWipeDone good => Sys2Proof.Machine.execPageWipeDone good s
  | .cleanTimeout n => Sys2Proof.Machine.execCleanTimeout n s
  | .pageMove e src dst reason last => Sys2Proof.Machine.execPageMove e src dst reason last s
  | .charterWrc rq op off len data => Sys2Proof.Machine.execCharterWrc rq op off len data s
  | .keyRelease rq op n off data => Sys2Proof.Machine.execKeyRelease rq op n off data s
  | .restoreDistReceived rq m => Sys2Proof.Machine.execRestoreDistReceived rq m s
  | .voteNoteReceived rq step roots => Sys2Proof.Machine.execVoteNoteReceived rq step roots s
  | .lcEnroll rq length seq => Sys2Proof.Machine.execLcEnroll rq length seq s
  | .lcRotate rq length seq => Sys2Proof.Machine.execLcRotate rq length seq s
  | .lcDisown rq length seq => Sys2Proof.Machine.execLcDisown rq length seq s
  | .lcService rq length seq => Sys2Proof.Machine.execLcService rq length seq s
  | .lcRetire rq length seq => Sys2Proof.Machine.execLcRetire rq length seq s
  | .lcProvision rq length seq => Sys2Proof.Machine.execLcProvision rq length seq s
  | .lcDataWrite rq data => Sys2Proof.Machine.execLcDataWrite rq data s
  | .entropyHealthFail => Sys2Proof.Machine.execEntropyHealthFail s
  | .drbgReseed => Sys2Proof.Machine.execDrbgReseed s
  | .drainPut c => Sys2Proof.Machine.execDrainPut c s
  | .putAck id => Sys2Proof.Machine.execPutAck id s
  | .drainAckReceived rq shard seq page => Sys2Proof.Machine.execDrainAckReceived rq shard seq page s
  | .shardDoneReceived rq seq shard claim target digest => Sys2Proof.Machine.execShardDoneReceived rq seq shard claim target digest s
  | .checkpointManifestPut c => Sys2Proof.Machine.execCheckpointManifestPut c s
  | .ckptCommitReceived rq seq => Sys2Proof.Machine.execCkptCommitReceived rq seq s
  | .abandonReceived rq seq cause => Sys2Proof.Machine.execAbandonReceived rq seq cause s
  | .ckptSelect rq n max seqno ms reached => Sys2Proof.Machine.execCkptSelect rq n max seqno ms reached s
  | .ckptAbandon rq n max seqno => Sys2Proof.Machine.execCkptAbandon rq n max seqno s
  | .fluePut f rq area slot seqno obj => Sys2Proof.Machine.execFluePut f rq area slot seqno obj s
  | .flueGet f rq area slot seqno key => Sys2Proof.Machine.execFlueGet f rq area slot seqno key s
  | .flueList f rq area slot seqno key => Sys2Proof.Machine.execFlueList f rq area slot seqno key s
  | .bindNode rq n logical port seq => Sys2Proof.Machine.execBindNode rq n logical port seq s
  | .livenessTimer p => Sys2Proof.Machine.execLivenessTimer p s
  | .linkCfgWrite rq p data => Sys2Proof.Machine.execLinkCfgWrite rq p data s
  | .linkRetrain rq p => Sys2Proof.Machine.execLinkRetrain rq p s
  | .linkCounterClear rq p => Sys2Proof.Machine.execLinkCounterClear rq p s
  | .linkExpectWrite rq p data => Sys2Proof.Machine.execLinkExpectWrite rq p data s
  | .selfCoordWrite rq data => Sys2Proof.Machine.execSelfCoordWrite rq data s
  | .signalDetect p => Sys2Proof.Machine.execSignalDetect p s
  | .linkLock p lanes => Sys2Proof.Machine.execLinkLock p lanes s
  | .trainingTimeout p => Sys2Proof.Machine.execTrainingTimeout p s
  | .linkRetryTimer p => Sys2Proof.Machine.execLinkRetryTimer p s
  | .helloReceived p raw => Sys2Proof.Machine.execHelloReceived p raw s
  | .helloTimeout p => Sys2Proof.Machine.execHelloTimeout p s
  | .keyxReceived p ct sig => Sys2Proof.Machine.execKeyxReceived p ct sig s
  | .finishReceived p payload => Sys2Proof.Machine.execFinishReceived p payload s
  | .lossOfLock p => Sys2Proof.Machine.execLossOfLock p s
  | .codewordReceived p c => Sys2Proof.Machine.execCodewordReceived p c s
  | .replayAckReceived p rsn gap => Sys2Proof.Machine.execReplayAckReceived p rsn gap s
  | .replayAckTimer p => Sys2Proof.Machine.execReplayAckTimer p s
  | .replayTimeout p => Sys2Proof.Machine.execReplayTimeout p s
  | .modulePoll p present st fault temp => Sys2Proof.Machine.execModulePoll p present st fault temp s
  | .moduleReadyTimeout p => Sys2Proof.Machine.execModuleReadyTimeout p s
  | .topoReceived p t => Sys2Proof.Machine.execTopoReceived p t s
  | .topoTimer => Sys2Proof.Machine.execTopoTimer s
  | .nonceCounterLimit p => Sys2Proof.Machine.execNonceCounterLimit p s
  | .laneRecalibrate p held => Sys2Proof.Machine.execLaneRecalibrate p held s
  | .timeIncrementWrite rq data => Sys2Proof.Machine.execTimeIncrementWrite rq data s
  | .timeOffsetWrite rq data => Sys2Proof.Machine.execTimeOffsetWrite rq data s
  | .rtcSet rq data => Sys2Proof.Machine.execRtcSet rq data s
  | .probeCmd rq port id seq stamp => Sys2Proof.Machine.execProbeCmd rq port id seq stamp s
  | .probeReceived p id stamp => Sys2Proof.Machine.execProbeReceived p id stamp s
  | .probeEchoReceived p stamp => Sys2Proof.Machine.execProbeEchoReceived p stamp s
  | .txqTimeRead rq q => Sys2Proof.Machine.execTxqTimeRead rq q s
  | .pulseCtlWrite rq j data => Sys2Proof.Machine.execPulseCtlWrite rq j data s
  | .pulseEdge j => Sys2Proof.Machine.execPulseEdge j s
  | .syncTimer p t1 => Sys2Proof.Machine.execSyncTimer p t1 s
  | .syncReqReceived p m epoch t2 t3 => Sys2Proof.Machine.execSyncReqReceived p m epoch t2 t3 s
  | .syncRespReceived p m t4 => Sys2Proof.Machine.execSyncRespReceived p m t4 s
  | .holdoverTimeout => Sys2Proof.Machine.execHoldoverTimeout s
  | .ppsEdge stamp high => Sys2Proof.Machine.execPpsEdge stamp high s
  | .ppsLost => Sys2Proof.Machine.execPpsLost s
  | .ctxReset rq c seq => Sys2Proof.Machine.execCtxReset rq c seq s
  | .taskReleaseTimeout h adding => Sys2Proof.Machine.execTaskReleaseTimeout h adding s
  | .resetNoteReceived rq node ep => Sys2Proof.Machine.execResetNoteReceived rq node ep s
  | .watchdogExpiry c task item => Sys2Proof.Machine.execWatchdogExpiry c task item s
  | .mpdHeartbeat => Sys2Proof.Machine.execMpdHeartbeat s
  | .mpdHeartbeatTimeout => Sys2Proof.Machine.execMpdHeartbeatTimeout s
  | .mpdRestartDone => Sys2Proof.Machine.execMpdRestartDone s
  | .mpdRestartTimeout => Sys2Proof.Machine.execMpdRestartTimeout s
  | .oosEnter rq seq => Sys2Proof.Machine.execOosEnter rq seq s
  | .oosClear rq seq => Sys2Proof.Machine.execOosClear rq seq s
  | .evictionEnd => Sys2Proof.Machine.execEvictionEnd s
  | .respReceived id r cause epoch d => Sys2Proof.Machine.execRespReceived id r cause epoch d s
  | .requestTimeout id => Sys2Proof.Machine.execRequestTimeout id s
  | .scrubLine last found good => Sys2Proof.Machine.execScrubLine last found good s
  | .hbmRetrain k pass => Sys2Proof.Machine.execHbmRetrain k pass s
  | .tallyJournalWrite erases worst bad intact => Sys2Proof.Machine.execTallyJournalWrite erases worst bad intact s
  | .telemetrySnapshot t => Sys2Proof.Machine.execTelemetrySnapshot t s
  | .telHoldTimeout => Sys2Proof.Machine.execTelHoldTimeout s
  | .faultInAccept k level start => Sys2Proof.Machine.execFaultInAccept k level start s
  | .faultInStuck k => Sys2Proof.Machine.execFaultInStuck k s
  | .faultInQuiet k => Sys2Proof.Machine.execFaultInQuiet k s
  | .unmask rq m => Sys2Proof.Machine.execUnmask rq m s
  | .evrCursorWrite rq data => Sys2Proof.Machine.execEvrCursorWrite rq data s
  | .evrRec7Read rq => Sys2Proof.Machine.execEvrRec7Read rq s
  | .evrFreeze rq v => Sys2Proof.Machine.execEvrFreeze rq v s
  | .freezeTimeout => Sys2Proof.Machine.execFreezeTimeout s
  | .i3cPrivateWrite data env => Sys2Proof.Machine.execI3cPrivateWrite data env s
  | .i3cPrivateRead => Sys2Proof.Machine.execI3cPrivateRead s
  | .sgmiiDatagram rq op addr len data env => Sys2Proof.Machine.execSgmiiDatagram rq op addr len data env s
  | .registerWrite rq op offset len data env => Sys2Proof.Machine.execRegisterWrite rq op offset len data env s
  | .pilotOnlyEntry => Sys2Proof.Machine.execPilotOnlyEntry s
  | .pilotOnlyWake p => Sys2Proof.Machine.execPilotOnlyWake p s
  | .powerWindow p => Sys2Proof.Machine.execPowerWindow p s
  | .thermalTrip => Sys2Proof.Machine.execThermalTrip s
  | .descriptorTableWr rq op off len data => Sys2Proof.Machine.execDescriptorTableWr rq op off len data s
  | .refclkTick => Sys2Proof.Machine.execRefclkTick s
  | .crystalTick => Sys2Proof.Machine.execCrystalTick s
  | .refclkReturn => Sys2Proof.Machine.execRefclkReturn s
  | .railPgDeassert r timeout => Sys2Proof.Machine.execRailPgDeassert r timeout s
  | .pllStop q cold => Sys2Proof.Machine.execPllStop q cold s
  | .epochChangedExpiry p => Sys2Proof.Machine.execEpochChangedExpiry p s
  | .spillReceived rq slot data => Sys2Proof.Machine.execSpillReceived rq slot data s
  | .testWindowStart k => Sys2Proof.Machine.execTestWindowStart k s
  | .acceleratorShardBind k shard => Sys2Proof.Machine.execAcceleratorShardBind k shard s
  | .yblCtxNodeWrite y c reg v => Sys2Proof.Machine.execYblCtxNodeWrite y c reg v s
  | .parkedTimeout n => Sys2Proof.Machine.execParkedTimeout n s
  | .keptAnswerExpiry => Sys2Proof.Machine.execKeptAnswerExpiry s

end Sys2Proof.Machine
end

