-- ==== Sys2Proof/Safety.lean ====
section
/-!
DEFINITION. Sys2Proof/Safety.lean: what the statements say of whole states: the canonical form of the tables, and the ranges
that clamped registers keep.
-/

namespace Sys2Proof.Machine

/-- Every table of State is in its canonical form: keys strictly rising, no value equal to what an unlisted key reads as. -/
def State.tablesWf (s : State) : Bool :=
  Map.wf {} s.ports && Map.wf {} s.egress && Map.wf {} s.ctxs && Map.wf {} s.die.hearths && Map.wf {} s.die.regions &&
  Map.wf {} s.die.hbms && Map.wf {} s.mir.entries && Map.wf {} s.engines && Map.wf {} s.yobels && Map.wf {} s.flues &&
  Map.wf {} s.tst.ports && Map.wf {} s.evr.inputs && Map.wf 0 s.evr.tallies

/-- A value that waits for TIME_INCREMENT's next tick is within its range (R309). -/
def incNextOk : Option Word → Bool
  | some v => within incLow incHigh v.toNat
  | none => true

/-- The registers whose written values are brought to the nearer limit hold values within their ranges: PWR_LIMIT (R416),
TIME_INCREMENT and the value that waits for the next tick (R309), ALC_CFG0 and ALC_CFG1 (R285), MIR_CFG (R139), ESC_CFG
(R219), TST_CFG0 and TST_CFG1 (R264), TEL_SCRUB_CFG (R396). -/
def State.rangesOk (s : State) : Bool :=
  within 300 1100 s.pwr.limit.toNat && within incLow incHigh s.tim.inc.toNat &&
  incNextOk s.tim.incNext &&
  within 1 100 s.alc.wipePct.toNat && within 1 100 s.alc.wipeUrgent.toNat && within 1 100 s.alc.migratePct.toNat &&
  within 1 1000 s.alc.wakeGuard.toNat && within 1 255 s.alc.gateIdle.toNat && within 10 100 s.alc.vcMaxPct.toNat &&
  within 10 60000 s.mir.digestWait.toNat && within 1 15 s.mir.repairTries.toNat && within 5 90 s.esc.lowWater.toNat &&
  within 1 100 s.esc.damperPct.toNat && within 1 100 s.esc.fullPct.toNat && within 1 63 s.esc.outstanding.toNat &&
  within 1 720 s.tst.deferH.toNat && within 1 720 s.tst.accelH.toNat && within 10 1440 s.tst.rotateMin.toNat &&
  within 1 65535 s.tst.oddPages.toNat && within 1 65535 s.tst.capLimit.toNat && within 1 65535 s.tst.pairLimit.toNat &&
  within 1 168 s.tel.periodH.toNat

/-- A management path reaches the block (R365, R426): with its rails up always, in ember mode and during a kindling only what
answers there. -/
def State.answering (s : State) (ember : Bool) : Bool :=
  match s.kin.power with
  | .ready | .pilotOnly | .waking => true
  | .off | .railLost => false
  | _ => ember

/-- A request of this kind reaches its own rule: the power state (R365, R426), an UP port (R296) of an Azard that is not drained
(R382), the node (R402), its SOURCE (R338), the EPOCH in force (R371) and room among the port's requests (R409). -/
def State.reaches (s : State) (rq : Req) (ember : Bool) : Bool :=
  match rq.path with
  | .port p =>
    decide (s.kin.power = .ready) && s.portUp p && !s.rst.drained &&
      (if rq.ctxv then !(s.port p).closedFor.contains rq.ctx && s.sourceOk p rq else decide (rq.node = 0xFFFF)) &&
      decide (rq.epoch = s.epochOf rq.ctxv rq.ctx) && !s.queueFull p
  | .i3c => s.answering ember
  | .sgmii => s.rst.mpdUp && !rq.ctxv && decide (rq.node = 0xFFFF) && decide (rq.epoch = s.epochOf false rq.ctx) &&
      s.answering ember

/-- A request that reached its rule by Osfel. -/
def State.reachesByPort (s : State) (rq : Req) : Bool := !State.management rq && s.reaches rq false

/-- A message that is never answered reaches its rule; nobody judges its EPOCH (R371, R408). -/
def State.reachesQuiet (s : State) (rq : Req) : Bool :=
  match rq.path with
  | .port p =>
    decide (s.kin.power = .ready) && s.portUp p &&
      (!rq.ctxv || (!(s.port p).closedFor.contains rq.ctx && s.sourceOk p rq))
  | _ => false

/-- The requester may use a register of control space, and its request reaches it (R343). -/
def State.served (s : State) (rq : Req) (ember : Bool) (who : State.Who) : Bool := s.reaches rq ember && s.mayUse rq who

/-- What no command changes: the ID_ registers (R415) and the queue of waiting commands. -/
def State.fixed (s : State) : Ident × List Instr := (s.ident, s.pending)

/-- `t` is the state a kindling entry of kind `kind` leaves after `s` (R354, R370): a kindling at stage 1, its kind in RST_ENTRY,
the package epoch raised by 1, the volatile state gone, the failure count and the RTC kept. -/
def State.enteredFrom (t s : State) (kind : Nat) : Prop :=
  t.kin.power = .kindling ∧ t.kin.stage = 1 ∧ t.rst.kind = BitVec.ofNat 4 kind ∧ t.rst.epoch = s.rst.epoch + 1 ∧
  t.ctxs = [] ∧ t.mir.entries = [] ∧ t.ctl = {} ∧ t.kin.fails = s.kin.fails ∧ t.tim.rtcSec = s.tim.rtcSec ∧
  t.tim.rtcValid = s.tim.rtcValid

/-- The one answer the command gave is RESULT `r`, under the EPOCH in force for its request. -/
def State.answeredOnly (t s : State) (rq : Req) (r : Result) (cause : BitVec 8 := 0) (data : Bytes := []) : Prop :=
  t.answers = [{ result := r, cause := cause, epoch := s.epochOf rq.ctxv rq.ctx, data := data }]

/-! ## Instructions -/

/-- No repair that a discarded instance of engine h's run awaits is still pending (R169). -/
def State.goesOn (s : State) (h : Fin 77) : Bool := !(s.engine h).awaits.any (s.heldPage (s.engine h))

/-- No page that the instance in progress on engine h touched is held for a repair or was repaired under it (R169, R187). -/
def State.undisturbed (s : State) (h : Fin 77) : Bool := !(s.engine h).disturbed (s.heldPage (s.engine h))

/-- Engine h runs and awaits no repair, the word at its pc is `w`, and INSN_LIMIT leaves room for one more instruction (R147,
R153). -/
def State.standsAt (s : State) (h : Fin 77) (w : Word) : Bool :=
  (s.engine h).running && s.goesOn h && decide ((s.engine h).fetch = some w) &&
    decide ((s.engine h).icount < (s.engine h).hdr.insnLimit)

/-- A format R instruction of TYPE 0 stands at the pc with its unused fields and reserved bits 0 (R158). -/
def State.rForm (s : State) (h : Fin 77) (op : Nat) (f : RFields) (u : RUse) : Bool :=
  s.standsAt h (encR op f) && rFieldsOk f u && decide (f.ty = 0)

/-- The same of format I. -/
def State.iForm (s : State) (h : Fin 77) (op : Nat) (f : IFields) (d a b : Bool) : Bool :=
  s.standsAt h (encI op f) && iFieldsOk f d a b && decide (f.ty = 0)

/-- An element-wise instruction stands at the pc, its TYPE a format code and vl within VLMAX (R144, R158). -/
def State.vecForm (s : State) (h : Fin 77) (op : Nat) (f : RFields) (u : RUse) : Bool :=
  s.standsAt h (encR op f) && rFieldsOk f u && typeOk f.ty && vlOk (s.engine h) (fmtWidth f.ty.toNat)

/-- The state in which engine h has retired one instruction: `e` with the count of instructions raised by 1. -/
def State.retired (s : State) (h : Fin 77) (e : Engine) : State :=
  s.begin.setEngine h { e with icount := (s.engine h).icount + 1 }

/-- Engine h with `v` in scalar register `d` (none in s0, R141) and the pc at the next instruction. -/
def Engine.wroteScalar (e : Engine) (d : BitVec 5) (v : Word) : Engine :=
  { e with regs := if d = 0 then e.regs else { e.regs with s := Map.set 0 e.regs.s d.toNat v }, pc := e.pc + 1 }

/-- The address A + IMM of a format I instruction, and that of its row or element i at a stride of B × `size` bytes (R145, R156). -/
def Engine.addr (e : Engine) (f : IFields) : Word := e.regs.sc f.a + f.imm.signExtend 64
def Engine.addrAt (e : Engine) (f : IFields) (size i : Nat) : Word :=
  e.addr f + BitVec.ofNat 64 i * e.regs.sc f.b * BitVec.ofNat 64 size

/-- Element i, of w bits, of a register's content. -/
def elemAt (w x i : Nat) : Nat := (x >>> (w * i)) % 2 ^ w

/-- Element i of vector register r at width w, and its value under format code c and the engine's FTZ. -/
def Engine.el (e : Engine) (w : Nat) (r : BitVec 5) (i : Nat) : Nat := elemAt w (e.regs.vec r).toNat i
def Engine.fv (e : Engine) (c : Nat) (r : BitVec 5) (i : Nat) : FVal := readF e.regs.ftz c (e.el (fmtWidth c) r i)

/-- Cell (i, j) of a tile register, and its value in a format whose elements stand in the low bits of the cells (R156). -/
def Engine.cell (e : Engine) (t : BitVec 5) (i j : Nat) : Nat := elemAt 32 (e.regs.tile t).toNat (64 * i + j)
def Engine.cellV (e : Engine) (c : Nat) (t : BitVec 5) (i j : Nat) : FVal := readF e.regs.ftz c (e.cell t i j % 2 ^ fmtWidth c)

/-- Cell (i, j) of D + A × B, its 64 products added in ascending order of k, with the flags raised (R80, R156). -/
def Engine.mmaCell (e : Engine) (f : RFields) (i j : Nat) : FRes :=
  (List.range 64).foldl (fun acc k => mmaStep e.regs.ftz acc (e.cellV f.ty.toNat f.a i k) (e.cellV f.ty.toNat f.b k j))
    (e.cell f.d i j, 0)

/-- The exact sum of a row of tile A, or of a column where AXIS is 1, rounded once to TYPE (R79, R156). -/
def Engine.redCell (e : Engine) (f : RFields) (i : Nat) : FRes :=
  ((List.range 64).foldl (fun (a : Acc) j =>
    a.add (readF e.regs.ftz 0 (if f.axis then e.cell f.a j i else e.cell f.a i j))) {}).round f.ty.toNat e.regs.ftz

/-- An element-wise instruction has run on engine h: elements below vl of vector register d hold the results, those at or beyond
vl and the other registers are unchanged, the results' flags are raised, the pc is at the next instruction, one instruction is
counted, and nothing outside the engine changed (R144, R154). -/
def State.vecStep (t s : State) (h : Fin 77) (d : BitVec 5) (w : Nat) (res : Nat → FRes) : Prop :=
  let e := s.engine h
  let g := t.engine h
  t = s.begin.setEngine h g ∧
  g = { e with regs := { e.regs with v := g.regs.v, estat := g.regs.estat }, pc := e.pc + 1, icount := e.icount + 1 } ∧
  (∀ i, i < e.vlN → g.el w d i = (res i).1 % 2 ^ w) ∧
  (∀ i, e.vlN ≤ i → i < vlMax w → g.el w d i = e.el w d i) ∧
  (∀ r, r ≠ d → g.regs.vec r = e.regs.vec r) ∧
  g.regs.estat = (List.range e.vlN).foldl (fun a i => a ||| (res i).2) e.regs.estat

/-! ## Steps and clearing -/

/-- The control word that a write of the step record window carries, with CMD in its low bits (R35). -/
def controlWord (cmd : Nat) (data : Bytes) : Nat := Bytes.le data 0 8 - Bytes.le data 0 8 % 4 + cmd

/-- The step record window after a write of the words from the control word on, CMD reading 0 again (R34). -/
def State.windowAfter (s : State) (n : Nat) (cmd : Nat) (data : Bytes) : Mem :=
  let w := (s.ctx n).step.window.write 0 (natLe 8 (controlWord cmd data) ++ data.drop 8)
  w.write 0 (natLe 8 (w.le 0 8 - w.le 0 8 % 4))

/-- A write of the control word by a charter endpoint that is well placed (R34). -/
def State.controlWrite (s : State) (rq : Req) (data : Bytes) : Bool :=
  s.reachesByPort rq && s.endpoint rq && decide (8 ≤ data.length) && decide (data.length % 8 = 0) && decide (data.length ≤ 256)

/-- The attempt that a record in a window names. -/
def windowStep (w : Mem) : Word := BitVec.ofNat 64 (w.le 8 8)
def windowAttempt (w : Mem) : BitVec 16 := BitVec.ofNat 16 (w.le 0x10 2)

/-- What the ledger adds to an element for one contribution of it (R63); nothing when it is non-finite or overflows. -/
def ledgerTerm (g : Seg) (raw : Mem) (i : Nat) : BitVec 128 :=
  match convert (elemValue g.cfmt.toNat raw i) g.e0.toInt with
  | .value l _ => l
  | _ => 0

/-! ## Containment -/

/-- `t` is what a hearth reset of `h` leaves after `s` (R17, R376): its role is RESETTING, its engine and units are in their
initial state, the reset is counted, and one that was active has handed its role to the region's spare, where there was one. -/
def State.resetHearthOf (t s : State) (h : Nat) : Prop :=
  (t.hearth h).role = .resetting ∧ t.engine h = {} ∧ (t.hearth h).ops = [] ∧
  t.rst.hearthResets = satInc s.rst.hearthResets ∧ t.tally 9 = satInc (s.tally 9) ∧ t.ctxs = s.ctxs ∧ t.mir = s.mir ∧
  ((s.hearth h).role = .active → ∀ sp, (s.hearthsIn (h / 17) .spare).head? = some sp → (t.hearth sp).role = .active)

/-- A context that is not EMPTY or WIPING and has no shard entry, binding, pair, checkpoint or waiting place here. -/
def State.bareContext (s : State) (n : Nat) : Bool :=
  let c := s.ctx n
  decide (c.life.st ≠ .empty) && decide (c.life.st ≠ .wiping) && (s.entriesOf n).isEmpty && c.bind.bound.isEmpty &&
  c.clr.pairs.isEmpty && decide (c.esc.curSeq = 0) && s.alc.waiters.isEmpty

/-- `t` is what a context reset of `n` with this cause leaves after `s` (R374, R375, R386). -/
def State.resetContextOf (t s : State) (n : Nat) (cause : Nat) : Prop :=
  (t.ctx n).epoch = (s.ctx n).epoch + 1 ∧ ((t.ctx n).life.st = .wiping ∨ (t.ctx n).life.st = .empty) ∧
  t.rst.lastCtx = BitVec.ofNat 4 n ∧ t.rst.lastCause = BitVec.ofNat 4 cause ∧
  t.rst.lastCounted = decide (cause = 2 ∨ cause = 3) ∧ t.rst.lastTime = s.now ∧
  t.rst.ctxResets = satInc s.rst.ctxResets ∧ (t.ctx n).step = {} ∧ (t.ctx n).wd = {}

/-! ## The shard ledger and the mirrors -/

/-- A request by a charter endpoint to entry `i` of its context's own range (R109, R110). -/
def State.ledgerAt (s : State) (rq : Req) (i : Nat) : Bool :=
  let l := (s.ctx rq.ctx).life
  s.reachesByPort rq && s.endpoint rq && decide (l.st ≠ .empty) && decide (l.charter.entryFirst ≤ i) &&
  decide (i < l.charter.entryFirst + l.charter.entryCount) && decide (i < 65536)

/-- A request of R115 to entry `i` by WR, under a REQ_SEQ that was not accepted last, with no request running. -/
def State.ledgerReq (s : State) (rq : Req) (i : Nat) (seq : BitVec 16) : Bool :=
  let e := s.entry i
  s.ledgerAt rq i && !e.role && decide (e.result ≠ 1) && decide (e.seqActed ≠ some seq) && decide (s.pinned < 4096)

/-- No step of a context waits for its update or its votes here, and no attempt is open: nothing is due at a vote's end. -/
def State.settled (s : State) (n : Nat) : Bool :=
  (s.ctx n).step.updating.isEmpty && (s.ctx n).step.voting.isEmpty && (s.openAtt n).isNone

/-- `t` differs from `s` in the shard ledger's entries by entry `i` alone. -/
def State.entryOnly (t s : State) (i : Nat) : Prop := ∀ k, k ≠ i → t.entry k = s.entry k

/-- A request by a charter endpoint to the program store of its context (R160). -/
def State.storeAt (s : State) (rq : Req) : Bool :=
  s.reachesByPort rq && s.endpoint rq && decide ((s.ctx rq.ctx).life.st ≠ .empty)

/-- Slot k of a context's program store. -/
def State.slot (s : State) (n k : Nat) : Slot := Map.get {} (s.ctx n).prog.slots k

/-- `t` differs from `s` in the contexts by the program store's slot k of context n alone. -/
def State.slotOnly (t s : State) (n k : Nat) : Prop :=
  (∀ j, j ≠ k → t.slot n j = s.slot n j) ∧ (t.ctx n).prog.hyper = (s.ctx n).prog.hyper ∧ (t.ctx n).life = (s.ctx n).life ∧
  (∀ m, m ≠ n → t.ctx m = s.ctx m) ∧ t.mir = s.mir

/-! ## Yobel -/

/-- The one answer a Yobel gave to `y`, under its epochs at the request. -/
def State.yAnsweredOnly (t s : State) (y : YReq) (r : Result) (cause : Nat := 0) (data : Bytes := []) : Prop :=
  t.answers = [{ result := r, cause := BitVec.ofNat 8 cause, epoch := s.yEpoch y, data := data }]

/-- `t` differs from `s` in the Yobel of tray port k alone, its engine apart. -/
def State.yobelOnly (t s : State) (k : Nat) : Prop :=
  (∀ j, j ≠ k → t.yobel j = s.yobel j) ∧ (∀ h, h ≠ 68 + k → t.engine h = s.engine h) ∧ t.ctxs = s.ctxs ∧ t.mir = s.mir ∧
  t.ports = s.ports ∧ t.tst = s.tst ∧ t.evr = s.evr

/-- A request to a Yobel under its own epochs, to a space that it decodes (R173, R176, R194). -/
def State.yTaken (s : State) (y : YReq) : Bool :=
  decide (y.epoch = s.yEpoch y) && !y.space.any fun a => !State.yDecodes a

/-- The same, by the operation WR that its row stands for (R173). -/
def State.yWrites (s : State) (y : YReq) : Bool := s.yTaken y && (decide (y.other = none) || decide (y.other = some .wr))

/-- An install record that names a slot there is, with an OP that R186 gives. -/
def State.yInstalls (s : State) (y : YReq) (r : InstallRec) : Bool :=
  s.yWrites y && !r.op.any State.opRefused && decide (r.slot.toNat < (s.yobel y.port).slotsN.toNat)

/-- An install record that passes the claim gate (R174, R182, R187). -/
def State.gated (s : State) (y : YReq) (r : InstallRec) : Bool :=
  let x := s.yslot y.port r.slot.toNat
  s.yInstalls y r && decide (x.st ≠ .free) && decide (x.st ≠ .fenced) && decide (State.claimOf y.ext = some x.claim)

/-- The run of slot `sl` on the engine of the Yobel of port k after `fuel` more of its instructions, instances that touch a held
page discarded (R183, R187). -/
def State.yRunOn (s : State) (k : Fin 9) (sl fuel : Nat) (e : Engine) : Engine := Engine.runHeld (s.yobelHolds k sl) fuel e

/-- A page of the slot is held at the slot's version, so that the version does not rise (R187). -/
def State.yHeld (s : State) (k : Fin 9) (sl : Nat) : Bool :=
  (s.yslot k sl).holds.any fun h => h.2 = (s.yslot k sl).version

/-! ## Verification and test -/

/-- A WRC into an intake window of R184 from the tray port p of a node bound in the context, its device not fenced (R224). -/
def State.intakeAt (s : State) (rq : Req) (p : Fin 25) : Bool :=
  decide (rq.path = .port p) && decide (p.val < 9) && rq.ctxv && s.reaches rq false && !s.deviceFenced rq.ctx p &&
  (s.ctx rq.ctx).bind.bound.any fun b => b.2.toNat = p.val

/-! ## Contexts -/

/-- A CTX_CMD of context n by a requester that may write it, under a SEQ that was not acted on last (R335). -/
def State.ctxWrite (s : State) (rq : Req) (n : Fin 16) (seq : BitVec 16) (who : State.Who) : Bool :=
  s.served rq false who && (State.management rq || decide (rq.ctx = n)) && decide ((s.ctx n).life.acted ≠ seq)

/-- The state in which an accepted ACTIVATE is judged: the command noted, nothing waited for (R269, R335). -/
def State.judged (s : State) (n : Nat) (seq : BitVec 16) : State :=
  ((s.begin.modLife n fun l => { l with cmd := BitVec.ofNat 3 1, seq := seq }).modLife n fun l =>
    { l with acted := seq, outcome := .ok }).modLife n fun l => { l with waitReq := none, checks := [] }

/-- Every context but `n` is the same in `t` as in `s`. -/
def State.otherCtxs (t s : State) (n : Nat) : Prop := ∀ m, m ≠ n → t.ctx m = s.ctx m

/-- A request to space 0x5 that R338 and the node number do not bar, charter loading and the credentials, reaches its rule (R343). -/
def State.opened (s : State) (rq : Req) : Bool :=
  match rq.path with
  | .port p => decide (s.kin.power = .ready) && s.portUp p && (!rq.ctxv || !(s.port p).closedFor.contains rq.ctx) &&
      decide (rq.epoch = s.epochOf rq.ctxv rq.ctx) && !s.rst.drained && !s.queueFull p
  | _ => false

/-- The command object that a write of SEC_LC_CMD with this LENGTH judges, its CMD read as `cmd` (R349). -/
def State.lcObject (s : State) (cmd : Nat) (length : BitVec 32) : Bytes :=
  (s.sec.lcData.take length.toNat).take 4 ++ natLe 1 cmd ++ (s.sec.lcData.take length.toNat).drop 5

/-- A life-cycle command of this CMD code, written under a new SEQ with a whole object staged (R349, R353). -/
def State.lcWrite (s : State) (rq : Req) (length : BitVec 32) (seq : BitVec 16) : Bool :=
  s.served rq true .both && decide (seq ≠ s.sec.lcActed) && decide (0x20 ≤ length.toNat) &&
  decide (s.sec.lcData.length = (length.toNat + 7) / 8 * 8)

/-! ## Checkpoints and the flue -/

/-- No entry of a context waits to be sealed here, and none has a repair pending. -/
def State.noSeals (s : State) (n : Nat) : Bool := (s.entriesOf n).all fun e => !e.2.sealDue && e.2.repairing.isEmpty

/-- `t` is what the end of the checkpoint in progress leaves of it in context n: no sequence, no key, no hold (R204, R214). -/
def State.ckptEnded (t : State) (n : Nat) : Prop :=
  (t.ctx n).esc.curSeq = 0 ∧ (t.ctx n).esc.key = none ∧ (t.ctx n).esc.included = [] ∧ (t.ctx n).esc.pages = [] ∧
  ∀ i, (t.entry i).st ≠ .free → (t.entry i).ctx.toNat = n → (t.entry i).heldPages = [] ∧ (t.entry i).drainSet = []

/-- An ESC_RST_CMD of context n by an endpoint of it, under a SEQNO that was not acted on last (R219). -/
def State.rstWrite (s : State) (rq : Req) (n : Fin 16) (seqno : BitVec 16) : Bool :=
  s.served rq false .charter && decide (rq.ctx = n) && decide (seqno ≠ (s.ctx n).esc.rstActed)

/-- A flue target's slot takes a new operation (R210). -/
def State.flueNew (s : State) (f : Nat) (rq : Req) (area : BitVec 4) (slot : BitVec 6) (seqno : BitVec 16) : Bool :=
  let d := State.flueSlot (s.flue f) rq slot
  decide (area.toNat ≤ 1) && decide (d.seqno ≠ seqno)

/-- `t` differs from `s` in flue target f's slot of this requester alone, its objects apart. -/
def State.flueOnly (t s : State) (f : Nat) (rq : Req) (slot : BitVec 6) : Prop :=
  (∀ g, g ≠ f → t.flue g = s.flue g) ∧ t.ctxs = s.ctxs ∧ t.mir = s.mir ∧
  ∀ k, k ≠ rq.source.toNat * 64 + slot.toNat → Map.get {} (t.flue f).slots k = Map.get {} (s.flue f).slots k

/-! ## Links -/

/-- `t` differs from `s` in the ports by port p alone, and in no context and no shard entry. -/
def State.portOnly (t s : State) (p : Nat) : Prop :=
  (∀ q, q ≠ p → t.port q = s.port q) ∧ t.ctxs = s.ctxs ∧ t.mir = s.mir

/-- `t` is what a retrain of port p leaves after `s` (R296): TRAINING, no hello, counted where the port was UP. -/
def State.retrainedFrom (t s : State) (p : Nat) : Prop :=
  (t.port p).state = .training ∧ (t.port p).helloGot = none ∧ (t.port p).keysSet = false ∧ t.portOnly s p ∧
  (t.port p).retrains = (if (s.port p).state = .up then satInc (s.port p).retrains else (s.port p).retrains) ∧
  t.tally 25 = (if (s.port p).state = .up then satInc (s.tally 25) else s.tally 25)

/-- A request served while Azard is ready, so that no rail has to be switched on for it (R429). -/
def State.servedReady (s : State) (rq : Req) : Bool := s.served rq false .both && decide (s.kin.power = .ready)

/-- `s` is sound: its tables are canonical, its clamped registers within their ranges, and it still has the identity and the queue
`x`. -/
structure State.Kept (x : Ident × List Instr) (s : State) : Prop where
  tables : s.tablesWf = true
  ranges : s.rangesOk = true
  fixed : s.fixed = x

end Sys2Proof.Machine
end

