-- ==== Sys2Proof/Certificates/Slice0/Obligations.lean ====
section
/-!
DEFINITION. Sys2Proof/Certificates/Slice0/Obligations.lean: the statements about the block.  OBLIGATIONS.json gives each its
number, and the rules it formalises or rests on.
-/

section

open Sys2Proof Sys2Proof.Machine

/-- O1. For every command c and state s with c at the front of its queue, step s is exec c on s with the queue's rest; on an
empty queue step answers next s, the model's own choice (log entry 5). (18 Control space, 98 opcode table) -/
def Obligations.StepTakesFrontCommand : Prop :=
  (∀ (c : Instr) (rest : List Instr) (s : State),
    step { s with pending := c :: rest } = exec c { s with pending := rest }) ∧
  (∀ s : State, s.pending = [] → step s = .next s)

/-- O2. Every command answers a next state in every state: the refusals of the device are answers (R406) that State holds,
and never a stop of the model. (R343, R371, R406) -/
def Obligations.EveryCommandAnswersNext : Prop :=
  ∀ (c : Instr) (s : State), ∃ t, exec c s = .next t

/-- O3. Pilot-rail power-up, a RESET_IN_n of at least 10 us, the return of the core rails, the return of REFCLK and REKINDLE
(every context EMPTY) each start a kindling: stage 1, RST_ENTRY.KIND, package epoch plus 1, no context or shard entry left,
the failure count and the RTC kept. The time base starts from 0 at a pilot-rail entry and is kept at the others. A shorter
pulse is ignored; a REKINDLE while a context is not EMPTY answers NACK_ACCESS and changes nothing. (R354, R367, R368, R370,
R421) -/
def Obligations.KindlingEntriesBegin : Prop :=
  (∀ s : State, ∃ t, exec .pilotRailPowerUp s = .next t ∧
    t.enteredFrom s 1 ∧ t.pwr.pgPilot = true ∧ t.tim.raw = 0 ∧ t.tim.acc = 0) ∧
  (∀ (held : Nat) (s : State), 10000 ≤ held → s.pwr.pgPilot = true → ∃ t, exec (.resetInN held) s = .next t ∧
    t.enteredFrom s 3 ∧ t.tim.raw = s.tim.raw ∧ t.tim.acc = s.tim.acc) ∧
  (∀ (held : Nat) (s : State), held < 10000 → exec (.resetInN held) s = .next s.begin) ∧
  (∀ s : State, s.kin.power = .railLost → ∃ t, exec .corePowerUpKindling s = .next t ∧
    t.enteredFrom s 2 ∧ t.tim.raw = s.tim.raw ∧ t.tim.acc = s.tim.acc) ∧
  (∀ s : State, s.kin.power = .off → ∃ t, exec .refclkReturn s = .next t ∧
    t.enteredFrom s 1 ∧ t.pwr.pgPilot = true ∧ t.tim.raw = 0) ∧
  (∀ (rq : Req) (seq : BitVec 16) (s : State), s.served rq true .mgmt = true → seq ≠ s.kin.cmdActed → s.allEmpty = true →
    ∃ t, exec (.rekindle rq seq) s = .next t ∧
      t.enteredFrom s 6 ∧ t.tim.raw = s.tim.raw ∧ t.kin.cmdActed = seq ∧ t.answeredOnly s rq .ok) ∧
  (∀ (rq : Req) (seq : BitVec 16) (s : State), s.served rq true .mgmt = true → seq ≠ s.kin.cmdActed → s.allEmpty = false →
    exec (.rekindle rq seq) s = .next (s.begin.answer rq .nackAccess))

/-- O4. A deassertion of PG_PILOT, and a REFCLK loss handled as one, leave the package off: every enable low, no context,
nothing answered or sent; with VBAT good the open event record, the holding queue, the tallies, the failure count and the
RTC are kept. A low VBAT clears VBAT_OK and the RTC's VALID and, with the pilot rail up, nothing else that VBAT holds. The
loss of an enabled switched power-good in service stops every context, begins the off order with SerDes and waits for the
KIND 2 kindling; in a kindling that has not failed twice it fails it with POWER. (R421, R424, R425, R426, R427, R364) -/
def Obligations.PowerLossStopsEverything : Prop :=
  (∀ s : State, s.pwr.pgPilot = true → ∃ t, exec .pilotPgLoss s = .next t ∧
    t.kin.power = .off ∧ t.pwr.pgPilot = false ∧ t.pwr.enHbm = false ∧ t.pwr.enSram = false ∧ t.pwr.enCore = false ∧
    t.pwr.enSerdes = false ∧ t.ctxs = [] ∧ t.answers = [] ∧ t.sent = [] ∧
    (s.pwr.vbatOk = true → t.evr.opened = s.evr.opened ∧ t.evr.queue = s.evr.queue ∧ t.evr.tallies = s.evr.tallies ∧
      t.kin.fails = s.kin.fails ∧ t.tim = s.tim)) ∧
  (∀ s : State, s.kin.power ≠ .off → ∃ t, exec .refclkLoss s = .next t ∧
    t.kin.power = .off ∧ t.pwr.pgPilot = false ∧ t.pwr.enHbm = false ∧ t.pwr.enSram = false ∧ t.pwr.enCore = false ∧
    t.pwr.enSerdes = false ∧ t.ctxs = [] ∧ t.answers = [] ∧ t.sent = []) ∧
  (∀ s : State, s.pwr.pgPilot = true →
    exec .vbatLow s = .next { s.begin with pwr.vbatOk := false, tim.rtcValid := false, tim.rtcLost := true }) ∧
  (∀ (r : Rail) (s : State), s.pwr.enabled r = true → s.pwr.good r = true → s.kin.power = .ready →
    ∃ t, exec (.switchedPgLoss r) s = .next t ∧
      t.kin.power = .railLost ∧ t.pwr.good r = false ∧ t.pwr.enSerdes = false ∧ t.ctxs = [] ∧ t.answers = [] ∧ t.sent = []) ∧
  (∀ (r : Rail) (s : State), s.pwr.enabled r = true → s.pwr.good r = true → s.kin.power = .kindling → s.kin.fails.toNat < 2 →
    ∃ t, exec (.switchedPgLoss r) s = .next t ∧
      t.kin.power = .retryWait ∧ t.kin.reason = 8 ∧ t.kin.fails = s.kin.fails + 1 ∧ t.pwr.enSerdes = false)

/-- O5. In stage 3 of a kindling a power-good that asserts in answer to its enable is taken, and the first group in the
order HBM, SRAM, CORE, SERDES whose power-good is not asserted has its enable asserted. An enabled power-good still missing
after 20 ms fails the kindling with POWER. While the rails go off (not in pilot-only), the deassertion of a power-good whose
enable is off, or its time limit, deasserts the next enable: CORE after SERDES, SRAM after CORE, HBM after SRAM. (R364,
R425) -/
def Obligations.RailSequenceFollowsPowerGoods : Prop :=
  (∀ (r : Rail) (s : State), s.pwr.enabled r = true → s.kin.power = .kindling → s.kin.stage = 3 →
    ∃ t, exec (.railPgAssert r) s = .next t ∧ t.pwr.good r = true ∧ t.kin = s.kin ∧
      (t.pwr.pgHbm = false → t.pwr.enHbm = true) ∧
      (t.pwr.pgHbm = true → t.pwr.pgSram = false → t.pwr.enSram = true) ∧
      (t.pwr.pgHbm = true → t.pwr.pgSram = true → t.pwr.pgCore = false → t.pwr.enCore = true) ∧
      (t.pwr.pgHbm = true → t.pwr.pgSram = true → t.pwr.pgCore = true → t.pwr.enSerdes = true)) ∧
  (∀ (r : Rail) (s : State), s.pwr.enabled r = true → s.pwr.good r = false → s.kin.power = .kindling →
    s.kin.fails.toNat < 2 → ∃ t, exec (.railPgTimeout r) s = .next t ∧
      t.kin.power = .retryWait ∧ t.kin.reason = 8 ∧ t.kin.fails = s.kin.fails + 1 ∧ t.pwr.enSerdes = false) ∧
  (∀ (r : Rail) (timeout : Bool) (s : State), s.pwr.enabled r = false → s.pwr.goingOff = true → s.kin.power ≠ .pilotOnly →
    ∃ t, exec (.railPgDeassert r timeout) s = .next t ∧
      t.pwr.good r = (timeout && s.pwr.good r) ∧ t.kin = s.kin ∧
      (r = .serdes → t.pwr.enCore = false) ∧ (r = .core → t.pwr.enSram = false) ∧ (r = .sram → t.pwr.enHbm = false) ∧
      (r = .hbm → t.pwr.goingOff = false))

/-- O6. A kindling stage that ends well leads to the next one: stage 1 with the ROM check passed, stage 3 with the rails up,
the MPD started and a UCIe module trained, stage 4 with six stacks or more, stage 5; stage 6, every enabled tray and Osfel-F
port settled, ends at READY with FAILS 0 and the elapsed time. A failed ROM check or self-test, too few stacks, or a stage's
time limit fails the kindling with its REASON, raises FAILS and turns the core rails off; the third failure in a row enters
ember mode. Stage 6's own limit ends at READY. A retry starts again at stage 1 with the epoch unchanged (the model's
reading, log entry 12). (R12, R21, R355, R364, R365) -/
def Obligations.KindlingStagesAdvance : Prop :=
  (∀ (rep : StageReport) (s : State), s.kin.power = .kindling → s.kin.stage = 1 → rep.romOk = true →
    ∃ t, exec (.kindlingStageDone rep) s = .next t ∧ t.kin.power = .kindling ∧ t.kin.stage = 2) ∧
  (∀ (rep : StageReport) (s : State), s.kin.power = .kindling → s.kin.stage = 1 → rep.romOk = false → s.kin.fails.toNat < 2 →
    ∃ t, exec (.kindlingStageDone rep) s = .next t ∧ t.kin.power = .retryWait ∧ t.kin.reason = 4 ∧
      t.kin.fails = s.kin.fails + 1 ∧ t.pwr.enSerdes = false) ∧
  (∀ (rep : StageReport) (s : State), s.kin.power = .kindling → s.kin.stage = 2 → rep.selftest ≠ 0 → 2 ≤ s.kin.fails.toNat →
    ∃ t, exec (.kindlingStageDone rep) s = .next t ∧ t.kin.power = .ember ∧ t.kin.stage = 8 ∧ t.kin.reason = 3 ∧
      t.sec.failed = rep.selftest ∧ t.sec.selftest = 2) ∧
  (∀ (rep : StageReport) (s : State), s.kin.power = .kindling → s.kin.stage = 3 → s.railsUp = true → rep.mpdOk = true →
    (rep.ucie0 || rep.ucie1) = true →
    ∃ t, exec (.kindlingStageDone rep) s = .next t ∧ t.kin.power = .kindling ∧ t.kin.stage = 4 ∧
      t.die.ucie0 = rep.ucie0 ∧ t.die.ucie1 = rep.ucie1) ∧
  (∀ (rep : StageReport) (s : State), s.kin.power = .kindling → s.kin.stage = 4 →
    ((List.range 8).filter fun i => rep.hbms.getLsbD i).length < 6 → s.kin.fails.toNat < 2 →
    ∃ t, exec (.kindlingStageDone rep) s = .next t ∧ t.kin.power = .retryWait ∧ t.kin.reason = 7) ∧
  (∀ (rep : StageReport) (s : State), s.kin.power = .kindling → s.kin.stage = 4 →
    6 ≤ ((List.range 8).filter fun i => rep.hbms.getLsbD i).length →
    ∃ t, exec (.kindlingStageDone rep) s = .next t ∧ t.kin.power = .kindling ∧ t.kin.stage = 5) ∧
  (∀ (rep : StageReport) (s : State), s.kin.power = .kindling → s.kin.stage = 5 →
    ∃ t, exec (.kindlingStageDone rep) s = .next t ∧ t.kin.power = .kindling ∧ t.kin.stage = 6) ∧
  (∀ (rep : StageReport) (s : State), s.kin.power = .kindling → s.kin.stage = 6 →
    s.portsSettled = true → ∃ t, exec (.kindlingStageDone rep) s = .next t ∧ t.kin.power = .ready ∧ t.kin.stage = 7 ∧ t.kin.fails = 0 ∧
      t.kin.elapsed = rep.elapsed ∧ t.kin.lastGood = s.kin.device) ∧
  (∀ (el : BitVec 16) (s : State), s.kin.power = .kindling → s.kin.stage = 6 →
    ∃ t, exec (.kindlingStageTimeout false el) s = .next t ∧ t.kin.power = .ready ∧ t.kin.fails = 0 ∧ t.kin.elapsed = el) ∧
  (∀ (whole : Bool) (el : BitVec 16) (s : State), s.kin.power = .kindling → (s.kin.stage ≠ 6 ∨ whole = true) →
    s.kin.fails.toNat < 2 →
    ∃ t, exec (.kindlingStageTimeout whole el) s = .next t ∧ t.kin.power = .retryWait ∧ t.kin.reason = 11 ∧
      t.kin.fails = s.kin.fails + 1) ∧
  (∀ s : State, s.kin.power = .retryWait →
    ∃ t, exec .kindlingRetry s = .next t ∧ t.kin.power = .kindling ∧ t.kin.stage = 1 ∧ t.rst = s.rst ∧ t.evr = s.evr)

/-- O7. From a management path, with a fresh SEQ: COMMIT raises each floor to the running counter and never lowers one;
DISARM clears PENDING; OPEN of targets 0-2 from a state other than BUSY empties the staging and reads BUSY, and the end of
the erase reads OPEN; each write of RST_UPD_DATA appends its bytes up to LENGTH; CLOSE with COUNT below LENGTH is refused
with SEQUENCE, and with COUNT equal to LENGTH and a failed read-back with WRITE; with a good one an image is staged on the
standby device when no check of R362 fails it and refused with that check's cause otherwise, the other device unchanged; ARM
while opened is refused with SEQUENCE and, staged, sets PENDING and reads ARMED when the standby set verifies, NOT_STAGED
otherwise; ABORT while open discards the staging. Each answers OK. (R366, R367, R368, R412) -/
def Obligations.UpdateStagingCommands : Prop :=
  (∀ (rq : Req) (seq : BitVec 16) (s : State), s.served rq true .mgmt = true → seq ≠ s.kin.cmdActed →
    ∃ t, exec (.kinCommit rq seq) s = .next t ∧ t.answeredOnly s rq .ok ∧ t.kin.cmdActed = seq ∧
      t.kin.floor.toNat = max s.kin.floor.toNat s.kin.img.counter.toNat ∧
      t.kin.fwFloor.toNat = max s.kin.fwFloor.toNat s.kin.fwCounter.toNat ∧ t.kin.pending = s.kin.pending) ∧
  (∀ (rq : Req) (seq : BitVec 16) (s : State), s.served rq true .mgmt = true → seq ≠ s.kin.cmdActed →
    ∃ t, exec (.kinDisarm rq seq) s = .next t ∧ t.answeredOnly s rq .ok ∧ t.kin.pending = false ∧
      t.kin.floor = s.kin.floor ∧ t.kin.fwFloor = s.kin.fwFloor) ∧
  (∀ (rq : Req) (target : BitVec 3) (seq : BitVec 16) (length : BitVec 32) (s : State), s.served rq true .mgmt = true →
    seq ≠ s.kin.updActed → target.toNat ≤ 2 → s.kin.updState ≠ .busy →
    ∃ t, exec (.updOpen rq target seq length) s = .next t ∧ t.answeredOnly s rq .ok ∧ t.kin.updState = .busy ∧
      t.kin.updData = [] ∧ t.kin.updCount = 0 ∧ t.kin.updOpenLength = length ∧ t.kin.updOpenTarget = target ∧
      (target ≠ 2 → t.kin.pending = false)) ∧
  (∀ s : State, s.kin.updState = .busy →
    exec (.updEraseDone true) s = .next { s.begin with kin.updState := .opened }) ∧
  (∀ s : State, s.kin.updState = .busy →
    ∃ t, exec (.updEraseDone false) s = .next t ∧ t.kin.updState = .refused ∧ t.kin.updCause = 11) ∧
  (∀ (rq : Req) (data : Word) (s : State), s.served rq true .mgmt = true → s.keptAnswer rq 0x2830 = none →
    s.kin.updState = .opened →
    ∃ t, exec (.updDataWrite rq data) s = .next t ∧ t.answeredOnly s rq .ok ∧
      t.kin.updData = s.kin.updData ++ (natLe 8 data.toNat).take (s.kin.updOpenLength.toNat - s.kin.updData.length)) ∧
  (∀ (rq : Req) (target : BitVec 3) (seq : BitVec 16) (length : BitVec 32) (good : Bool) (s : State),
    s.served rq true .mgmt = true → seq ≠ s.kin.updActed → s.kin.updState = .opened →
    s.kin.updCount ≠ s.kin.updOpenLength →
    ∃ t, exec (.updClose rq target seq length good) s = .next t ∧ t.answeredOnly s rq .ok ∧ t.kin.updState = .refused ∧
      t.kin.updCause = 12 ∧ t.kin.norA = s.kin.norA ∧ t.kin.norB = s.kin.norB) ∧
  (∀ (rq : Req) (target : BitVec 3) (seq : BitVec 16) (length : BitVec 32) (s : State),
    s.served rq true .mgmt = true → seq ≠ s.kin.updActed → s.kin.updState = .opened →
    s.kin.updCount = s.kin.updOpenLength → s.kin.updOpenTarget = 0 →
    ∃ t, exec (.updClose rq target seq length true) s = .next t ∧ t.answeredOnly s rq .ok ∧
      t.kin.updState = (if verifyImage s s.kin.updData = 0 then .staged else .refused) ∧
      t.kin.updCause.toNat = verifyImage s s.kin.updData ∧
      (norSet t (!s.standby) = norSet s (!s.standby)) ∧
      (verifyImage s s.kin.updData = 0 → (norSet t s.standby).image = s.kin.updData)) ∧
  (∀ (rq : Req) (target : BitVec 3) (seq : BitVec 16) (length : BitVec 32) (s : State),
    s.served rq true .mgmt = true → seq ≠ s.kin.updActed → s.kin.updState = .opened →
    s.kin.updCount = s.kin.updOpenLength →
    ∃ t, exec (.updClose rq target seq length false) s = .next t ∧ t.kin.updState = .refused ∧ t.kin.updCause = 11) ∧
  (∀ (rq : Req) (target : BitVec 3) (seq : BitVec 16) (length : BitVec 32) (s : State),
    s.served rq true .mgmt = true → seq ≠ s.kin.updActed → s.kin.updState = .opened →
    ∃ t, exec (.updArm rq target seq length) s = .next t ∧ t.answeredOnly s rq .ok ∧ t.kin.updState = .refused ∧
      t.kin.updCause = 12 ∧ t.kin.pending = s.kin.pending) ∧
  (∀ (rq : Req) (target : BitVec 3) (seq : BitVec 16) (length : BitVec 32) (s : State),
    s.served rq true .mgmt = true → seq ≠ s.kin.updActed → s.kin.updState = .staged →
    ∃ t, exec (.updArm rq target seq length) s = .next t ∧ t.answeredOnly s rq .ok ∧
      t.kin.updState = (if verifySet s (norSet s s.standby) = 0 then .armed else .refused) ∧
      t.kin.updCause = (if verifySet s (norSet s s.standby) = 0 then 0 else 13) ∧
      t.kin.pending = (s.kin.pending || decide (verifySet s (norSet s s.standby) = 0))) ∧
  (∀ (rq : Req) (target : BitVec 3) (seq : BitVec 16) (length : BitVec 32) (s : State),
    s.served rq true .mgmt = true → seq ≠ s.kin.updActed → s.kin.updState = .opened →
    ∃ t, exec (.updAbort rq target seq length) s = .next t ∧ t.answeredOnly s rq .ok ∧ t.kin.updState = .idle ∧
      t.kin.updData = [] ∧ t.kin.updCount = 0)

/-- O8. In service and in a kindling's stages 4 to 6, a 1 ms window whose power is above the limit, or whose junction reads
100 C or above, acts: throttling is active with its cause, PWR_POWER and the junction take the measured values, and rate
work is halved first, then the hearth clock falls a step, by 8 at most. A cool window below 95 % of the limit steps back up
in the reverse order. The trip at 115 C fails as a kindling with THERMAL and leaves no context. Pilot-only begins when every
region is gated and every port has been DOWN for 60 s, and signal on an enabled port wakes the package. (R364, R429, R430,
R431, R432, R435) -/
def Obligations.ThrottlingAndPilotOnly : Prop :=
  (∀ (p : PowerSample) (s : State), (s.kin.power = .ready ∨ s.kin.power = .kindling ∧ 4 ≤ s.kin.stage) → (1600 ≤ p.junction.toInt ∨ 1000 * s.pwr.limit.toNat < p.mw.toNat) →
    ∃ t, exec (.powerWindow p) s = .next t ∧ t.pwr.active = true ∧ t.pwr.out = (if s.pwr.active then s.pwr.out else true) ∧
      t.pwr.mw = p.mw ∧ t.pwr.junction = p.junction ∧ t.pwr.halved = true ∧
      t.pwr.clockSteps = (if s.pwr.halved then min 8 (s.pwr.clockSteps + 1) else s.pwr.clockSteps)) ∧
  (∀ (p : PowerSample) (s : State), (s.kin.power = .ready ∨ s.kin.power = .kindling ∧ 4 ≤ s.kin.stage) → s.pwr.active = true → p.hbmHot = false →
    100 * p.mw.toNat ≤ 95000 * s.pwr.limit.toNat → p.junction.toInt < 1552 →
    ∃ t, exec (.powerWindow p) s = .next t ∧ t.pwr.mw = p.mw ∧
      t.pwr.clockSteps = s.pwr.clockSteps - 1 ∧ (s.pwr.clockSteps = 0 → t.pwr.halved = false ∧ t.pwr.active = false)) ∧
  (∀ s : State, s.kin.power = .ready → ∃ t, exec .thermalTrip s = .next t ∧
    t.kin.reason = 9 ∧ t.ctxs = [] ∧ t.pwr.enSerdes = false ∧ t.kin.fails = satInc s.kin.fails) ∧
  (∀ s : State, s.kin.power = .ready → (∀ q < 4, (s.region q).power = .off) →
    (∀ p < 25, (s.port p).state = .down ∧ (s.port p).downSince = none) →
    ∃ t, exec .pilotOnlyEntry s = .next t ∧ t.kin.power = .pilotOnly ∧ t.pwr.enSerdes = false ∧ t.pwr.enHbm = s.pwr.enHbm) ∧
  (∀ (p : Fin 25) (s : State), s.kin.power = .pilotOnly → (s.port p).enable = true →
    ∃ t, exec (.pilotOnlyWake p) s = .next t ∧ t.kin.power = .waking)

/-- O9. When the word at the pc of a running engine is SADD, SSUB, SMUL, SAND, SOR, SXOR, SMIN, SADDI, SSHLI, SSHRI, LI or
LUI with its unused fields 0 and INSN_LIMIT not reached, the command answers the state in which D holds the 64-bit result of
R159 (a write to s0 is discarded), the pc is at the next instruction, one instruction is counted, and every other register,
engine and part of the block is unchanged. (R141, R158, R159) -/
def Obligations.ScalarInstructionsWriteTheirResult : Prop :=
  (∀ (h : Fin 77) (f : RFields) (s : State), s.rForm h 0x12 f { d := true, a := true, b := true } = true →
    exec (.sadd h f) s = .next (s.retired h ((s.engine h).wroteScalar f.d ((s.engine h).regs.sc f.a + (s.engine h).regs.sc f.b)))) ∧
  (∀ (h : Fin 77) (f : RFields) (s : State), s.rForm h 0x14 f { d := true, a := true, b := true } = true →
    exec (.ssub h f) s = .next (s.retired h ((s.engine h).wroteScalar f.d ((s.engine h).regs.sc f.a - (s.engine h).regs.sc f.b)))) ∧
  (∀ (h : Fin 77) (f : RFields) (s : State), s.rForm h 0x15 f { d := true, a := true, b := true } = true →
    exec (.smul h f) s = .next (s.retired h ((s.engine h).wroteScalar f.d ((s.engine h).regs.sc f.a * (s.engine h).regs.sc f.b)))) ∧
  (∀ (h : Fin 77) (f : RFields) (s : State), s.rForm h 0x16 f { d := true, a := true, b := true } = true →
    exec (.sand h f) s = .next (s.retired h ((s.engine h).wroteScalar f.d ((s.engine h).regs.sc f.a &&& (s.engine h).regs.sc f.b)))) ∧
  (∀ (h : Fin 77) (f : RFields) (s : State), s.rForm h 0x17 f { d := true, a := true, b := true } = true →
    exec (.sor h f) s = .next (s.retired h ((s.engine h).wroteScalar f.d ((s.engine h).regs.sc f.a ||| (s.engine h).regs.sc f.b)))) ∧
  (∀ (h : Fin 77) (f : RFields) (s : State), s.rForm h 0x18 f { d := true, a := true, b := true } = true →
    exec (.sxor h f) s = .next (s.retired h ((s.engine h).wroteScalar f.d ((s.engine h).regs.sc f.a ^^^ (s.engine h).regs.sc f.b)))) ∧
  (∀ (h : Fin 77) (f : RFields) (s : State), s.rForm h 0x1B f { d := true, a := true, b := true } = true →
    exec (.smin h f) s = .next (s.retired h ((s.engine h).wroteScalar f.d (if ((s.engine h).regs.sc f.a).toInt < ((s.engine h).regs.sc f.b).toInt then (s.engine h).regs.sc f.a else (s.engine h).regs.sc f.b)))) ∧
  (∀ (h : Fin 77) (f : IFields) (s : State), s.iForm h 0x13 f true true false = true →
    exec (.saddi h f) s = .next (s.retired h ((s.engine h).wroteScalar f.d ((s.engine h).regs.sc f.a + f.imm.signExtend 64)))) ∧
  (∀ (h : Fin 77) (f : IFields) (s : State), s.iForm h 0x19 f true true false = true →
    exec (.sshli h f) s = .next (s.retired h ((s.engine h).wroteScalar f.d ((s.engine h).regs.sc f.a <<< (f.imm.toNat % 64))))) ∧
  (∀ (h : Fin 77) (f : IFields) (s : State), s.iForm h 0x1A f true true false = true →
    exec (.sshri h f) s = .next (s.retired h ((s.engine h).wroteScalar f.d ((s.engine h).regs.sc f.a >>> (f.imm.toNat % 64))))) ∧
  (∀ (h : Fin 77) (f : IFields) (s : State), s.iForm h 0x10 f true false false = true →
    exec (.li h f) s = .next (s.retired h ((s.engine h).wroteScalar f.d (f.imm.signExtend 64)))) ∧
  (∀ (h : Fin 77) (f : IFields) (s : State), s.iForm h 0x11 f true false false = true →
    exec (.lui h f) s = .next (s.retired h ((s.engine h).wroteScalar f.d (f.imm ++ ((s.engine h).regs.sc f.d).setWidth 32))))

/-- O10. NOP goes to the next instruction; JMP to pc + IMM; BEQ, BNE, BLT and BGE (signed) to pc + IMM when their condition
holds and to the next instruction otherwise, with no other effect. CSRR of numbers 0 to 4 reads ECTL, ESTAT, VLR, ICOUNT or
SECTION into D; CSRW of 0 or 1 replaces FTZ or the flags; CSRR of another number, and CSRW of another or a read-only one,
raises ILLEGAL. (R143, R158, R159, R153) -/
def Obligations.ControlFlowInstructions : Prop :=
  (∀ (h : Fin 77) (f : RFields) (s : State), s.rForm h 0x00 f {} = true →
    exec (.nop h f) s = .next (s.retired h { s.engine h with pc := (s.engine h).pc + 1 })) ∧
  (∀ (h : Fin 77) (f : IFields) (s : State), s.iForm h 0x04 f false false false = true →
    exec (.jmp h f) s = .next (s.retired h { s.engine h with
      pc := (BitVec.ofNat 64 (s.engine h).pc + f.imm.signExtend 64).toNat })) ∧
  (∀ (h : Fin 77) (f : IFields) (s : State), s.iForm h 0x05 f false true true = true →
    exec (.beq h f) s = .next (s.retired h { s.engine h with
      pc := if (s.engine h).regs.sc f.a = (s.engine h).regs.sc f.b then (BitVec.ofNat 64 (s.engine h).pc + f.imm.signExtend 64).toNat
        else (s.engine h).pc + 1 })) ∧
  (∀ (h : Fin 77) (f : IFields) (s : State), s.iForm h 0x06 f false true true = true →
    exec (.bne h f) s = .next (s.retired h { s.engine h with
      pc := if (s.engine h).regs.sc f.a ≠ (s.engine h).regs.sc f.b then (BitVec.ofNat 64 (s.engine h).pc + f.imm.signExtend 64).toNat
        else (s.engine h).pc + 1 })) ∧
  (∀ (h : Fin 77) (f : IFields) (s : State), s.iForm h 0x07 f false true true = true →
    exec (.blt h f) s = .next (s.retired h { s.engine h with
      pc := if ((s.engine h).regs.sc f.a).toInt < ((s.engine h).regs.sc f.b).toInt then (BitVec.ofNat 64 (s.engine h).pc + f.imm.signExtend 64).toNat
        else (s.engine h).pc + 1 })) ∧
  (∀ (h : Fin 77) (f : IFields) (s : State), s.iForm h 0x08 f false true true = true →
    exec (.bge h f) s = .next (s.retired h { s.engine h with
      pc := if ((s.engine h).regs.sc f.b).toInt ≤ ((s.engine h).regs.sc f.a).toInt then (BitVec.ofNat 64 (s.engine h).pc + f.imm.signExtend 64).toNat
        else (s.engine h).pc + 1 })) ∧
  (∀ (h : Fin 77) (f : IFields) (s : State), s.iForm h 0x09 f true false false = true → f.imm.toNat ≤ 4 →
    exec (.csrr h f) s = .next (s.retired h ((s.engine h).wroteScalar f.d
      (if f.imm = 0 then (if (s.engine h).regs.ftz then 1 else 0)
        else if f.imm = 1 then (s.engine h).regs.estat.setWidth 64
        else if f.imm = 2 then (s.engine h).regs.vl.setWidth 64
        else if f.imm = 3 then BitVec.ofNat 64 (s.engine h).icount
        else BitVec.ofNat 64 (s.engine h).sect.num)))) ∧
  (∀ (h : Fin 77) (f : IFields) (s : State), s.iForm h 0x09 f true false false = true → 4 < f.imm.toNat → s.undisturbed h = true →
    exec (.csrr h f) s = .next (s.begin.setEngine h ((s.engine h).fail .illegal 0))) ∧
  (∀ (h : Fin 77) (f : IFields) (s : State), s.iForm h 0x0A f false true false = true → f.imm = 0 →
    exec (.csrw h f) s = .next (s.retired h { s.engine h with
      regs := { (s.engine h).regs with ftz := ((s.engine h).regs.sc f.a).getLsbD 0 }, pc := (s.engine h).pc + 1 })) ∧
  (∀ (h : Fin 77) (f : IFields) (s : State), s.iForm h 0x0A f false true false = true → f.imm = 1 →
    exec (.csrw h f) s = .next (s.retired h { s.engine h with
      regs := { (s.engine h).regs with estat := ((s.engine h).regs.sc f.a).setWidth 5 }, pc := (s.engine h).pc + 1 })) ∧
  (∀ (h : Fin 77) (f : IFields) (s : State), s.iForm h 0x0A f false true false = true → 1 < f.imm.toNat → s.undisturbed h = true →
    exec (.csrw h f) s = .next (s.begin.setEngine h ((s.engine h).fail .illegal 0)))

/-- O11. SLD, at an 8-byte aligned address whose bytes lie within a view, loads D with the 8 bytes the instance sees,
little-endian. SST, within a view it may write, with room in the buffer, enters its 8 bytes: a later load of the instance at
a byte of them sees it and at any other byte sees what it saw before. VLD writes element i below vl of D with the bytes at A
+ IMM + i x B x w; VST enters the elements below vl at those addresses in ascending order; TLD loads, and TST enters, the 64
rows of a tile at the byte stride B. The pc goes to the next instruction, one instruction is counted, the pages read are
noted, and every other register, engine and part of the block is unchanged. A misaligned SLD or SST raises ALIGN, an access
outside its view or a store to a view it may not write ADDRESS, a store beyond the buffer STORE_LIMIT, a vl beyond VLMAX
VL_RANGE; each ends the instance. (R144, R145, R146, R150, R153, R156, R158, R159) -/
def Obligations.LoadsAndStores : Prop :=
  (∀ (h : Fin 77) (f : IFields) (s : State), s.iForm h 0x1C f true true false = true → viewOk (s.engine h) ((s.engine h).addr f) 8 = true →
    ((s.engine h).addr f).toNat % 8 = 0 → ∃ g, exec (.sld h f) s = .next (s.begin.setEngine h g) ∧
      g = { (s.engine h).wroteScalar f.d (BitVec.ofNat 64 (loadLe (s.engine h) ((s.engine h).addr f).toNat 8)) with
        touched := g.touched, icount := (s.engine h).icount + 1 }) ∧
  (∀ (h : Fin 77) (f : IFields) (s : State), s.iForm h 0x1C f true true false = true → s.undisturbed h = true →
    (viewOk (s.engine h) ((s.engine h).addr f) 8 = true → ((s.engine h).addr f).toNat % 8 ≠ 0 →
      exec (.sld h f) s = .next (s.begin.setEngine h ((s.engine h).fail .align 0))) ∧
    (viewOk (s.engine h) ((s.engine h).addr f) 8 = false →
      exec (.sld h f) s = .next (s.begin.setEngine h ((s.engine h).fail .address 0)))) ∧
  (∀ (h : Fin 77) (f : IFields) (s : State), s.iForm h 0x1D f false true true = true → viewOk (s.engine h) ((s.engine h).addr f) 8 = true →
    viewWritable (s.engine h) ((s.engine h).addr f) = true → ((s.engine h).addr f).toNat % 8 = 0 → storeRoom (s.engine h) 8 = true →
    ∃ g, exec (.sst h f) s = .next (s.begin.setEngine h g) ∧
      g = { s.engine h with stores := g.stores, stored := (s.engine h).stored + 8, pc := (s.engine h).pc + 1
                            icount := (s.engine h).icount + 1 } ∧
      g.stores = pushBytes (s.engine h).stores ((s.engine h).addr f).toNat (natLe 8 ((s.engine h).regs.sc f.b).toNat) ∧
      (∀ k, k < 8 → loadByte g (((s.engine h).addr f).toNat + k) = ((s.engine h).regs.sc f.b).extractLsb' (8 * k) 8) ∧
      (∀ a, (a < ((s.engine h).addr f).toNat ∨ ((s.engine h).addr f).toNat + 8 ≤ a) → loadByte g a = loadByte (s.engine h) a)) ∧
  (∀ (h : Fin 77) (f : IFields) (s : State), s.iForm h 0x1D f false true true = true → s.undisturbed h = true →
    ((viewOk (s.engine h) ((s.engine h).addr f) 8 && viewWritable (s.engine h) ((s.engine h).addr f)) = false →
      exec (.sst h f) s = .next (s.begin.setEngine h ((s.engine h).fail .address 0))) ∧
    (viewOk (s.engine h) ((s.engine h).addr f) 8 = true → viewWritable (s.engine h) ((s.engine h).addr f) = true →
      (((s.engine h).addr f).toNat % 8 ≠ 0 → exec (.sst h f) s = .next (s.begin.setEngine h ((s.engine h).fail .align 0))) ∧
      (((s.engine h).addr f).toNat % 8 = 0 → storeRoom (s.engine h) 8 = false →
        exec (.sst h f) s = .next (s.begin.setEngine h ((s.engine h).fail .storeLimit 0))))) ∧
  (∀ (h : Fin 77) (f : IFields) (s : State), s.standsAt h (encI 0x21 f) = true → iFieldsOk f true true true = true → typeOk f.ty = true →
    vlOk (s.engine h) (fmtWidth f.ty.toNat) = true →
    (∀ i, i < (s.engine h).vlN → viewOk (s.engine h) ((s.engine h).addrAt f (fmtWidth f.ty.toNat / 8) i) (fmtWidth f.ty.toNat / 8) = true) →
    ∃ g, exec (.vld h f) s = .next (s.begin.setEngine h g) ∧
      g = { s.engine h with regs := { (s.engine h).regs with v := g.regs.v }, touched := g.touched, pc := (s.engine h).pc + 1
                            icount := (s.engine h).icount + 1 } ∧
      (∀ i, i < (s.engine h).vlN → g.el (fmtWidth f.ty.toNat) f.d i =
        loadLe (s.engine h) ((s.engine h).addrAt f (fmtWidth f.ty.toNat / 8) i).toNat (fmtWidth f.ty.toNat / 8)) ∧
      (∀ i, (s.engine h).vlN ≤ i → i < vlMax (fmtWidth f.ty.toNat) →
        g.el (fmtWidth f.ty.toNat) f.d i = (s.engine h).el (fmtWidth f.ty.toNat) f.d i) ∧
      (∀ r, r ≠ f.d → g.regs.vec r = (s.engine h).regs.vec r)) ∧
  (∀ (h : Fin 77) (f : IFields) (s : State), s.standsAt h (encI 0x22 f) = true → iFieldsOk f true true true = true → typeOk f.ty = true →
    vlOk (s.engine h) (fmtWidth f.ty.toNat) = true →
    (∀ i, i < (s.engine h).vlN → viewOk (s.engine h) ((s.engine h).addrAt f (fmtWidth f.ty.toNat / 8) i) (fmtWidth f.ty.toNat / 8) = true ∧
      viewWritable (s.engine h) ((s.engine h).addrAt f (fmtWidth f.ty.toNat / 8) i) = true) →
    storeRoom (s.engine h) ((s.engine h).vlN * (fmtWidth f.ty.toNat / 8)) = true →
    exec (.vst h f) s = .next (s.retired h { s.engine h with
      stores := (List.range (s.engine h).vlN).foldl (fun st i => pushBytes st
        ((s.engine h).addrAt f (fmtWidth f.ty.toNat / 8) i).toNat
        (natLe (fmtWidth f.ty.toNat / 8) ((s.engine h).el (fmtWidth f.ty.toNat) f.d i))) (s.engine h).stores
      stored := (s.engine h).stored + (s.engine h).vlN * (fmtWidth f.ty.toNat / 8), pc := (s.engine h).pc + 1 })) ∧
  (∀ (h : Fin 77) (f : IFields) (s : State), s.standsAt h (encI 0x60 f) = true → iFieldsOk f true true true = true → typeOk f.ty = true →
    lowReg f.d = true → (∀ i, i < 64 → viewOk (s.engine h) ((s.engine h).addrAt f 1 i) (8 * fmtWidth f.ty.toNat) = true) →
    ∃ g, exec (.tld h f) s = .next (s.begin.setEngine h g) ∧
      g = { s.engine h with regs := { (s.engine h).regs with t := g.regs.t }, touched := g.touched, pc := (s.engine h).pc + 1
                            icount := (s.engine h).icount + 1 } ∧
      (∀ i j, i < 64 → j < 64 → g.cell f.d i j =
        loadLe (s.engine h) (((s.engine h).addrAt f 1 i).toNat + j * (fmtWidth f.ty.toNat / 8)) (fmtWidth f.ty.toNat / 8)) ∧
      (∀ r, r ≠ f.d → g.regs.tile r = (s.engine h).regs.tile r)) ∧
  (∀ (h : Fin 77) (f : IFields) (s : State), s.standsAt h (encI 0x61 f) = true → iFieldsOk f true true true = true → typeOk f.ty = true →
    lowReg f.d = true → (∀ i, i < 64 → viewOk (s.engine h) ((s.engine h).addrAt f 1 i) (8 * fmtWidth f.ty.toNat) = true ∧
      viewWritable (s.engine h) ((s.engine h).addrAt f 1 i) = true) →
    storeRoom (s.engine h) (4096 * (fmtWidth f.ty.toNat / 8)) = true →
    exec (.tst h f) s = .next (s.retired h { s.engine h with
      stores := (List.range 64).foldl (fun st i => pushBytes st ((s.engine h).addrAt f 1 i).toNat
        ((List.range 64).flatMap fun j => natLe (fmtWidth f.ty.toNat / 8) ((s.engine h).cell f.d i j))) (s.engine h).stores
      stored := (s.engine h).stored + 4096 * (fmtWidth f.ty.toNat / 8), pc := (s.engine h).pc + 1 })) ∧
  (∀ (h : Fin 77) (f : IFields) (s : State), iFieldsOk f true true true = true → typeOk f.ty = true → s.undisturbed h = true →
    (s.standsAt h (encI 0x21 f) = true → vlOk (s.engine h) (fmtWidth f.ty.toNat) = false →
      exec (.vld h f) s = .next (s.begin.setEngine h ((s.engine h).fail .vlRange 0))) ∧
    (s.standsAt h (encI 0x22 f) = true → vlOk (s.engine h) (fmtWidth f.ty.toNat) = false →
      exec (.vst h f) s = .next (s.begin.setEngine h ((s.engine h).fail .vlRange 0))) ∧
    (s.standsAt h (encI 0x60 f) = true → lowReg f.d = true →
      (∃ i, i < 64 ∧ viewOk (s.engine h) ((s.engine h).addrAt f 1 i) (8 * fmtWidth f.ty.toNat) = false) →
      exec (.tld h f) s = .next (s.begin.setEngine h ((s.engine h).fail .address 0))) ∧
    (s.standsAt h (encI 0x61 f) = true → lowReg f.d = true →
      (∃ i, i < 64 ∧ (viewOk (s.engine h) ((s.engine h).addrAt f 1 i) (8 * fmtWidth f.ty.toNat) &&
        viewWritable (s.engine h) ((s.engine h).addrAt f 1 i)) = false) →
      exec (.tst h f) s = .next (s.begin.setEngine h ((s.engine h).fail .address 0))))

/-- O12. Below vl, VAND, VOR and VXOR write the bitwise results, VSEL the element of A where that of C is not 0 and of B
elsewhere, VIADD the sum modulo 2^w, VIOTA the base plus the index, VRAND the random words of R157; elements at or beyond
vl, the flags and everything else stay. SETVL writes vl = min(A, VLMAX) to vl and D. VANY writes 1 to D when an element
below vl is not 0 and 0 otherwise; with vl = 0 it has no effect but the next pc. (R144, R145, R157, R159) -/
def Obligations.IntegerVectorInstructions : Prop :=
  (∀ (h : Fin 77) (f : RFields) (s : State), s.vecForm h 0x48 f { d := true, a := true, b := true } = true →
    ∃ t, exec (.vand h f) s = .next t ∧ t.vecStep s h f.d (fmtWidth f.ty.toNat) fun i =>
      ((s.engine h).el (fmtWidth f.ty.toNat) f.a i &&& (s.engine h).el (fmtWidth f.ty.toNat) f.b i, 0)) ∧
  (∀ (h : Fin 77) (f : RFields) (s : State), s.vecForm h 0x49 f { d := true, a := true, b := true } = true →
    ∃ t, exec (.vor h f) s = .next t ∧ t.vecStep s h f.d (fmtWidth f.ty.toNat) fun i =>
      ((s.engine h).el (fmtWidth f.ty.toNat) f.a i ||| (s.engine h).el (fmtWidth f.ty.toNat) f.b i, 0)) ∧
  (∀ (h : Fin 77) (f : RFields) (s : State), s.vecForm h 0x4A f { d := true, a := true, b := true } = true →
    ∃ t, exec (.vxor h f) s = .next t ∧ t.vecStep s h f.d (fmtWidth f.ty.toNat) fun i =>
      ((s.engine h).el (fmtWidth f.ty.toNat) f.a i ^^^ (s.engine h).el (fmtWidth f.ty.toNat) f.b i, 0)) ∧
  (∀ (h : Fin 77) (f : RFields) (s : State), s.vecForm h 0x4B f { d := true, a := true, b := true, c := true } = true →
    ∃ t, exec (.vsel h f) s = .next t ∧ t.vecStep s h f.d (fmtWidth f.ty.toNat) fun i =>
      (if (s.engine h).el (fmtWidth f.ty.toNat) f.c i ≠ 0 then (s.engine h).el (fmtWidth f.ty.toNat) f.a i else (s.engine h).el (fmtWidth f.ty.toNat) f.b i, 0)) ∧
  (∀ (h : Fin 77) (f : RFields) (s : State), s.vecForm h 0x4C f { d := true, a := true, b := true } = true →
    ∃ t, exec (.viadd h f) s = .next t ∧ t.vecStep s h f.d (fmtWidth f.ty.toNat) fun i =>
      ((s.engine h).el (fmtWidth f.ty.toNat) f.a i + (s.engine h).el (fmtWidth f.ty.toNat) f.b i, 0)) ∧
  (∀ (h : Fin 77) (f : RFields) (s : State), s.vecForm h 0x23 f { d := true, a := true } = true →
    ∃ t, exec (.viota h f) s = .next t ∧ t.vecStep s h f.d (fmtWidth f.ty.toNat) fun i =>
      (((s.engine h).regs.sc f.a).toNat + i, 0)) ∧
  (∀ (h : Fin 77) (f : RFields) (s : State), s.rForm h 0x50 f { d := true, a := true, b := true } = true → vlOk (s.engine h) 32 = true →
    ∃ t, exec (.vrand h f) s = .next t ∧ t.vecStep s h f.d 32 fun i =>
      (vrandWord ((s.engine h).regs.sc f.b) ((s.engine h).regs.sc f.a + BitVec.ofNat 64 i).toNat, 0)) ∧
  (∀ (h : Fin 77) (f : RFields) (s : State), s.standsAt h (encR 0x20 f) = true → rFieldsOk f { d := true, a := true } = true → typeOk f.ty = true →
    exec (.setvl h f) s = .next (s.retired h
      { (s.engine h).wroteScalar f.d (BitVec.ofNat 64 (min ((s.engine h).regs.sc f.a).toNat (vlMax (fmtWidth f.ty.toNat)))) with
        regs := { ((s.engine h).wroteScalar f.d (BitVec.ofNat 64 (min ((s.engine h).regs.sc f.a).toNat (vlMax (fmtWidth f.ty.toNat))))).regs with
          vl := BitVec.ofNat 12 (min ((s.engine h).regs.sc f.a).toNat (vlMax (fmtWidth f.ty.toNat))) } })) ∧
  (∀ (h : Fin 77) (f : RFields) (s : State), s.vecForm h 0x4D f { d := true, a := true } = true → (s.engine h).vlN ≠ 0 →
    ∃ t, exec (.vany h f) s = .next t ∧ t = s.begin.setEngine h (t.engine h) ∧
      (f.d ≠ 0 → ((t.engine h).regs.sc f.d = 1 ↔ ∃ i, i < (s.engine h).vlN ∧ (s.engine h).el (fmtWidth f.ty.toNat) f.a i ≠ 0) ∧
        ((t.engine h).regs.sc f.d = 0 ∨ (t.engine h).regs.sc f.d = 1)) ∧
      (∀ r, r ≠ f.d → (t.engine h).regs.sc r = (s.engine h).regs.sc r) ∧
      (t.engine h).regs.v = (s.engine h).regs.v ∧ (t.engine h).pc = (s.engine h).pc + 1) ∧
  (∀ (h : Fin 77) (f : RFields) (s : State), s.vecForm h 0x4D f { d := true, a := true } = true → (s.engine h).vlN = 0 →
    exec (.vany h f) s = .next (s.retired h { s.engine h with pc := (s.engine h).pc + 1 }))

/-- O13. Below vl, each of VADD, VSUB, VMUL, VDIV, VFMA, VFMS, VFNMA, VSQRT, VRSQRT, VMIN, VMAX, VABS, VNEG writes the one
rounded result of R75 to R78 of its operands' elements in the format of TYPE and raises its flags; VCEQ, VCLT, VCLE and VNF
write all ones where the comparison or test holds and 0 elsewhere; VCVT converts from the format of C. Elements at or beyond
vl and every other register stay, and the operands are read before anything is written. (R75, R76, R77, R78, R144, R154,
R159) -/
def Obligations.FloatVectorInstructions : Prop :=
  (∀ (h : Fin 77) (f : RFields) (s : State), s.vecForm h 0x30 f { d := true, a := true, b := true } = true →
    ∃ t, exec (.vadd h f) s = .next t ∧ t.vecStep s h f.d (fmtWidth f.ty.toNat) fun i =>
      addV f.ty.toNat (s.engine h).regs.ftz ((s.engine h).fv f.ty.toNat f.a i) ((s.engine h).fv f.ty.toNat f.b i)) ∧
  (∀ (h : Fin 77) (f : RFields) (s : State), s.vecForm h 0x31 f { d := true, a := true, b := true } = true →
    ∃ t, exec (.vsub h f) s = .next t ∧ t.vecStep s h f.d (fmtWidth f.ty.toNat) fun i =>
      addV f.ty.toNat (s.engine h).regs.ftz ((s.engine h).fv f.ty.toNat f.a i) (negV ((s.engine h).fv f.ty.toNat f.b i))) ∧
  (∀ (h : Fin 77) (f : RFields) (s : State), s.vecForm h 0x32 f { d := true, a := true, b := true } = true →
    ∃ t, exec (.vmul h f) s = .next t ∧ t.vecStep s h f.d (fmtWidth f.ty.toNat) fun i =>
      mulF f.ty.toNat (s.engine h).regs.ftz ((s.engine h).fv f.ty.toNat f.a i) ((s.engine h).fv f.ty.toNat f.b i)) ∧
  (∀ (h : Fin 77) (f : RFields) (s : State), s.vecForm h 0x33 f { d := true, a := true, b := true } = true →
    ∃ t, exec (.vdiv h f) s = .next t ∧ t.vecStep s h f.d (fmtWidth f.ty.toNat) fun i =>
      divF f.ty.toNat (s.engine h).regs.ftz ((s.engine h).fv f.ty.toNat f.a i) ((s.engine h).fv f.ty.toNat f.b i)) ∧
  (∀ (h : Fin 77) (f : RFields) (s : State), s.vecForm h 0x34 f { d := true, a := true, b := true, c := true } = true →
    ∃ t, exec (.vfma h f) s = .next t ∧ t.vecStep s h f.d (fmtWidth f.ty.toNat) fun i =>
      fmaF f.ty.toNat (s.engine h).regs.ftz ((s.engine h).fv f.ty.toNat f.a i) ((s.engine h).fv f.ty.toNat f.b i) ((s.engine h).fv f.ty.toNat f.c i)) ∧
  (∀ (h : Fin 77) (f : RFields) (s : State), s.vecForm h 0x35 f { d := true, a := true, b := true, c := true } = true →
    ∃ t, exec (.vfms h f) s = .next t ∧ t.vecStep s h f.d (fmtWidth f.ty.toNat) fun i =>
      fmaF f.ty.toNat (s.engine h).regs.ftz ((s.engine h).fv f.ty.toNat f.a i) ((s.engine h).fv f.ty.toNat f.b i) (negV ((s.engine h).fv f.ty.toNat f.c i))) ∧
  (∀ (h : Fin 77) (f : RFields) (s : State), s.vecForm h 0x36 f { d := true, a := true, b := true, c := true } = true →
    ∃ t, exec (.vfnma h f) s = .next t ∧ t.vecStep s h f.d (fmtWidth f.ty.toNat) fun i =>
      fmaF f.ty.toNat (s.engine h).regs.ftz (negV ((s.engine h).fv f.ty.toNat f.a i)) ((s.engine h).fv f.ty.toNat f.b i) ((s.engine h).fv f.ty.toNat f.c i)) ∧
  (∀ (h : Fin 77) (f : RFields) (s : State), s.vecForm h 0x37 f { d := true, a := true } = true →
    ∃ t, exec (.vsqrt h f) s = .next t ∧ t.vecStep s h f.d (fmtWidth f.ty.toNat) fun i =>
      sqrtF f.ty.toNat (s.engine h).regs.ftz ((s.engine h).fv f.ty.toNat f.a i)) ∧
  (∀ (h : Fin 77) (f : RFields) (s : State), s.vecForm h 0x38 f { d := true, a := true } = true →
    ∃ t, exec (.vrsqrt h f) s = .next t ∧ t.vecStep s h f.d (fmtWidth f.ty.toNat) fun i =>
      rsqrtF f.ty.toNat (s.engine h).regs.ftz ((s.engine h).fv f.ty.toNat f.a i)) ∧
  (∀ (h : Fin 77) (f : RFields) (s : State), s.vecForm h 0x39 f { d := true, a := true, b := true } = true →
    ∃ t, exec (.vmin h f) s = .next t ∧ t.vecStep s h f.d (fmtWidth f.ty.toNat) fun i =>
      minmaxF f.ty.toNat (s.engine h).regs.ftz false ((s.engine h).fv f.ty.toNat f.a i) ((s.engine h).fv f.ty.toNat f.b i)) ∧
  (∀ (h : Fin 77) (f : RFields) (s : State), s.vecForm h 0x3A f { d := true, a := true, b := true } = true →
    ∃ t, exec (.vmax h f) s = .next t ∧ t.vecStep s h f.d (fmtWidth f.ty.toNat) fun i =>
      minmaxF f.ty.toNat (s.engine h).regs.ftz true ((s.engine h).fv f.ty.toNat f.a i) ((s.engine h).fv f.ty.toNat f.b i)) ∧
  (∀ (h : Fin 77) (f : RFields) (s : State), s.vecForm h 0x3B f { d := true, a := true } = true →
    ∃ t, exec (.vabs h f) s = .next t ∧ t.vecStep s h f.d (fmtWidth f.ty.toNat) fun i =>
      deliverV f.ty.toNat (s.engine h).regs.ftz (absV ((s.engine h).fv f.ty.toNat f.a i))) ∧
  (∀ (h : Fin 77) (f : RFields) (s : State), s.vecForm h 0x3C f { d := true, a := true } = true →
    ∃ t, exec (.vneg h f) s = .next t ∧ t.vecStep s h f.d (fmtWidth f.ty.toNat) fun i =>
      deliverV f.ty.toNat (s.engine h).regs.ftz (negV ((s.engine h).fv f.ty.toNat f.a i))) ∧
  (∀ (h : Fin 77) (f : RFields) (s : State), s.vecForm h 0x3E f { d := true, a := true, b := true } = true →
    ∃ t, exec (.vceq h f) s = .next t ∧ t.vecStep s h f.d (fmtWidth f.ty.toNat) fun i =>
      (if eqV ((s.engine h).fv f.ty.toNat f.a i) ((s.engine h).fv f.ty.toNat f.b i) then 2 ^ fmtWidth f.ty.toNat - 1 else 0, 0)) ∧
  (∀ (h : Fin 77) (f : RFields) (s : State), s.vecForm h 0x3F f { d := true, a := true, b := true } = true →
    ∃ t, exec (.vclt h f) s = .next t ∧ t.vecStep s h f.d (fmtWidth f.ty.toNat) fun i =>
      (if ltV ((s.engine h).fv f.ty.toNat f.a i) ((s.engine h).fv f.ty.toNat f.b i) then 2 ^ fmtWidth f.ty.toNat - 1 else 0, 0)) ∧
  (∀ (h : Fin 77) (f : RFields) (s : State), s.vecForm h 0x40 f { d := true, a := true, b := true } = true →
    ∃ t, exec (.vcle h f) s = .next t ∧ t.vecStep s h f.d (fmtWidth f.ty.toNat) fun i =>
      (if leV ((s.engine h).fv f.ty.toNat f.a i) ((s.engine h).fv f.ty.toNat f.b i) then 2 ^ fmtWidth f.ty.toNat - 1 else 0, 0)) ∧
  (∀ (h : Fin 77) (f : RFields) (s : State), s.vecForm h 0x41 f { d := true, a := true } = true →
    ∃ t, exec (.vnf h f) s = .next t ∧ t.vecStep s h f.d (fmtWidth f.ty.toNat) fun i =>
      (match decodeF f.ty.toNat ((s.engine h).el (fmtWidth f.ty.toNat) f.a i) with
      | .num _ _ _ => 0
      | _ => 2 ^ fmtWidth f.ty.toNat - 1, 0)) ∧
  (∀ (h : Fin 77) (f : RFields) (s : State), s.vecForm h 0x3D f { d := true, a := true, c := true } = true →
    f.c.toNat ≤ 4 → vlOk (s.engine h) (fmtWidth f.c.toNat) = true →
    ∃ t, exec (.vcvt h f) s = .next t ∧ t.vecStep s h f.d (fmtWidth f.ty.toNat) fun i =>
      cvtF f.ty.toNat (s.engine h).regs.ftz ((s.engine h).fv f.c.toNat f.a i))

/-- O14. ACLR clears accumulator C; AADD adds the elements of A below vl to accumulator C exactly; AGET writes element 0 of
D with accumulator C rounded once to TYPE and raises that rounding's flags, whatever vl is; TZERO clears tile D; TRED writes
elements 0 to 63 of D with the exact sums of A's rows, or of its columns where AXIS is 1, each rounded once to TYPE, and
raises the roundings' flags; TMMA writes each cell (i, j) of tile D with its old value plus the products of A(i, k) and B(k,
j) added in ascending order of k, and raises their flags. The pc goes to the next instruction, one instruction is counted,
and every other register, engine and part of the block is unchanged. (R79, R80, R144, R155, R156, R158, R159) -/
def Obligations.AccumulatorAndTileInstructions : Prop :=
  (∀ (h : Fin 77) (f : RFields) (s : State), s.rForm h 0x58 f { c := true } = true → lowReg f.c = true →
    exec (.aclr h f) s = .next (s.retired h { s.engine h with
      regs := { (s.engine h).regs with acc := Map.set {} (s.engine h).regs.acc f.c.toNat {} }, pc := (s.engine h).pc + 1 })) ∧
  (∀ (h : Fin 77) (f : RFields) (s : State), s.vecForm h 0x59 f { a := true, c := true } = true → lowReg f.c = true →
    exec (.aadd h f) s = .next (s.retired h { s.engine h with
      regs := (s.engine h).regs.setAccum f.c ((List.range (s.engine h).vlN).foldl
        (fun a i => a.add ((s.engine h).fv f.ty.toNat f.a i)) ((s.engine h).regs.accum f.c)), pc := (s.engine h).pc + 1 })) ∧
  (∀ (h : Fin 77) (f : RFields) (s : State), s.standsAt h (encR 0x5A f) = true → rFieldsOk f { d := true, c := true } = true → typeOk f.ty = true →
    lowReg f.c = true → ∃ g, exec (.aget h f) s = .next (s.begin.setEngine h g) ∧
      g = { s.engine h with
        regs := { (s.engine h).regs with
          v := g.regs.v, estat := (s.engine h).regs.estat ||| (((s.engine h).regs.accum f.c).round f.ty.toNat (s.engine h).regs.ftz).2 }
        pc := (s.engine h).pc + 1, icount := (s.engine h).icount + 1 } ∧
      g.el (fmtWidth f.ty.toNat) f.d 0 = (((s.engine h).regs.accum f.c).round f.ty.toNat (s.engine h).regs.ftz).1 % 2 ^ fmtWidth f.ty.toNat ∧
      (∀ i, 0 < i → i < vlMax (fmtWidth f.ty.toNat) → g.el (fmtWidth f.ty.toNat) f.d i = (s.engine h).el (fmtWidth f.ty.toNat) f.d i) ∧
      (∀ r, r ≠ f.d → g.regs.vec r = (s.engine h).regs.vec r)) ∧
  (∀ (h : Fin 77) (f : RFields) (s : State), s.rForm h 0x62 f { d := true } = true → lowReg f.d = true →
    exec (.tzero h f) s = .next (s.retired h { s.engine h with
      regs := { (s.engine h).regs with t := Map.set 0 (s.engine h).regs.t f.d.toNat 0 }, pc := (s.engine h).pc + 1 })) ∧
  (∀ (h : Fin 77) (f : RFields) (s : State), s.standsAt h (encR 0x64 f) = true → rFieldsOk f { d := true, a := true, axis := true } = true →
    typeOk f.ty = true → lowReg f.a = true → ∃ g, exec (.tred h f) s = .next (s.begin.setEngine h g) ∧
      g = { s.engine h with
        regs := { (s.engine h).regs with
          v := g.regs.v
          estat := (List.range 64).foldl (fun a i => a ||| ((s.engine h).redCell f i).2) (s.engine h).regs.estat }
        pc := (s.engine h).pc + 1, icount := (s.engine h).icount + 1 } ∧
      (∀ i, i < 64 → g.el (fmtWidth f.ty.toNat) f.d i = ((s.engine h).redCell f i).1 % 2 ^ fmtWidth f.ty.toNat) ∧
      (∀ i, 64 ≤ i → i < vlMax (fmtWidth f.ty.toNat) → g.el (fmtWidth f.ty.toNat) f.d i = (s.engine h).el (fmtWidth f.ty.toNat) f.d i) ∧
      (∀ r, r ≠ f.d → g.regs.vec r = (s.engine h).regs.vec r)) ∧
  (∀ (h : Fin 77) (f : RFields) (s : State), s.standsAt h (encR 0x63 f) = true → rFieldsOk f { d := true, a := true, b := true } = true →
    (f.ty = 1 ∨ f.ty = 3 ∨ f.ty = 4) → lowReg f.d = true → lowReg f.a = true → lowReg f.b = true →
    ∃ g, exec (.tmma h f) s = .next (s.begin.setEngine h g) ∧
      g = { s.engine h with
        regs := { (s.engine h).regs with
          t := g.regs.t
          estat := (List.range 4096).foldl (fun a n => a ||| ((s.engine h).mmaCell f (n / 64) (n % 64)).2) (s.engine h).regs.estat }
        pc := (s.engine h).pc + 1, icount := (s.engine h).icount + 1 } ∧
      (∀ i j, i < 64 → j < 64 → g.cell f.d i j = ((s.engine h).mmaCell f i j).1 % 2 ^ 32) ∧
      (∀ r, r ≠ f.d → g.regs.tile r = (s.engine h).regs.tile r))

/-- O15. In a serial section, HALT ends the run and NEXT the section: the bytes the instance stored to the state view are in
the copy and every other byte is as it was; NEXT goes to the next section the image contains and, without one, ends the run.
It holds for a Yobel's copy and for a mirror copy whose checkpoint copies are made, of whose pages the instance touched none
that is held for a repair. ABORT and an instance that reached INSN_LIMIT fault: the run ends with the fault's code and index
reported, the ABORT code for ABORT, the buffered stores are discarded and the flags kept. An instance that touched a held
page is discarded instead and starts again, with the registers it began with; while a repair it awaits is pending nothing
runs. (R147, R149, R150, R153, R169) -/
def Obligations.SectionsAndRunsEnd : Prop :=
  (∀ (h : Fin 77) (f : RFields) (ch : Nat) (k : Fin 9) (slot : BitVec 12) (s : State), s.standsAt h (encR 0x01 f) = true → rFieldsOk f {} = true → f.ty = 0 →
    (s.engine h).sect.serial = true → (s.engine h).copy = .yobel k slot →
    s.undisturbed h = true →
    ∃ t, exec (.halt h f ch) s = .next t ∧ (t.engine h).finished = true ∧ (t.engine h).running = false ∧
      (t.engine h).faulted = (s.engine h).faulted ∧ (∀ o, o < 2 ^ 60 → Mem.byte (t.engine h).state o = loadByte (s.engine h) (2 ^ 60 + o))) ∧
  (∀ (h : Fin 77) (f : RFields) (ch : Nat) (i : BitVec 16) (s : State), s.standsAt h (encR 0x01 f) = true → rFieldsOk f {} = true → f.ty = 0 →
    (s.engine h).sect.serial = true → (s.engine h).copy = .mirror i →
    s.undisturbed h = true → (s.begin.cowPages (s.engine h).ctx i.toNat (s.engine h).storedPages).isSome = true →
    ∃ t, exec (.halt h f ch) s = .next t ∧ (t.engine h).finished = true ∧ (t.engine h).running = false ∧
      (t.engine h).faulted = (s.engine h).faulted ∧ (∀ o, o < 2 ^ 60 → Mem.byte (t.engine h).state o = loadByte (s.engine h) (2 ^ 60 + o))) ∧
  (∀ (h : Fin 77) (f : RFields) (ch : Nat) (k : Fin 9) (slot : BitVec 12) (s : State), s.standsAt h (encR 0x02 f) = true → rFieldsOk f {} = true → f.ty = 0 →
    (s.engine h).sect.serial = true → (s.engine h).copy = .yobel k slot →
    s.undisturbed h = true →
    (s.engine h).after (s.engine h).sect = none →
    ∃ t, exec (.nextInsn h f ch) s = .next t ∧ (t.engine h).finished = true ∧ (t.engine h).running = false ∧ (∀ o, o < 2 ^ 60 → Mem.byte (t.engine h).state o = loadByte (s.engine h) (2 ^ 60 + o))) ∧
  (∀ (h : Fin 77) (f : RFields) (ch : Nat) (k : Fin 9) (slot : BitVec 12) (sec : Section) (s : State), s.standsAt h (encR 0x02 f) = true → rFieldsOk f {} = true → f.ty = 0 →
    (s.engine h).sect.serial = true → (s.engine h).copy = .yobel k slot →
    s.undisturbed h = true →
    (s.engine h).after (s.engine h).sect = some sec → sec.serial = true →
    ∃ t, exec (.nextInsn h f ch) s = .next t ∧ (t.engine h).sect = sec ∧ (t.engine h).icount = 0 ∧ (t.engine h).stores = [] ∧
      (t.engine h).pc = ((s.engine h).entryOf sec).getD 0 ∧ (t.engine h).regs.v = (s.engine h).regs.v ∧ (∀ o, o < 2 ^ 60 → Mem.byte (t.engine h).state o = loadByte (s.engine h) (2 ^ 60 + o))) ∧
  (∀ (h : Fin 77) (f : RFields) (ch : Nat) (i : BitVec 16) (sec : Section) (s : State), s.standsAt h (encR 0x02 f) = true → rFieldsOk f {} = true → f.ty = 0 →
    (s.engine h).sect.serial = true → (s.engine h).copy = .mirror i →
    s.undisturbed h = true → (s.begin.cowPages (s.engine h).ctx i.toNat (s.engine h).storedPages).isSome = true →
    (s.engine h).after (s.engine h).sect = some sec → sec.serial = true →
    ∃ t, exec (.nextInsn h f ch) s = .next t ∧ (t.engine h).sect = sec ∧ (t.engine h).icount = 0 ∧ (t.engine h).stores = [] ∧
      (t.engine h).pc = ((s.engine h).entryOf sec).getD 0 ∧ (∀ o, o < 2 ^ 60 → Mem.byte (t.engine h).state o = loadByte (s.engine h) (2 ^ 60 + o))) ∧
  (∀ (h : Fin 77) (f : IFields) (s : State), s.iForm h 0x03 f false false false = true → s.undisturbed h = true → (s.engine h).sect.serial = true →
    exec (.abortInsn h f) s = .next (s.begin.setEngine h { s.engine h with
      stores := [], stored := 0, finished := true, running := false
      faulted := some ((s.engine h).inst, 6, (s.engine h).sect, f.imm.setWidth 16, (s.engine h).pc)
      finalFlags := (s.engine h).finalFlags ||| (s.engine h).regs.estat })) ∧
  (∀ (h : Fin 77) (s : State), (s.engine h).running = true → (s.engine h).hdr.insnLimit ≤ (s.engine h).icount →
    s.goesOn h = true → s.undisturbed h = true → (s.engine h).sect.serial = true →
    exec (.insnLimitFault h) s = .next (s.begin.setEngine h { s.engine h with
      stores := [], stored := 0, finished := true, running := false
      faulted := some ((s.engine h).inst, 5, (s.engine h).sect, 0, (s.engine h).pc)
      finalFlags := (s.engine h).finalFlags ||| (s.engine h).regs.estat })) ∧
  (∀ (h : Fin 77) (s : State), (s.engine h).running = true → (s.engine h).hdr.insnLimit ≤ (s.engine h).icount →
    s.goesOn h = true → s.undisturbed h = true → (s.engine h).sect.serial = false → (s.engine h).faulted = none →
    (s.engine h).done.length + 1 < (s.engine h).instances (s.engine h).sect →
    ∃ t, exec (.insnLimitFault h) s = .next t ∧ (t.engine h).running = true ∧ (t.engine h).stores = [] ∧
      (t.engine h).state = (s.engine h).state ∧ (t.engine h).done = (s.engine h).inst :: (s.engine h).done ∧
      (t.engine h).faulted = some ((s.engine h).inst, 5, (s.engine h).sect, 0, (s.engine h).pc)) ∧
  (∀ (h : Fin 77) (f : IFields) (s : State), s.standsAt h (encI 0x03 f) = true → s.undisturbed h = false →
    exec (.abortInsn h f) s = .next (s.begin.setEngine h ((s.engine h).rerunHeld (s.heldPage (s.engine h))))) ∧
  (∀ (h : Fin 77) (f : RFields) (ch : Nat) (s : State), s.standsAt h (encR 0x01 f) = true → s.undisturbed h = false →
    ∃ t, exec (.halt h f ch) s = .next t ∧ t = s.begin.setEngine h (t.engine h) ∧ (t.engine h).state = (s.engine h).state ∧
      (t.engine h).stores = [] ∧ (t.engine h).pc = ((s.engine h).entryOf (s.engine h).sect).getD 0 ∧
      (t.engine h).sect = (s.engine h).sect ∧ (t.engine h).regs = (s.engine h).first) ∧
  (∀ (h : Fin 77) (f : RFields) (s : State), (s.engine h).running = true → (s.engine h).fetch = some (encR 0x00 f) →
    s.goesOn h = false → ∃ t, exec (.nop h f) s = .next t ∧ t = s.begin.setEngine h (s.engine h))

/-- O16. For each instruction of the vector engine but HALT and NEXT, and for every value of its fields: when the word at
the pc of a running engine is the instruction's encoding with those fields, the command's effect on the engine is that of
the engine decoding that word and executing it (faults, and the discarding of an instance that a held page disturbs,
included), and nothing else of the block changes. So the decoder reads back from every encoded word the opcode and every
field that was encoded. (R153, R158, R159, R169) -/
def Obligations.InstructionCommandsRunTheDecodedWord : Prop :=
  (∀ (h : Fin 77) (f : RFields) (s : State), (s.engine h).running = true → (s.engine h).fetch = some (encR 0x00 f) →
    exec (.nop h f) s = .next (s.begin.setEngine h ((s.engine h).stepHeld (s.heldPage (s.engine h))))) ∧
  (∀ (h : Fin 77) (f : IFields) (s : State), (s.engine h).running = true → (s.engine h).fetch = some (encI 0x03 f) →
    exec (.abortInsn h f) s = .next (s.begin.setEngine h ((s.engine h).stepHeld (s.heldPage (s.engine h))))) ∧
  (∀ (h : Fin 77) (f : IFields) (s : State), (s.engine h).running = true → (s.engine h).fetch = some (encI 0x04 f) →
    exec (.jmp h f) s = .next (s.begin.setEngine h ((s.engine h).stepHeld (s.heldPage (s.engine h))))) ∧
  (∀ (h : Fin 77) (f : IFields) (s : State), (s.engine h).running = true → (s.engine h).fetch = some (encI 0x05 f) →
    exec (.beq h f) s = .next (s.begin.setEngine h ((s.engine h).stepHeld (s.heldPage (s.engine h))))) ∧
  (∀ (h : Fin 77) (f : IFields) (s : State), (s.engine h).running = true → (s.engine h).fetch = some (encI 0x06 f) →
    exec (.bne h f) s = .next (s.begin.setEngine h ((s.engine h).stepHeld (s.heldPage (s.engine h))))) ∧
  (∀ (h : Fin 77) (f : IFields) (s : State), (s.engine h).running = true → (s.engine h).fetch = some (encI 0x07 f) →
    exec (.blt h f) s = .next (s.begin.setEngine h ((s.engine h).stepHeld (s.heldPage (s.engine h))))) ∧
  (∀ (h : Fin 77) (f : IFields) (s : State), (s.engine h).running = true → (s.engine h).fetch = some (encI 0x08 f) →
    exec (.bge h f) s = .next (s.begin.setEngine h ((s.engine h).stepHeld (s.heldPage (s.engine h))))) ∧
  (∀ (h : Fin 77) (f : IFields) (s : State), (s.engine h).running = true → (s.engine h).fetch = some (encI 0x09 f) →
    exec (.csrr h f) s = .next (s.begin.setEngine h ((s.engine h).stepHeld (s.heldPage (s.engine h))))) ∧
  (∀ (h : Fin 77) (f : IFields) (s : State), (s.engine h).running = true → (s.engine h).fetch = some (encI 0x0A f) →
    exec (.csrw h f) s = .next (s.begin.setEngine h ((s.engine h).stepHeld (s.heldPage (s.engine h))))) ∧
  (∀ (h : Fin 77) (f : IFields) (s : State), (s.engine h).running = true → (s.engine h).fetch = some (encI 0x10 f) →
    exec (.li h f) s = .next (s.begin.setEngine h ((s.engine h).stepHeld (s.heldPage (s.engine h))))) ∧
  (∀ (h : Fin 77) (f : IFields) (s : State), (s.engine h).running = true → (s.engine h).fetch = some (encI 0x11 f) →
    exec (.lui h f) s = .next (s.begin.setEngine h ((s.engine h).stepHeld (s.heldPage (s.engine h))))) ∧
  (∀ (h : Fin 77) (f : RFields) (s : State), (s.engine h).running = true → (s.engine h).fetch = some (encR 0x12 f) →
    exec (.sadd h f) s = .next (s.begin.setEngine h ((s.engine h).stepHeld (s.heldPage (s.engine h))))) ∧
  (∀ (h : Fin 77) (f : IFields) (s : State), (s.engine h).running = true → (s.engine h).fetch = some (encI 0x13 f) →
    exec (.saddi h f) s = .next (s.begin.setEngine h ((s.engine h).stepHeld (s.heldPage (s.engine h))))) ∧
  (∀ (h : Fin 77) (f : RFields) (s : State), (s.engine h).running = true → (s.engine h).fetch = some (encR 0x14 f) →
    exec (.ssub h f) s = .next (s.begin.setEngine h ((s.engine h).stepHeld (s.heldPage (s.engine h))))) ∧
  (∀ (h : Fin 77) (f : RFields) (s : State), (s.engine h).running = true → (s.engine h).fetch = some (encR 0x15 f) →
    exec (.smul h f) s = .next (s.begin.setEngine h ((s.engine h).stepHeld (s.heldPage (s.engine h))))) ∧
  (∀ (h : Fin 77) (f : RFields) (s : State), (s.engine h).running = true → (s.engine h).fetch = some (encR 0x16 f) →
    exec (.sand h f) s = .next (s.begin.setEngine h ((s.engine h).stepHeld (s.heldPage (s.engine h))))) ∧
  (∀ (h : Fin 77) (f : RFields) (s : State), (s.engine h).running = true → (s.engine h).fetch = some (encR 0x17 f) →
    exec (.sor h f) s = .next (s.begin.setEngine h ((s.engine h).stepHeld (s.heldPage (s.engine h))))) ∧
  (∀ (h : Fin 77) (f : RFields) (s : State), (s.engine h).running = true → (s.engine h).fetch = some (encR 0x18 f) →
    exec (.sxor h f) s = .next (s.begin.setEngine h ((s.engine h).stepHeld (s.heldPage (s.engine h))))) ∧
  (∀ (h : Fin 77) (f : IFields) (s : State), (s.engine h).running = true → (s.engine h).fetch = some (encI 0x19 f) →
    exec (.sshli h f) s = .next (s.begin.setEngine h ((s.engine h).stepHeld (s.heldPage (s.engine h))))) ∧
  (∀ (h : Fin 77) (f : IFields) (s : State), (s.engine h).running = true → (s.engine h).fetch = some (encI 0x1A f) →
    exec (.sshri h f) s = .next (s.begin.setEngine h ((s.engine h).stepHeld (s.heldPage (s.engine h))))) ∧
  (∀ (h : Fin 77) (f : RFields) (s : State), (s.engine h).running = true → (s.engine h).fetch = some (encR 0x1B f) →
    exec (.smin h f) s = .next (s.begin.setEngine h ((s.engine h).stepHeld (s.heldPage (s.engine h))))) ∧
  (∀ (h : Fin 77) (f : IFields) (s : State), (s.engine h).running = true → (s.engine h).fetch = some (encI 0x1C f) →
    exec (.sld h f) s = .next (s.begin.setEngine h ((s.engine h).stepHeld (s.heldPage (s.engine h))))) ∧
  (∀ (h : Fin 77) (f : IFields) (s : State), (s.engine h).running = true → (s.engine h).fetch = some (encI 0x1D f) →
    exec (.sst h f) s = .next (s.begin.setEngine h ((s.engine h).stepHeld (s.heldPage (s.engine h))))) ∧
  (∀ (h : Fin 77) (f : RFields) (s : State), (s.engine h).running = true → (s.engine h).fetch = some (encR 0x20 f) →
    exec (.setvl h f) s = .next (s.begin.setEngine h ((s.engine h).stepHeld (s.heldPage (s.engine h))))) ∧
  (∀ (h : Fin 77) (f : IFields) (s : State), (s.engine h).running = true → (s.engine h).fetch = some (encI 0x21 f) →
    exec (.vld h f) s = .next (s.begin.setEngine h ((s.engine h).stepHeld (s.heldPage (s.engine h))))) ∧
  (∀ (h : Fin 77) (f : IFields) (s : State), (s.engine h).running = true → (s.engine h).fetch = some (encI 0x22 f) →
    exec (.vst h f) s = .next (s.begin.setEngine h ((s.engine h).stepHeld (s.heldPage (s.engine h))))) ∧
  (∀ (h : Fin 77) (f : RFields) (s : State), (s.engine h).running = true → (s.engine h).fetch = some (encR 0x23 f) →
    exec (.viota h f) s = .next (s.begin.setEngine h ((s.engine h).stepHeld (s.heldPage (s.engine h))))) ∧
  (∀ (h : Fin 77) (f : RFields) (s : State), (s.engine h).running = true → (s.engine h).fetch = some (encR 0x30 f) →
    exec (.vadd h f) s = .next (s.begin.setEngine h ((s.engine h).stepHeld (s.heldPage (s.engine h))))) ∧
  (∀ (h : Fin 77) (f : RFields) (s : State), (s.engine h).running = true → (s.engine h).fetch = some (encR 0x31 f) →
    exec (.vsub h f) s = .next (s.begin.setEngine h ((s.engine h).stepHeld (s.heldPage (s.engine h))))) ∧
  (∀ (h : Fin 77) (f : RFields) (s : State), (s.engine h).running = true → (s.engine h).fetch = some (encR 0x32 f) →
    exec (.vmul h f) s = .next (s.begin.setEngine h ((s.engine h).stepHeld (s.heldPage (s.engine h))))) ∧
  (∀ (h : Fin 77) (f : RFields) (s : State), (s.engine h).running = true → (s.engine h).fetch = some (encR 0x33 f) →
    exec (.vdiv h f) s = .next (s.begin.setEngine h ((s.engine h).stepHeld (s.heldPage (s.engine h))))) ∧
  (∀ (h : Fin 77) (f : RFields) (s : State), (s.engine h).running = true → (s.engine h).fetch = some (encR 0x34 f) →
    exec (.vfma h f) s = .next (s.begin.setEngine h ((s.engine h).stepHeld (s.heldPage (s.engine h))))) ∧
  (∀ (h : Fin 77) (f : RFields) (s : State), (s.engine h).running = true → (s.engine h).fetch = some (encR 0x35 f) →
    exec (.vfms h f) s = .next (s.begin.setEngine h ((s.engine h).stepHeld (s.heldPage (s.engine h))))) ∧
  (∀ (h : Fin 77) (f : RFields) (s : State), (s.engine h).running = true → (s.engine h).fetch = some (encR 0x36 f) →
    exec (.vfnma h f) s = .next (s.begin.setEngine h ((s.engine h).stepHeld (s.heldPage (s.engine h))))) ∧
  (∀ (h : Fin 77) (f : RFields) (s : State), (s.engine h).running = true → (s.engine h).fetch = some (encR 0x37 f) →
    exec (.vsqrt h f) s = .next (s.begin.setEngine h ((s.engine h).stepHeld (s.heldPage (s.engine h))))) ∧
  (∀ (h : Fin 77) (f : RFields) (s : State), (s.engine h).running = true → (s.engine h).fetch = some (encR 0x38 f) →
    exec (.vrsqrt h f) s = .next (s.begin.setEngine h ((s.engine h).stepHeld (s.heldPage (s.engine h))))) ∧
  (∀ (h : Fin 77) (f : RFields) (s : State), (s.engine h).running = true → (s.engine h).fetch = some (encR 0x39 f) →
    exec (.vmin h f) s = .next (s.begin.setEngine h ((s.engine h).stepHeld (s.heldPage (s.engine h))))) ∧
  (∀ (h : Fin 77) (f : RFields) (s : State), (s.engine h).running = true → (s.engine h).fetch = some (encR 0x3A f) →
    exec (.vmax h f) s = .next (s.begin.setEngine h ((s.engine h).stepHeld (s.heldPage (s.engine h))))) ∧
  (∀ (h : Fin 77) (f : RFields) (s : State), (s.engine h).running = true → (s.engine h).fetch = some (encR 0x3B f) →
    exec (.vabs h f) s = .next (s.begin.setEngine h ((s.engine h).stepHeld (s.heldPage (s.engine h))))) ∧
  (∀ (h : Fin 77) (f : RFields) (s : State), (s.engine h).running = true → (s.engine h).fetch = some (encR 0x3C f) →
    exec (.vneg h f) s = .next (s.begin.setEngine h ((s.engine h).stepHeld (s.heldPage (s.engine h))))) ∧
  (∀ (h : Fin 77) (f : RFields) (s : State), (s.engine h).running = true → (s.engine h).fetch = some (encR 0x3D f) →
    exec (.vcvt h f) s = .next (s.begin.setEngine h ((s.engine h).stepHeld (s.heldPage (s.engine h))))) ∧
  (∀ (h : Fin 77) (f : RFields) (s : State), (s.engine h).running = true → (s.engine h).fetch = some (encR 0x3E f) →
    exec (.vceq h f) s = .next (s.begin.setEngine h ((s.engine h).stepHeld (s.heldPage (s.engine h))))) ∧
  (∀ (h : Fin 77) (f : RFields) (s : State), (s.engine h).running = true → (s.engine h).fetch = some (encR 0x3F f) →
    exec (.vclt h f) s = .next (s.begin.setEngine h ((s.engine h).stepHeld (s.heldPage (s.engine h))))) ∧
  (∀ (h : Fin 77) (f : RFields) (s : State), (s.engine h).running = true → (s.engine h).fetch = some (encR 0x40 f) →
    exec (.vcle h f) s = .next (s.begin.setEngine h ((s.engine h).stepHeld (s.heldPage (s.engine h))))) ∧
  (∀ (h : Fin 77) (f : RFields) (s : State), (s.engine h).running = true → (s.engine h).fetch = some (encR 0x41 f) →
    exec (.vnf h f) s = .next (s.begin.setEngine h ((s.engine h).stepHeld (s.heldPage (s.engine h))))) ∧
  (∀ (h : Fin 77) (f : RFields) (s : State), (s.engine h).running = true → (s.engine h).fetch = some (encR 0x48 f) →
    exec (.vand h f) s = .next (s.begin.setEngine h ((s.engine h).stepHeld (s.heldPage (s.engine h))))) ∧
  (∀ (h : Fin 77) (f : RFields) (s : State), (s.engine h).running = true → (s.engine h).fetch = some (encR 0x49 f) →
    exec (.vor h f) s = .next (s.begin.setEngine h ((s.engine h).stepHeld (s.heldPage (s.engine h))))) ∧
  (∀ (h : Fin 77) (f : RFields) (s : State), (s.engine h).running = true → (s.engine h).fetch = some (encR 0x4A f) →
    exec (.vxor h f) s = .next (s.begin.setEngine h ((s.engine h).stepHeld (s.heldPage (s.engine h))))) ∧
  (∀ (h : Fin 77) (f : RFields) (s : State), (s.engine h).running = true → (s.engine h).fetch = some (encR 0x4B f) →
    exec (.vsel h f) s = .next (s.begin.setEngine h ((s.engine h).stepHeld (s.heldPage (s.engine h))))) ∧
  (∀ (h : Fin 77) (f : RFields) (s : State), (s.engine h).running = true → (s.engine h).fetch = some (encR 0x4C f) →
    exec (.viadd h f) s = .next (s.begin.setEngine h ((s.engine h).stepHeld (s.heldPage (s.engine h))))) ∧
  (∀ (h : Fin 77) (f : RFields) (s : State), (s.engine h).running = true → (s.engine h).fetch = some (encR 0x4D f) →
    exec (.vany h f) s = .next (s.begin.setEngine h ((s.engine h).stepHeld (s.heldPage (s.engine h))))) ∧
  (∀ (h : Fin 77) (f : RFields) (s : State), (s.engine h).running = true → (s.engine h).fetch = some (encR 0x50 f) →
    exec (.vrand h f) s = .next (s.begin.setEngine h ((s.engine h).stepHeld (s.heldPage (s.engine h))))) ∧
  (∀ (h : Fin 77) (f : RFields) (s : State), (s.engine h).running = true → (s.engine h).fetch = some (encR 0x58 f) →
    exec (.aclr h f) s = .next (s.begin.setEngine h ((s.engine h).stepHeld (s.heldPage (s.engine h))))) ∧
  (∀ (h : Fin 77) (f : RFields) (s : State), (s.engine h).running = true → (s.engine h).fetch = some (encR 0x59 f) →
    exec (.aadd h f) s = .next (s.begin.setEngine h ((s.engine h).stepHeld (s.heldPage (s.engine h))))) ∧
  (∀ (h : Fin 77) (f : RFields) (s : State), (s.engine h).running = true → (s.engine h).fetch = some (encR 0x5A f) →
    exec (.aget h f) s = .next (s.begin.setEngine h ((s.engine h).stepHeld (s.heldPage (s.engine h))))) ∧
  (∀ (h : Fin 77) (f : IFields) (s : State), (s.engine h).running = true → (s.engine h).fetch = some (encI 0x60 f) →
    exec (.tld h f) s = .next (s.begin.setEngine h ((s.engine h).stepHeld (s.heldPage (s.engine h))))) ∧
  (∀ (h : Fin 77) (f : IFields) (s : State), (s.engine h).running = true → (s.engine h).fetch = some (encI 0x61 f) →
    exec (.tst h f) s = .next (s.begin.setEngine h ((s.engine h).stepHeld (s.heldPage (s.engine h))))) ∧
  (∀ (h : Fin 77) (f : RFields) (s : State), (s.engine h).running = true → (s.engine h).fetch = some (encR 0x62 f) →
    exec (.tzero h f) s = .next (s.begin.setEngine h ((s.engine h).stepHeld (s.heldPage (s.engine h))))) ∧
  (∀ (h : Fin 77) (f : RFields) (s : State), (s.engine h).running = true → (s.engine h).fetch = some (encR 0x63 f) →
    exec (.tmma h f) s = .next (s.begin.setEngine h ((s.engine h).stepHeld (s.heldPage (s.engine h))))) ∧
  (∀ (h : Fin 77) (f : RFields) (s : State), (s.engine h).running = true → (s.engine h).fetch = some (encR 0x64 f) →
    exec (.tred h f) s = .next (s.begin.setEngine h ((s.engine h).stepHeld (s.heldPage (s.engine h)))))

/-- O17. For every opcode of 8 bits and every value of the fields, the word of format R and the word of format I carry the
opcode in bits [63:56], TYPE in [55:52], D, A and B in [47:33], and decoding the word's fields gives back the fields
encoded. (R158) -/
def Obligations.EncodingIsReadBack : Prop :=
  (∀ (op : Nat) (f : RFields), op < 256 → decR (encR op f) = f ∧ (encR op f).toNat >>> 56 = op) ∧
  (∀ (op : Nat) (f : IFields), op < 256 → decI (encI op f) = f ∧ (encI op f).toNat >>> 56 = op) ∧
  (∀ (op : Nat) (f : RFields), (encR op f).extractLsb' 52 4 = f.ty ∧ (encR op f).extractLsb' 43 5 = f.d ∧
    (encR op f).extractLsb' 38 5 = f.a ∧ (encR op f).extractLsb' 33 5 = f.b ∧ (encR op f).extractLsb' 28 5 = f.c)

/-- O18. In every format code 0 to 4: adding a NaN operand, dividing 0 by 0, multiplying an infinity by 0 and the square
root of a negative number each give the format's canonical NaN; the sum of two infinities of unlike sign is the canonical
NaN with IV; VMIN and VMAX of a NaN and another operand give the other operand delivered to the format. (R59, R76, R154) -/
def Obligations.NaNAndExtremaRules : Prop :=
  (∀ (c : Nat) (z : Bool) (y : FVal), (addV c z .nan y).1 = canonicalNaN c ∧ (addV c z y .nan).1 = canonicalNaN c) ∧
  (∀ (c : Nat) (z : Bool), addV c z (.inf false) (.inf true) = (canonicalNaN c, flagIV)) ∧
  (∀ (c : Nat) (z n m : Bool) (p q : Int), divF c z (.num n 0 p) (.num m 0 q) = (canonicalNaN c, flagIV)) ∧
  (∀ (c : Nat) (z n m : Bool) (q : Int), mulF c z (.inf n) (.num m 0 q) = (canonicalNaN c, flagIV)) ∧
  (∀ (c : Nat) (z : Bool) (m : Nat) (q : Int), m ≠ 0 → sqrtF c z (.num true m q) = (canonicalNaN c, flagIV)) ∧
  (∀ (c : Nat) (z hi : Bool) (y : FVal), minmaxF c z hi .nan y = deliverV c z y ∧ minmaxF c z hi y .nan = deliverV c z y) ∧
  (canonicalNaN 0 = 0x7FC00000 ∧ canonicalNaN 1 = 0x7FC0 ∧ canonicalNaN 2 = 0x7E00 ∧ canonicalNaN 3 = 0x7F ∧ canonicalNaN 4 = 0x7E)

/-- O19. A charter endpoint's aligned WR to its context's step record window that does not cover the control word stores its
bytes, leaves every other byte and the rest of the context unchanged and answers OK; an aligned RD answers the bytes; a WR
whose control word has CMD 0 stores its words and answers OK. A control word with CMD = 3 at an ACTIVE context answers
NACK_BUSY with code 6, and REFUSE holds it. A requester that is no endpoint gets NACK_ACCESS and changes nothing. (R34, R35,
R36, R402) -/
def Obligations.StepRecordWindowAccess : Prop :=
  (∀ (rq : Req) (off len : Nat) (data : Bytes) (s : State), s.reachesByPort rq = true → s.endpoint rq = true →
    off % 8 = 0 → data.length % 8 = 0 → off + data.length ≤ 256 → off ≠ 0 →
    ∃ t, exec (.stepRecordStore rq .wr off len data) s = .next t ∧ t.answeredOnly s rq .ok ∧
      (∀ a, (a < off ∨ off + data.length ≤ a) →
        Mem.byte (t.ctx rq.ctx).step.window a = Mem.byte (s.ctx rq.ctx).step.window a) ∧
      (t.ctx rq.ctx).step.window.read off data.length = data ∧
      (t.ctx rq.ctx).step = { (s.ctx rq.ctx).step with window := (t.ctx rq.ctx).step.window } ∧
      (t.ctx rq.ctx).clr = (s.ctx rq.ctx).clr ∧ (∀ n, n ≠ rq.ctx.val → t.ctx n = s.ctx n) ∧ t.mir = s.mir ∧ t.sent = []) ∧
  (∀ (rq : Req) (off len : Nat) (s : State), s.reachesByPort rq = true → s.endpoint rq = true →
    off % 8 = 0 → len % 8 = 0 → off + len ≤ 256 →
    exec (.stepRecordStore rq .rd off len []) s =
      .next (s.begin.answer rq .ok 0 ((s.ctx rq.ctx).step.window.read off len))) ∧
  (∀ (rq : Req) (len : Nat) (data : Bytes) (s : State), s.controlWrite rq data = true →
    ∃ t, exec (.stepRecordStore rq .wr 0 len data) s = .next t ∧ t.answeredOnly s rq .ok ∧
      (t.ctx rq.ctx).step = { (s.ctx rq.ctx).step with window := s.windowAfter rq.ctx 0 data } ∧ t.sent = []) ∧
  (∀ (rq : Req) (data : Bytes) (s : State), s.controlWrite rq data = true →
    (s.ctx rq.ctx).life.st = .active → (s.ctx rq.ctx).life.quiescing = false →
    ∃ t, exec (.stepRecordReservedCmd rq data) s = .next t ∧ t.answeredOnly s rq .nackBusy 6 ∧
      (t.ctx rq.ctx).step = { (s.ctx rq.ctx).step with window := s.windowAfter rq.ctx 3 data, refuse := 6 }) ∧
  (∀ (rq : Req) (op : OpCode) (off len : Nat) (data : Bytes) (s : State), s.reachesByPort rq = true →
    s.endpoint rq = false → exec (.stepRecordStore rq op off len data) s = .next (s.begin.answer rq .nackAccess))

/-- O20. OPEN at a context that is not ACTIVE, or quiescing, is refused with 1; at an ACTIVE context, for an attempt not
accepted yet, with VOTE_LAG above 4 or CKPT_MODE 3 with 6, with a step number that differs in one of its three places with
5, out of order with 2, with a deadline not after the present time with 3 and one more than an hour ahead with 4; each
answers NACK_BUSY with the code and REFUSE holds it. A record that meets all of them, at an Azard outside every tree of the
context with nothing held for it, is answered OK and its attempt is the newest one, OPEN, with its tag. VOID of the OPEN
attempt at a node that is not the step root asks the step root for it and answers OK; VOID of an attempt never accepted is
refused with 2. (R32, R35, R36, R37, R38) -/
def Obligations.StepOpenAndVoidCommands : Prop :=
  (∀ (rq : Req) (data : Bytes) (s : State), s.controlWrite rq data = true → s.recordShut rq.ctx = true →
    ∃ t, exec (.stepOpen rq data) s = .next t ∧ t.answeredOnly s rq .nackBusy 1 ∧ (t.ctx rq.ctx).step.refuse = 1 ∧
      (t.ctx rq.ctx).step.accepted = (s.ctx rq.ctx).step.accepted) ∧
  (∀ (rq : Req) (data : Bytes) (s : State), s.controlWrite rq data = true → s.recordShut rq.ctx = false →
    let w := s.windowAfter rq.ctx 1 data
    let ctl := controlWord 1 data
    s.findAtt rq.ctx (windowStep w) (windowAttempt w) = none →
    ∃ t, exec (.stepOpen rq data) s = .next t ∧
      (4 < ctlLag ctl ∨ ctlMode ctl = 3 → t.answeredOnly s rq .nackBusy 6) ∧
      (ctlLag ctl ≤ 4 → ctlMode ctl ≠ 3 → (w.le 0x40 8 ≠ (windowStep w).toNat ∨ w.le 0x80 8 ≠ (windowStep w).toNat) →
        t.answeredOnly s rq .nackBusy 5) ∧
      (ctlLag ctl ≤ 4 → ctlMode ctl ≠ 3 → w.le 0x40 8 = (windowStep w).toNat → w.le 0x80 8 = (windowStep w).toNat →
        (s.orderBad rq.ctx (windowStep w) (windowAttempt w) = true → t.answeredOnly s rq .nackBusy 2) ∧
        (s.orderBad rq.ctx (windowStep w) (windowAttempt w) = false → w.le 0x18 8 ≤ s.now.toNat →
          t.answeredOnly s rq .nackBusy 3) ∧
        (s.orderBad rq.ctx (windowStep w) (windowAttempt w) = false → s.now.toNat + 3600 * second < w.le 0x18 8 →
          t.answeredOnly s rq .nackBusy 4))) ∧
  (∀ (rq : Req) (data : Bytes) (s : State), s.controlWrite rq data = true → s.recordShut rq.ctx = false →
    let w := s.windowAfter rq.ctx 1 data
    let ctl := controlWord 1 data
    s.findAtt rq.ctx (windowStep w) (windowAttempt w) = none → ctlLag ctl ≤ 4 → ctlMode ctl ≠ 3 →
    w.le 0x40 8 = (windowStep w).toNat → w.le 0x80 8 = (windowStep w).toNat →
    s.orderBad rq.ctx (windowStep w) (windowAttempt w) = false →
    s.now.toNat < w.le 0x18 8 → w.le 0x18 8 ≤ s.now.toNat + 3600 * second →
    (∀ g ∈ (s.ctx rq.ctx).clr.groups, g.clearing = false ∧ s.awaited rq.ctx g.defn = []) →
    (s.ctx rq.ctx).life.stepRoot = false → (s.ctx rq.ctx).clr.held = [] → (s.ctx rq.ctx).clr.heldVoids = [] →
    (s.ctx rq.ctx).clr.heldReports = [] → (s.ctx rq.ctx).step.clears = [] →
    ∃ t a, exec (.stepOpen rq data) s = .next t ∧ t.answeredOnly s rq .ok ∧ t.openAtt rq.ctx = some a ∧
      (t.ctx rq.ctx).step.accepted = a :: (s.ctx rq.ctx).step.accepted ∧
      a.step = windowStep w ∧ a.attempt = windowAttempt w ∧ a.tag = recordTag (ctlLag ctl) (ctlMode ctl) (w.read 8 0xB8)) ∧
  (∀ (rq : Req) (data : Bytes) (s : State) (a : Attempt), s.controlWrite rq data = true →
    s.findAtt rq.ctx (windowStep (s.windowAfter rq.ctx 2 data)) (windowAttempt (s.windowAfter rq.ctx 2 data)) = some a →
    a.phase = .opened → (s.ctx rq.ctx).life.stepRoot = false →
    ∃ t, exec (.stepVoid rq data) s = .next t ∧ t.answeredOnly s rq .ok ∧
      t.sent = [{ dest := .node (ctxFin rq.ctx) (s.ctx rq.ctx).clr.root, op := .msg, kind := 0x12, hdr := some a.hdr,
                  args := [3, (s.ctx rq.ctx).life.self.toNat] }] ∧
      (t.ctx rq.ctx).step.accepted = (s.ctx rq.ctx).step.accepted) ∧
  (∀ (rq : Req) (data : Bytes) (s : State), s.controlWrite rq data = true →
    s.findAtt rq.ctx (windowStep (s.windowAfter rq.ctx 2 data)) (windowAttempt (s.windowAfter rq.ctx 2 data)) = none →
    ∃ t, exec (.stepVoid rq data) s = .next t ∧ t.answeredOnly s rq .nackBusy 2 ∧ (t.ctx rq.ctx).step.refuse = 2)

/-- O21. For every list of contributions of elements to a segment, each entered in turn, the ledger sum of every element
afterwards is what it was plus the sum, in 128-bit integers, of the terms of that element's own contributions; a term
depends on the contribution and the window base E0 alone. So two orders of the same contributions leave the same sum, and a
part of them an exact part of it. (R64) -/
def Obligations.LedgerSumIsTheExactSum : Prop :=
  (∀ (l : List (Mem × Nat)) (g : Seg) (e : Nat),
    Map.get 0 (l.foldl (fun g x => State.addElem x.1 g x.2) g).sums e =
      ((l.filter fun x => x.2 = e).map fun x => ledgerTerm g x.1 x.2).foldl (· + ·) (Map.get 0 g.sums e)) ∧
  (∀ (l₁ l₂ : List (Mem × Nat)) (g : Seg) (e : Nat), l₁.Perm l₂ →
    Map.get 0 (l₁.foldl (fun g x => State.addElem x.1 g x.2) g).sums e =
      Map.get 0 (l₂.foldl (fun g x => State.addElem x.1 g x.2) g).sums e) ∧
  (∀ (g₁ g₂ : Seg) (m : Mem) (i : Nat), g₁.cfmt = g₂.cfmt → g₁.e0 = g₂.e0 → ledgerTerm g₁ m i = ledgerTerm g₂ m i)

/-- O22. A charter endpoint's WR to the descriptor table while the context is CHARTERED stores the words it carries and
answers OK, and answers NACK_ACCESS in any other state; a RD answers the descriptor and status words. A contribution to a
defined segment from a bound node, with attempt and claim, answers NACK_CLAIM when the claim is not the member claim, and is
answered OK when the node is a member awaited in the OPEN attempt, the header matches and the units lie well (no pair, no
group root here, staging at hand): every unit it covers is then accepted. A request that is no WRC, or carries no attempt or
claim, answers NACK_ACCESS, one to an undefined segment NACK_ADDRESS. (R84, R86, R87, R88, R91, R437) -/
def Obligations.DescriptorsAndContributions : Prop :=
  (∀ (rq : Req) (off len : Nat) (data : Bytes) (s : State), s.reachesByPort rq = true → s.endpoint rq = true →
    off % 8 = 0 → data.length % 8 = 0 → off + data.length ≤ 65520 → (s.ctx rq.ctx).life.st = .chartered →
    ∃ t, exec (.descriptorTableWr rq .wr off len data) s = .next t ∧ t.answeredOnly s rq .ok ∧
      (t.ctx rq.ctx).clr.segs = writeDescrs (s.ctx rq.ctx).clr.segs (data.length / 8) (off / 8) data ∧
      (t.ctx rq.ctx).step = (s.ctx rq.ctx).step ∧ (∀ n, n ≠ rq.ctx.val → t.ctx n = s.ctx n)) ∧
  (∀ (rq : Req) (off len : Nat) (data : Bytes) (s : State), s.reachesByPort rq = true → s.endpoint rq = true →
    off % 8 = 0 → data.length % 8 = 0 → off + data.length ≤ 65520 → (s.ctx rq.ctx).life.st ≠ .chartered →
    exec (.descriptorTableWr rq .wr off len data) s = .next (s.begin.answer rq .nackAccess)) ∧
  (∀ (rq : Req) (k : Nat) (s : State), s.reachesByPort rq = true → s.endpoint rq = true → k < 4095 →
    exec (.descriptorTableWr rq .rd (16 * k) 16 []) s = .next (s.begin.answer rq .ok 0
      (natLe 8 (descrWord (s.seg rq.ctx k)).toNat ++ natLe 8 (statusWord (s.seg rq.ctx k)).toNat))) ∧
  (∀ (rq : Req) (op : OpCode) (seg : BitVec 12) (off : Nat) (data : Bytes) (st : MacStamp) (p : Fin 25) (s : State),
    s.reachesByPort rq = true → rq.path = .port p → (s.ctx rq.ctx).bind.bound.any (fun b => b.1 = rq.source && b.2.toNat = p.val) = true →
    ((s.seg rq.ctx seg.toNat).elements = 0 → exec (.contributionWrc rq op seg off data st) s = .next (s.begin.answer rq .nackAddress)) ∧
    ((s.seg rq.ctx seg.toNat).elements ≠ 0 → (op ≠ .wrc ∨ rq.ext = none) →
      exec (.contributionWrc rq op seg off data st) s = .next (s.begin.answer rq .nackAccess))) ∧
  (∀ (rq : Req) (x : Ext) (tr : GroupTree) (seg : BitVec 12) (off : Nat) (data : Bytes) (st : MacStamp) (p : Fin 25) (s : State),
    s.reachesByPort rq = true → rq.path = .port p → (s.ctx rq.ctx).bind.bound.any (fun b => b.1 = rq.source && b.2.toNat = p.val) = true →
    (s.seg rq.ctx seg.toNat).elements ≠ 0 → rq.ext = some x → x.hasAttempt = true → x.hasClaim = true →
    (s.ctx rq.ctx).clr.groups.find? (fun t => t.defn.group.setWidth 5 = (s.seg rq.ctx seg.toNat).group) = some tr →
    x.claim ≠ s.memberClaim rq.ctx rq.source →
    exec (.contributionWrc rq .wrc seg off data st) s = .next (s.begin.answer rq .nackClaim)) ∧
  (∀ (rq : Req) (x : Ext) (tr : GroupTree) (a : Attempt) (seg : BitVec 12) (off : Nat) (data : Bytes) (st : MacStamp) (p : Fin 25)
      (s : State),
    s.reachesByPort rq = true → rq.path = .port p → (s.ctx rq.ctx).bind.bound.any (fun b => b.1 = rq.source && b.2.toNat = p.val) = true →
    (s.seg rq.ctx seg.toNat).elements ≠ 0 → rq.ext = some x → x.hasAttempt = true → x.hasClaim = true →
    (s.ctx rq.ctx).clr.groups.find? (fun t => t.defn.group.setWidth 5 = (s.seg rq.ctx seg.toNat).group) = some tr →
    x.claim = s.memberClaim rq.ctx rq.source → tr.defn.list.contains rq.source = true →
    s.openAtt rq.ctx = some a → a.step = x.step → a.attempt = x.attempt → a.tag = x.tag →
    (s.awaited rq.ctx tr.defn).contains rq.source = true → off % 256 = 0 →
    off + data.length ≤ contribBytes (s.seg rq.ctx seg.toNat).cfmt.toNat (s.seg rq.ctx seg.toNat).elements.toNat →
    (data.length % 256 = 0 ∨
      off + data.length = contribBytes (s.seg rq.ctx seg.toNat).cfmt.toNat (s.seg rq.ctx seg.toNat).elements.toNat) →
    (s.begin.stageChunks rq.ctx seg.toNat (((elemsNear (s.seg rq.ctx seg.toNat).cfmt.toNat
      (s.seg rq.ctx seg.toNat).elements.toNat off data.length).map fun i => i / 1048576)).eraseDups).isSome = true →
    (s.ctx rq.ctx).clr.pairs = [] → (∀ g ∈ s.trees rq.ctx, g.isRoot = false) →
    ∃ t, exec (.contributionWrc rq .wrc seg off data st) s = .next t ∧ t.answeredOnly s rq .ok ∧ t.sent = [] ∧
      (∀ u, off / 256 ≤ u → 256 * u < off + data.length →
        (t.seg rq.ctx seg.toNat).units.contains (rq.source, u) = true))

/-- O23. A block whose inputs are in is sent to the parent with the attempt's header and counted as sent. A child's block of
the OPEN attempt is added element by element to the ledger and marked as accumulated (no group root here, staging at hand);
a later copy is discarded and counted in DUP; a block of the step awaited next, before its record, is held. A RESEND from
the parent sends the chunk's sent blocks again, each with the attempt's header. A group root's report at the step root is
kept until every group has reported. (R92, R93, R97, R98, R103, R388) -/
def Obligations.UpwardFlowAtANode : Prop :=
  (∀ (c : Fin 16) (seg : BitVec 12) (b : Nat) (a : Attempt) (tr : GroupTree) (p : BitVec 16) (s : State),
    s.openAtt c = some a → (s.trees c).find? (fun t => t.defn.group.setWidth 5 = (s.seg c seg.toNat).group) = some tr →
    tr.parent = some p → (s.seg c seg.toNat).elements ≠ 0 → s.mayRise c tr seg.toNat b = true →
    ∃ t, exec (.upwardBlockSend c seg b) s = .next t ∧
      t.sent = [{ dest := .node (ctxFin c) p, op := .msg, kind := 0x10, hdr := some a.hdr, args := [seg.toNat, 0],
                  data := State.upBlock (s.seg c seg.toNat) b }] ∧
      (t.seg c seg.toNat).sent.contains b = true ∧ t.answers = []) ∧
  (∀ (rq : Req) (hdr : AttHdr) (seg : BitVec 12) (data : Bytes) (st : MacStamp) (a : Attempt) (tr : GroupTree) (b : BlockIn) (s : State),
    s.reachesQuiet rq = true → (s.trees rq.ctx).find? (fun t => t.defn.group.setWidth 5 = (s.seg rq.ctx seg.toNat).group) = some tr →
    (s.seg rq.ctx seg.toNat).elements ≠ 0 → tr.children.contains rq.source = true → s.openAtt rq.ctx = some a → a.hdr = hdr →
    decodeBlock (s.seg rq.ctx seg.toNat).elements.toNat data = some b →
    ((s.seg rq.ctx seg.toNat).blocks.contains (rq.source, b.block) = true →
      exec (.upwardBlockReceived rq hdr seg data st) s = .next { s.begin with clr.dup := satInc s.clr.dup }) ∧
    ((s.seg rq.ctx seg.toNat).blocks.contains (rq.source, b.block) = false →
      (s.begin.stageChunk rq.ctx seg.toNat (b.block / 16384)).isSome = true → (∀ g ∈ s.trees rq.ctx, g.isRoot = false) →
      ∃ t, exec (.upwardBlockReceived rq hdr seg data st) s = .next t ∧ t.answers = [] ∧ t.sent = [] ∧
        (t.seg rq.ctx seg.toNat).blocks = (s.seg rq.ctx seg.toNat).blocks ++ [(rq.source, b.block)] ∧
        (∀ i (hi : i < b.vals.length), Map.get 0 (t.seg rq.ctx seg.toNat).sums (64 * b.block + i) =
          Map.get 0 (s.seg rq.ctx seg.toNat).sums (64 * b.block + i) + b.vals[i]))) ∧
  (∀ (rq : Req) (hdr : AttHdr) (seg : BitVec 12) (data : Bytes) (st : MacStamp) (tr : GroupTree) (s : State),
    s.reachesQuiet rq = true → (s.trees rq.ctx).find? (fun t => t.defn.group.setWidth 5 = (s.seg rq.ctx seg.toNat).group) = some tr →
    (s.seg rq.ctx seg.toNat).elements ≠ 0 → tr.children.contains rq.source = true → s.openAtt rq.ctx = none →
    s.findAtt rq.ctx hdr.step hdr.attempt = none → hdr.step = (s.ctx rq.ctx).step.released + 1 → (s.ctx rq.ctx).life.st = .active →
    exec (.upwardBlockReceived rq hdr seg data st) s = .next (s.begin.modCtx rq.ctx fun c => { c with clr.held := c.clr.held ++
      [{ up := true, seg := seg, child := rq.source, hdr := hdr, data := data, stamp := s.ingress rq st }] })) ∧
  (∀ (rq : Req) (hdr : AttHdr) (seg : BitVec 12) (c : Nat) (a : Attempt) (tr : GroupTree) (s : State), s.reaches rq false = true →
    (s.trees rq.ctx).find? (fun t => t.defn.group.setWidth 5 = (s.seg rq.ctx seg.toNat).group) = some tr →
    tr.parent = some rq.source → s.openAtt rq.ctx = some a → a.hdr = hdr →
    ∃ t, exec (.resendReceived rq hdr seg c) s = .next t ∧ t.answeredOnly s rq .ok ∧
      t.sent.length = ((State.chunkBlocks (s.seg rq.ctx seg.toNat) c).filter (s.seg rq.ctx seg.toNat).sent.contains).length ∧
      ∀ m ∈ t.sent, m.kind = 0x10 ∧ m.hdr = some hdr ∧ m.dest = .node (ctxFin rq.ctx) rq.source) ∧
  (∀ (rq : Req) (hdr : AttHdr) (g : BitVec 5) (segs : List SegReport) (st : MacStamp) (a : Attempt) (s : State), s.reaches rq false = true →
    (s.ctx rq.ctx).life.stepRoot = true → s.openAtt rq.ctx = some a → a.hdr = hdr →
    (s.ctx rq.ctx).clr.reports.any (fun r => r.1 = g) = false →
    (s.ctx rq.ctx).clr.groups.all (fun x => ((s.ctx rq.ctx).clr.reports ++ [(g, s.ingress rq st, segs)]).any fun r =>
      r.1 = x.defn.group.setWidth 5) = false →
    ∃ t, exec (.reportReceived rq hdr g segs st) s = .next t ∧ t.answeredOnly s rq .ok ∧
      (t.ctx rq.ctx).clr.reports = (s.ctx rq.ctx).clr.reports ++ [(g, s.ingress rq st, segs)] ∧
      (t.ctx rq.ctx).step = (s.ctx rq.ctx).step ∧ t.sent = [])

/-- O24. A lag clearance for a step not accepted yet is kept; the step root keeps the earliest divergent step it is told. A
RELEASE at an Azard in no tree of the context, with no shard and nothing held, for the step after its released step makes
that step the released one; in a state that is neither ACTIVE nor QUIESCED it changes nothing. A downward block before its
RELEASE is held. The delivery of a rounded chunk writes its bytes to the node's Yobel and marks it delivered. Each request
is answered OK. (R39, R45, R46, R99, R100) -/
def Obligations.LagReleaseAndDelivery : Prop :=
  (∀ (rq : Req) (hdr : AttHdr) (s : State), s.reaches rq false = true → s.findAtt rq.ctx hdr.step hdr.attempt = none →
    (s.ctx rq.ctx).step.released.toNat < hdr.step.toNat →
    ∃ t, exec (.lagClearReceived rq hdr) s = .next t ∧ t.answeredOnly s rq .ok ∧ t.sent = [] ∧
      (t.ctx rq.ctx).step.clears = ((s.ctx rq.ctx).step.clears.filter fun x => x ≠ (rq.source, hdr)) ++ [(rq.source, hdr)]) ∧
  (∀ (rq : Req) (entry : BitVec 16) (step : Word) (s : State), s.reaches rq false = true → (s.ctx rq.ctx).life.stepRoot = true →
    s.openAtt rq.ctx = none → (s.ctx rq.ctx).esc.curSeq = 0 →
    ∃ t, exec (.divergentNoteReceived rq entry step) s = .next t ∧ t.answeredOnly s rq .ok ∧
      (t.ctx rq.ctx).step.divergent = some (match (s.ctx rq.ctx).step.divergent with
        | some d => if step.toNat < d.toNat then step else d
        | none => step)) ∧
  (∀ (rq : Req) (hdr : AttHdr) (g : BitVec 5) (ms : List (BitVec 12 × BitVec 16)) (s : State), s.reaches rq false = true →
    (s.ctx rq.ctx).life.st = .active → (s.ctx rq.ctx).step.released = hdr.step - 1 → s.entriesOf rq.ctx = [] →
    s.trees rq.ctx = [] → (s.ctx rq.ctx).clr.held = [] →
    ∃ t, exec (.releaseReceived rq hdr g ms none) s = .next t ∧ (t.ctx rq.ctx).step.released = hdr.step) ∧
  (∀ (rq : Req) (hdr : AttHdr) (g : BitVec 5) (ms : List (BitVec 12 × BitVec 16)) (k : Option CkptTag) (s : State),
    s.reaches rq false = true → (s.ctx rq.ctx).life.st ≠ .active → (s.ctx rq.ctx).life.st ≠ .quiesced →
    exec (.releaseReceived rq hdr g ms k) s = .next (s.begin.answer rq .ok)) ∧
  (∀ (rq : Req) (hdr : AttHdr) (seg : BitVec 12) (data : Bytes) (tr : GroupTree) (s : State), s.reachesQuiet rq = true →
    (s.trees rq.ctx).find? (fun t => t.defn.group.setWidth 5 = (s.seg rq.ctx seg.toNat).group) = some tr →
    (s.seg rq.ctx seg.toNat).elements ≠ 0 → tr.parent = some rq.source →
    (s.seg rq.ctx seg.toNat).rounds.find? (fun r => r.step = hdr.step && r.attempt = hdr.attempt) = none →
    hdr.step = (s.ctx rq.ctx).step.released + 1 →
    exec (.downwardBlockReceived rq hdr seg data) s = .next (s.begin.modCtx rq.ctx fun c => { c with clr.held := c.clr.held ++
      [{ up := false, seg := seg, child := rq.source, hdr := hdr, data := data, stamp := 0 }] })) ∧
  (∀ (x : Fin 16) (step : Word) (seg : BitVec 12) (c p : Nat) (node : BitVec 16) (r : Round) (tr : GroupTree) (s : State),
    (s.seg x seg.toNat).rounds.find? (fun r => r.step = step) = some r → s.portOfNode x node = some p →
    (s.trees x).find? (fun t => t.defn.group.setWidth 5 = (s.seg x seg.toNat).group) = some tr →
    c < State.chunkCount (s.seg x seg.toNat) → (s.receivers x tr.defn).contains node = true → r.delivered.contains (node, c) = false →
    (State.chunkBlocks (s.seg x seg.toNat) c).all (fun b => (r.blocks.map Prod.fst).contains b) = true →
    ∃ t r', exec (.resultDelivery x step seg c node) s = .next t ∧
      (t.seg x seg.toNat).rounds.find? (fun r => r.step = step) = some r' ∧ r'.delivered = r.delivered ++ [(node, c)] ∧
      ∃ m ∈ t.sent, m.dest = .yobel (State.trayFin p) ∧ m.op = .wrc ∧
        m.data = r.bytes.read (1048576 * c * resultBytes (s.seg x seg.toNat).rfmt.toNat)
          (min (s.seg x seg.toNat).elements.toNat (1048576 * (c + 1)) * resultBytes (s.seg x seg.toNat).rfmt.toNat -
            1048576 * c * resultBytes (s.seg x seg.toNat).rfmt.toNat))

/-- O25. At a group's effective deadline a node whose inputs are all in passes judgement and nothing else changes; one with
a late input, not yet done with the group, voids the OPEN attempt for the deadline and counts the late inputs. At the report
deadline the step root, not waiting for lag, voids the OPEN attempt when another group's report is late. A VOID of an OPEN
attempt (at the step root: not a runtime request) leaves the attempt VOIDED with the cause and counts it; a VOID for the
attempt of the step awaited next is held. (R44, R48, R95, R96, R101, R102) -/
def Obligations.DeadlinesAndVoids : Prop :=
  (∀ (c : Fin 16) (g : BitVec 5) (a : Attempt) (tr : GroupTree) (s : State), s.openAtt c = some a →
    (s.trees c).find? (fun t => t.defn.group.setWidth 5 = g) = some tr → (s.ctx c).clr.judged.contains g = false →
    (s.allSent c tr = true ∨ (s.lateInputs c a tr = [] ∧ s.pairsAgree c g = true)) →
    exec (.effectiveDeadline c g) s = .next (s.begin.modCtx c fun x => { x with clr.judged := x.clr.judged ++ [g] })) ∧
  (∀ (c : Fin 16) (g : BitVec 5) (a : Attempt) (tr : GroupTree) (s : State), s.openAtt c = some a →
    (s.trees c).find? (fun t => t.defn.group.setWidth 5 = g) = some tr → (s.ctx c).clr.judged.contains g = false →
    s.allSent c tr = false → s.lateInputs c a tr ≠ [] →
    ∃ t v, exec (.effectiveDeadline c g) s = .next t ∧ t.openAtt c = none ∧ t.newestAtt c = some v ∧ v.phase = .voided ∧
      v.cause = 1 ∧ v.origin = (s.ctx c).life.self ∧ v.step = a.step ∧ v.attempt = a.attempt ∧
      t.clr.late = satAdd s.clr.late (s.lateInputs c a tr).length ∧
      (t.ctx c).step.voids = satInc (s.ctx c).step.voids) ∧
  (∀ (c : Fin 16) (a : Attempt) (s : State), s.openAtt c = some a → (s.ctx c).life.stepRoot = true →
    (s.ctx c).step.lagWait = false →
    ((s.ctx c).clr.groups.filter fun t => t.root ≠ (s.ctx c).life.self &&
      !(s.ctx c).clr.reports.any fun r => r.1 = t.defn.group.setWidth 5 &&
        decide (r.2.1 < State.nsStamp (Machine.reportDeadline a (s.ctx c).clr.groups))) ≠ [] →
    ∃ t v, exec (.reportDeadline c) s = .next t ∧ t.openAtt c = none ∧ t.newestAtt c = some v ∧ v.phase = .voided ∧ v.cause = 1 ∧
      v.step = a.step ∧ v.attempt = a.attempt) ∧
  (∀ (rq : Req) (hdr : AttHdr) (cause : BitVec 4) (origin : BitVec 16) (segs : List SegReport) (a : Attempt) (s : State),
    s.reaches rq false = true → s.findAtt rq.ctx hdr.step hdr.attempt = some a → a.phase = .opened →
    ((s.ctx rq.ctx).life.stepRoot = false ∨ cause ≠ 3) →
    ∃ t v, exec (.voidReceived rq hdr cause origin segs) s = .next t ∧
      t.findAtt rq.ctx hdr.step hdr.attempt = some v ∧ v.phase = .voided ∧ v.cause = cause ∧ v.origin = origin ∧
      (t.ctx rq.ctx).step.voids = satInc (s.ctx rq.ctx).step.voids) ∧
  (∀ (rq : Req) (hdr : AttHdr) (cause : BitVec 4) (origin : BitVec 16) (segs : List SegReport) (s : State),
    s.reaches rq false = true → s.findAtt rq.ctx hdr.step hdr.attempt = none → hdr.step = (s.ctx rq.ctx).step.released + 1 →
    (s.ctx rq.ctx).clr.heldVoids.any (fun v => v.1 = hdr) = false →
    ∃ t, exec (.voidReceived rq hdr cause origin segs) s = .next t ∧ t.answeredOnly s rq .ok ∧ t.sent = [] ∧
      (t.ctx rq.ctx).clr.heldVoids = (s.ctx rq.ctx).clr.heldVoids ++ [(hdr, cause, origin, rq.source, segs)] ∧
      (t.ctx rq.ctx).step = (s.ctx rq.ctx).step)

/-- O26. A unit's detected error is counted and recorded as HRT-010 and nothing else changes, until the third in a row for
one operation: that resets the hearth; a SerDes lane counts its errors in the same way, and its third in a row retrains its
port. A hearth reset (R16, RST_HRT_CMD, a task not released) with no attempt open here counts in RST_COUNT0 and leaves the
hearth in its reset, its engine empty; one that was active hands its role to the region's spare. RST_HRT_CMD of a failed
hearth answers NACK_ACCESS. A reset hearth whose structural test passes becomes the spare where sixteen work, active
otherwise (the model's reading of R17 and R18); one whose test fails, or whose reset takes 100 us, is failed; the other
hearths stay as they are. (R16, R17, R18, R375, R376, R386) -/
def Obligations.UnitsAndHearths : Prop :=
  (∀ (h : Fin 68) (unit : Fin 16) (op : Word) (adding : List ChunkRef) (s : State), (s.hearth h).role ≠ .failed →
    (Map.get (0, 0) (s.hearth h).ops unit = (op, 0) ∨ Map.get (0, 0) (s.hearth h).ops unit = (op, 1) ∨
      (Map.get (0, 0) (s.hearth h).ops unit).1 ≠ op) →
    ∃ ops, exec (.unitErrorDetected (.hearth h) unit op adding) s = .next ((s.begin.modHearth h fun x =>
      { x with unitErrs := Map.mod 0 x.unitErrs unit (· + 1), ops := ops }).event 3 10 (evSource 2 h))) ∧
  (∀ (h : Fin 68) (unit : Fin 16) (op : Word) (adding : List ChunkRef) (s : State), (s.hearth h).role ≠ .failed →
    Map.get (0, 0) (s.hearth h).ops unit = (op, 2) → (∀ n : Fin 16, s.openAtt n = none) →
    ∃ t, exec (.unitErrorDetected (.hearth h) unit op adding) s = .next t ∧ t.resetHearthOf s h) ∧
  (∀ (p : Fin 25) (unit : Fin 16) (op : Word) (adding : List ChunkRef) (s : State),
    (State.detectedAgain (Map.get (0, 0) s.die.laneOps (portLane p + unit.val)) op).2 < 3 →
    ∃ ops, exec (.unitErrorDetected (.port p) unit op adding) s = .next ({ s.begin with
      die.laneErrs := Map.mod 0 s.die.laneErrs (portLane p + unit.val) (· + 1), die.laneOps := ops }.event 3 10
        (evSource 8 (portLane p + unit.val)))) ∧
  (∀ (p : Fin 25) (unit : Fin 16) (op : Word) (adding : List ChunkRef) (s : State), s.portUp p = true → s.isSpillPeer p = false →
    Map.get (0, 0) s.die.laneOps (portLane p + unit.val) = (op, 2) →
    ∃ t, exec (.unitErrorDetected (.port p) unit op adding) s = .next t ∧ (t.port p).state = .training ∧
      t.die.hearths = s.die.hearths ∧ t.ctxs = s.ctxs) ∧
  (∀ (rq : Req) (h : Fin 68) (seq : BitVec 16) (adding : List ChunkRef) (s : State), s.served rq false .both = true →
    seq ≠ s.rst.hrtActed → (s.hearth h).role ≠ .failed → (∀ n : Fin 16, s.openAtt n = none) →
    ∃ t, exec (.hearthResetCmd rq (BitVec.ofNat 7 h) seq adding) s = .next t ∧ t.resetHearthOf s h ∧ t.answeredOnly s rq .ok ∧
      t.rst.hrtActed = seq) ∧
  (∀ (rq : Req) (h : Fin 68) (seq : BitVec 16) (adding : List ChunkRef) (s : State), s.served rq false .both = true →
    seq ≠ s.rst.hrtActed → (s.hearth h).role = .failed →
    ∃ t, exec (.hearthResetCmd rq (BitVec.ofNat 7 h) seq adding) s = .next t ∧ t.answeredOnly s rq .nackAccess ∧ t.die = s.die) ∧
  (∀ (h : Fin 68) (adding : List ChunkRef) (s : State), (s.hearth h).role ≠ .failed → (∀ n : Fin 16, s.openAtt n = none) →
    ∃ t, exec (.taskReleaseTimeout h adding) s = .next t ∧ t.resetHearthOf s h ∧ t.answers = []) ∧
  (∀ (h : Fin 68) (s : State), (s.hearth h).role = .resetting →
    ∃ t, exec (.hearthResetTimeout h) s = .next t ∧ (t.hearth h).role = .failed ∧ (∀ k, k ≠ h.val → t.hearth k = s.hearth k) ∧
      t.ctxs = s.ctxs ∧ t.mir = s.mir ∧ t.answers = []) ∧
  (∀ (h : Fin 68) (s : State), (s.hearth h).role = .resetting →
    ∃ t, exec (.structuralTestDone h false) s = .next t ∧ (t.hearth h).role = .failed ∧
      (∀ k, k ≠ h.val → t.hearth k = s.hearth k) ∧ t.ctxs = s.ctxs ∧ t.mir = s.mir) ∧
  (∀ (h : Fin 68) (s : State), (s.hearth h).role = .resetting →
    exec (.structuralTestDone h true) s = .next (s.begin.setHearth h { s.hearth h with
      testing := false, role := if (s.hearthsIn (h / 17) .active).length + (s.hearthsIn (h / 17) .outgoing).length < 16
        then .active else .spare }))

/-- O27. The first supervisor channel that disagrees goes out of service with SUP-001 and a failure signature; a second one,
and every fatal die-level error while the pilot rail is up, begins a package recovery: a kindling of kind 4 with its
RECOVERY_CAUSE, RECOVERIES counted; in a kindling an error of the supervisor, the vault or the ROM fails it with its REASON
instead. A failed HBM stack, with no context, entry or waiting activation here, has no clean page left and is out of
service; every other stack gives mirror pages and may gain escrow pages; a copy of the shard ledger on it is rebuilt on
another stack when one of another region than the survivor's works. The end of a rebuild clears TABLE_REBUILD. (R15, R20,
R21, R108, R113, R261, R354, R364, R386) -/
def Obligations.SupervisorDieAndStacks : Prop :=
  (∀ (i : Fin 3) (s : State), s.die.sup = [] →
    ∃ t, exec (.supervisorDisagree i) s = .next t ∧ t.die = { s.die with sup := Map.set false [] i true } ∧
      t.kin = s.kin ∧ t.tst.signatures.getLast?.map (fun g => (g.unit, g.time)) =
        some (({ cls := 3, index := BitVec.ofNat 8 i } : UnitRef), s.now) ∧
      t.tst.suspect = true ∧ t.ctxs = s.ctxs ∧ t.mir = s.mir) ∧
  (∀ (i j : Fin 3) (s : State), s.die.sup = [(j.val, true)] → i ≠ j → s.kin.power ≠ .kindling →
    ∃ t, exec (.supervisorDisagree i) s = .next t ∧ t.enteredFrom s 4 ∧ t.rst.recoveryCause = 1 ∧
      t.rst.recoveries = satInc s.rst.recoveries) ∧
  (∀ (cause : Fin 4) (s : State), s.kin.power ≠ .off → s.kin.power ≠ .railLost → (s.kin.power = .kindling → cause = 1) →
    ∃ t, exec (.fatalDieError cause) s = .next t ∧ t.enteredFrom s 4 ∧
      t.rst.recoveryCause = BitVec.ofNat 8 (cause + 1) ∧ t.rst.recoveries = satInc s.rst.recoveries) ∧
  (∀ (cause : Fin 4) (s : State), s.kin.power = .kindling → cause ≠ 1 → s.kin.fails.toNat < 2 →
    ∃ t, exec (.fatalDieError cause) s = .next t ∧ t.kin.power = .retryWait ∧ t.kin.fails = s.kin.fails + 1 ∧
      t.kin.reason = (if cause = 0 then 10 else if cause = 2 then 3 else 4) ∧ t.pwr.enSerdes = false) ∧
  (∀ (i : Fin 8) (s : State), (s.hbm i).failed = false → s.ctxs = [] → s.mir.entries = [] → s.alc.waiters = [] →
    ∃ t, exec (.hbmStackFail i) s = .next t ∧ (t.hbm i).failed = true ∧ (t.hbm i).cleanMirror = 0 ∧ (t.hbm i).cleanEscrow = 0 ∧
      (∀ k, k ≠ i.val → (t.hbm k).failed = (s.hbm k).failed ∧ (t.hbm k).cleanMirror ≤ (s.hbm k).cleanMirror ∧
        (s.hbm k).cleanEscrow ≤ (t.hbm k).cleanEscrow ∧
        (t.hbm k).cleanMirror + (t.hbm k).cleanEscrow ≤ (s.hbm k).cleanMirror + (s.hbm k).cleanEscrow) ∧
      (s.mir.stackA.toNat = i.val → (∃ k, k < 8 ∧ k ≠ i.val ∧ (s.hbm k).failed = false ∧ k / 2 ≠ s.mir.stackB.toNat / 2) →
        t.mir.rebuild = true ∧ t.mir.stackA.toNat ≠ i.val ∧ t.mir.stackA.toNat / 2 ≠ t.mir.stackB.toNat / 2 ∧
        t.mir.stackB = s.mir.stackB)) ∧
  (∀ s : State, exec .tableRebuildDone s = .next { s.begin with mir.rebuild := false })

/-- O28. A region that the image lets gate goes off when it holds no page and no work, and is prepared (GATING) otherwise;
one the image does not name stays as it is. A hearth with no run and no test, idle for GATE_IDLE, in a region where nothing
is predicted within 400 ns, is clock-gated, one with a run is not. A PLL stops, warm or cold, when its region has no work
and nothing is predicted in 50 us or 10 ms. At a step boundary a region in preparation also loses its root staging and
escrow pages. A wake clears the hearth's gate, runs the PLL, or takes the region out of gating: a region that was off is
then on, or waking while its spare is tested; the work that came before the wake is counted in LATE_WAKES. (R19, R258, R281,
R285) -/
def Obligations.GatingAndWaking : Prop :=
  (∀ (q : Fin 4) (s : State), s.kin.img.gateRegions.getLsbD q = true →
    ((s.region q).power = .on ∨ (s.region q).power = .gating) →
    (s.regionPages q = 0 → s.regionBusy q = false → exec (.regionPowerGate q) s = .next (s.begin.modRegion q fun r =>
      { r with power := .off, gatedAt := some s.now })) ∧
    (s.regionPages q ≠ 0 ∨ s.regionBusy q = true → s.stepBoundary = false → exec (.regionPowerGate q) s =
      .next (s.begin.modRegion q fun r => { r with power := .gating })) ∧
    (s.regionPages q ≠ 0 ∨ s.regionBusy q = true → ∃ t, exec (.regionPowerGate q) s = .next t ∧ (t.region q).power = .gating ∧
      t.mir.entries = s.mir.entries ∧ t.answers = [] ∧ t.sent = [])) ∧
  (∀ (q : Fin 4) (s : State), s.kin.img.gateRegions.getLsbD q = false → exec (.regionPowerGate q) s = .next s.begin) ∧
  (∀ (h : Fin 68) (s : State), (s.engine h).running = false → (s.engine h).finished = false → (s.hearth h).testing = false →
    s.outside (s.hearth h).idleSince (100 * s.alc.gateIdle.toNat) = true → s.quietFor (h / 17) 400 = true →
    exec (.hearthClockGate h) s = .next (s.begin.setHearth h { s.hearth h with gated := true })) ∧
  (∀ (h : Fin 68) (s : State), ((s.engine h).running = true ∨ s.quietFor (h / 17) 400 = false) →
    exec (.hearthClockGate h) s = .next s.begin) ∧
  (∀ (q : Fin 4) (cold : Bool) (s : State), s.regionBusy q = false →
    s.quietFor q (if cold then 10000000 else 50000) = true →
    exec (.pllStop q cold) s = .next (s.begin.setRegion q { s.region q with pll := if cold then .cold else .warm })) ∧
  (∀ (h : Fin 68) (late : Nat) (s : State),
    exec (.resourceWake (.hearth h) late) s = .next ({ s.begin with alc.lateWakes := satAdd s.alc.lateWakes late }.setHearth h
      { s.hearth h with gated := false })) ∧
  (∀ (q : Fin 4) (late : Nat) (s : State),
    exec (.resourceWake (.pll q) late) s = .next ({ s.begin with alc.lateWakes := satAdd s.alc.lateWakes late }.setRegion q
      { s.region q with pll := .running })) ∧
  (∀ (q : Fin 4) (late : Nat) (s : State), (s.region q).power = .off →
    ∃ t, exec (.resourceWake (.region q) late) s = .next t ∧ ((t.region q).power = .on ∨ (t.region q).power = .waking) ∧
      ((t.region q).power = .waking → (t.region q).testing = true) ∧ t.alc.lateWakes = satAdd s.alc.lateWakes late ∧
      (∀ k, k ≠ q.val → t.region k = s.region k))

/-- O29. RESET by a charter endpoint of its own context (cause 1) or from a management path (cause 2), and the watchdog
(cause 3), reset a context that is not EMPTY or WIPING and has no entry, binding or pair here: its epoch rises by 1,
RST_CTX_LAST holds the context, the cause and whether it counts, CTX_RESETS is counted, and the context is WIPING or, with
no dirty page, EMPTY. An endpoint that names another context gets NACK_ACCESS; a reset of an EMPTY context answers OK and
changes no context. The first reset note for a node and an epoch voids the step root's open attempt with NODE_RESET and the
node as origin; a later one changes nothing. (R370, R374, R375, R378, R380, R385, R386) -/
def Obligations.ContextResets : Prop :=
  (∀ (rq : Req) (c : Fin 16) (seq : BitVec 16) (s : State), s.served rq false .both = true → seq ≠ s.rst.ctxCmdActed →
    (State.management rq = true ∨ rq.ctx = c) → s.bareContext c = true → (s.ctx c).life.waitReq = none →
    ∃ t, exec (.ctxReset rq c seq) s = .next t ∧ t.answeredOnly s rq .ok ∧ t.rst.ctxCmdActed = seq ∧
      t.resetContextOf s c (if State.management rq then 2 else 1)) ∧
  (∀ (rq : Req) (c : Fin 16) (seq : BitVec 16) (s : State), s.served rq false .both = true → State.management rq = false →
    rq.ctx ≠ c → exec (.ctxReset rq c seq) s = .next (s.begin.answer rq .nackAccess)) ∧
  (∀ (rq : Req) (c : Fin 16) (seq : BitVec 16) (s : State), s.served rq false .both = true →
    (State.management rq = true ∨ rq.ctx = c) → ((s.ctx c).life.st = .empty ∨ (s.ctx c).life.st = .wiping) →
    ∃ t, exec (.ctxReset rq c seq) s = .next t ∧ t.answeredOnly s rq .ok ∧ t.ctxs = s.ctxs ∧ t.rst.ctxResets = s.rst.ctxResets) ∧
  (∀ (c : Fin 16) (task : Fin 6) (item : BitVec 32) (s : State), (s.ctx c).wd.armed = true → s.rst.mpdUp = true →
    ((s.ctx c).life.st = .active ∨ (s.ctx c).life.st = .quiesced ∨ (s.ctx c).life.st = .evicting) → s.bareContext c = true →
    (s.ctx c).life.waitReq = none → (∀ b, s.rst.mpdBack = some b → s.outside b ((s.ctx c).wd.limit.toNat * 1000000) = true) →
    ∃ t, exec (.watchdogExpiry c task item) s = .next t ∧ t.resetContextOf s c 3) ∧
  (∀ (c : Fin 16) (task : Fin 6) (item : BitVec 32) (s : State), s.rst.mpdUp = false →
    exec (.watchdogExpiry c task item) s = .next s.begin) ∧
  (∀ (rq : Req) (node : BitVec 16) (ep : BitVec 32) (a : Attempt) (s : State), s.reaches rq false = true →
    (s.ctx rq.ctx).life.stepRoot = true → (s.ctx rq.ctx).step.resetNotes.contains (node, ep) = false →
    s.openAtt rq.ctx = some a →
    ∃ t v, exec (.resetNoteReceived rq node ep) s = .next t ∧ t.answeredOnly s rq .ok ∧ t.openAtt rq.ctx = none ∧
      t.newestAtt rq.ctx = some v ∧ v.phase = .voided ∧ v.cause = 7 ∧ v.origin = node ∧
      (t.ctx rq.ctx).step.resetNotes = (s.ctx rq.ctx).step.resetNotes ++ [(node, ep)]) ∧
  (∀ (rq : Req) (node : BitVec 16) (ep : BitVec 32) (s : State), s.reaches rq false = true →
    (s.ctx rq.ctx).step.resetNotes.contains (node, ep) = true →
    exec (.resetNoteReceived rq node ep) s = .next (s.begin.answer rq .ok))

/-- O30. A heartbeat is noted while the firmware runs. Without one for 1 s the MPD alone restarts: its restarts are counted,
its tally rises, RST-020 is recorded, and no context changes. Its return is noted; a return that does not come within 2 s
begins a package recovery with cause 5. (R377, R386, R393) -/
def Obligations.FirmwareRestarts : Prop :=
  (∀ s : State, s.rst.mpdUp = true → exec .mpdHeartbeat s = .next { s.begin with rst.lastBeat := some s.now }) ∧
  (∀ s : State, s.rst.mpdUp = true → (∀ b, s.rst.lastBeat = some b → s.outside b second = true) →
    ∃ t, exec .mpdHeartbeatTimeout s = .next t ∧ t.rst.mpdUp = false ∧ t.rst.mpdRestarts = satInc s.rst.mpdRestarts ∧
      t.tally 10 = satInc (s.tally 10) ∧ t.ctxs = s.ctxs ∧ t.tim = s.tim ∧ t.mir = s.mir ∧ t.ports = s.ports) ∧
  (∀ (b : Word) (s : State), s.rst.lastBeat = some b → s.outside b second = false →
    exec .mpdHeartbeatTimeout s = .next s.begin) ∧
  (∀ s : State, s.rst.mpdUp = false →
    exec .mpdRestartDone s = .next { s.begin with rst.mpdUp := true, rst.lastBeat := some s.now, rst.mpdBack := some s.now }) ∧
  (∀ s : State, s.rst.mpdUp = false → (∀ b, s.rst.lastBeat = some b → s.outside b (2 * second) = true) →
    ∃ t, exec .mpdRestartTimeout s = .next t ∧ t.enteredFrom s 4 ∧ t.rst.recoveryCause = 5)

/-- O31. ENTER with every context EMPTY puts Azard out of service with cause 4, held in tally 30, drained and flagged for
replacement at once. With contexts that are ACTIVE, QUIESCED or EMPTY, each ACTIVE or QUIESCED one goes EVICTING and an
EMPTY one stays. At RST_EVICT_END, with no shard entry here, every EVICTING context is WIPING or EMPTY and the register
reads 0; before it nothing changes. A drained Azard gives a request on a link no answer (the model's reading of what it no
longer carries, log entry 104). (R334, R381, R382, R386, R393) -/
def Obligations.OutOfService : Prop :=
  (∀ (rq : Req) (seq : BitVec 16) (s : State), s.served rq false .both = true → seq ≠ s.rst.oosActed → s.rst.oos = false →
    s.rst.drained = false → s.allEmpty = true →
    ∃ t, exec (.oosEnter rq seq) s = .next t ∧ t.answeredOnly s rq .ok ∧ t.rst.oos = true ∧ t.rst.oosCause = 4 ∧
      t.rst.drained = true ∧ t.tst.flagged = true ∧ t.rst.oosActed = seq ∧ t.ctxs = s.ctxs ∧ t.tally 30 = 0x104) ∧
  (∀ (rq : Req) (seq : BitVec 16) (s : State), s.served rq false .both = true → seq ≠ s.rst.oosActed → s.rst.oos = false →
    (∀ n : Fin 16, ((s.ctx n).life.st = .active ∨ (s.ctx n).life.st = .quiesced ∨ (s.ctx n).life.st = .empty) ∧
      (s.ctx n).life.waitReq = none) →
    ∃ t, exec (.oosEnter rq seq) s = .next t ∧ t.answeredOnly s rq .ok ∧ t.rst.oos = true ∧ t.rst.oosCause = 4 ∧
      ∀ n : Fin 16, (t.ctx n).life.st = (if (s.ctx n).life.st = .empty then .empty else .evicting)) ∧
  (∀ s : State, s.rst.evictEnd ≠ 0 → s.rst.evictEnd.toNat ≤ s.now.toNat → s.mir.entries = [] →
    ∃ t, exec .evictionEnd s = .next t ∧ t.rst.evictEnd = 0 ∧
      ∀ n : Fin 16, (s.ctx n).life.st = .evicting → (t.ctx n).life.st = .wiping ∨ (t.ctx n).life.st = .empty) ∧
  (∀ s : State, s.now.toNat < s.rst.evictEnd.toNat → exec .evictionEnd s = .next s.begin) ∧
  (∀ (p : Fin 25) (rq : Req) (off len : Nat) (s : State), rq.path = .port p → s.kin.power = .ready → s.rst.drained = true →
    exec (.mirrorWindowRd rq off len) s = .next s.begin)

/-- O32. A CLEAR with a fresh SEQ and every context EMPTY leaves Azard in service, not drained, the list of counting resets
empty, every tally but the out-of-service one (30) unchanged, among them the flags for replacement (26, 32-63), and event
RST-032 recorded; with a context that is not EMPTY it answers NACK_ACCESS and Azard stays as it was. (R383) -/
def Obligations.ClearReturnsToService : Prop :=
  (∀ (rq : Req) (seq : BitVec 16) (s : State), s.served rq false .both = true → seq ≠ s.rst.oosActed → s.allEmpty = true →
    ∃ t, exec (.oosClear rq seq) s = .next t ∧ t.answeredOnly s rq .ok ∧ t.rst.oos = false ∧ t.rst.drained = false ∧
      t.rst.counting = [] ∧ (∀ i, i ≠ 30 → t.tally i = s.tally i) ∧
      (∃ u : State, u.now = s.now ∧ t.evr = (u.event 19 32 0).evr ∧ u.evr.opened = s.evr.opened ∧ u.evr.stored = s.evr.stored ∧
        u.evr.queue = s.evr.queue ∧ u.evr.nextSeq = s.evr.nextSeq)) ∧
  (∀ (rq : Req) (seq : BitVec 16) (s : State), s.served rq false .both = true → seq ≠ s.rst.oosActed → s.allEmpty = false →
    ∃ t, exec (.oosClear rq seq) s = .next t ∧ t.answeredOnly s rq .nackAccess ∧ t.rst.oos = s.rst.oos ∧
      t.rst.drained = s.rst.drained ∧ t.rst.oosCause = s.rst.oosCause ∧ t.rst.counting = s.rst.counting ∧ t.evr = s.evr)

/-- O33. An endpoint's aligned RD within an entry of its range answers the entry's bytes. Its WR of one runtime word of a
FREE entry stores that word's fields and changes nothing else of the entry; a WR of a runtime word in an entry that is
neither FREE nor of a QUIESCED context, or of a word that Azard alone writes, answers NACK_ACCESS; a WRC, FADD or SWAP
likewise. A requester that is no endpoint, or an index outside the range, gets NACK_ACCESS. A CAS on CLAIM with the right
compare value and a larger new one sets CLAIM and answers the old one, and fences a LIVE entry (no vote pending); with
another compare value it answers the claim held, with one not larger NACK_CLAIM, on a RETIRING entry NACK_ACCESS, each
without effect. A RETIRING entry with no dirty page here or at its partner is FREE with every field 0. (R109, R110, R111,
R114, R117, R220, R221) -/
def Obligations.LedgerReadsWritesAndClaims : Prop :=
  (∀ (rq : Req) (e : BitVec 16) (b len : Nat) (s : State), s.ledgerAt rq e.toNat = true → b % 8 = 0 → len % 8 = 0 → b < 256 →
    b + len ≤ 256 →
    exec (.shardLedgerWr rq .rd (e.toNat * 256 + b) len []) s =
      .next (s.begin.touchEntry.answer rq .ok 0 ((entryBytes { s.entry e.toNat with ctx := BitVec.ofNat 4 rq.ctx }).drop b |>.take len))) ∧
  (∀ (rq : Req) (e : BitVec 16) (v : Word) (w : Nat) (s : State), s.ledgerAt rq e.toNat = true → (s.entry e.toNat).st = .free →
    runtimeWord w = true →
    exec (.shardLedgerWr rq .wr (e.toNat * 256 + 8 * w) 8 (natLe 8 v.toNat)) s =
      .next ((s.begin.touchEntry.setEntry e.toNat
        { (match w with
          | 2 => { s.entry e.toNat with shardId := v }
          | 3 => { s.entry e.toNat with length := v.extractLsb' 0 40 }
          | 4 => { s.entry e.toNat with owner := v.extractLsb' 32 16, partner := v.extractLsb' 48 16 }
          | 5 => { s.entry e.toNat with windowBase := v.extractLsb' 32 19 }
          | 7 => { s.entry e.toNat with program := v.extractLsb' 0 16, group := v.extractLsb' 16 5 }
          | 16 => { s.entry e.toNat with hyper := v }
          | _ => { s.entry e.toNat with
              segFirst := v.extractLsb' 0 12, segCount := v.extractLsb' 16 12, stream := v.extractLsb' 32 32 }) with ctx := BitVec.ofNat 4 rq.ctx }).answer rq .ok)) ∧
  (∀ (rq : Req) (e : BitVec 16) (v : Word) (w : Nat) (s : State), s.ledgerAt rq e.toNat = true → w < 32 → w ≠ 0 →
    ((s.entry e.toNat).st ≠ .free ∧ (s.ctx rq.ctx).life.st ≠ .quiesced ∨ runtimeWord w = false) →
    exec (.shardLedgerWr rq .wr (e.toNat * 256 + 8 * w) 8 (natLe 8 v.toNat)) s = .next (s.begin.touchEntry.answer rq .nackAccess)) ∧
  (∀ (rq : Req) (op : OpCode) (e : BitVec 16) (b len : Nat) (data : Bytes) (s : State), s.ledgerAt rq e.toNat = true →
    b < 256 → (op = .wrc ∨ op = .fadd ∨ op = .swap) →
    exec (.shardLedgerWr rq op (e.toNat * 256 + b) len data) s = .next (s.begin.touchEntry.answer rq .nackAccess)) ∧
  (∀ (rq : Req) (op : OpCode) (e : BitVec 16) (b len : Nat) (data : Bytes) (s : State), s.reachesByPort rq = true → b < 256 →
    (s.endpoint rq = false ∨ e.toNat < (s.ctx rq.ctx).life.charter.entryFirst ∨
      (s.ctx rq.ctx).life.charter.entryFirst + (s.ctx rq.ctx).life.charter.entryCount ≤ e.toNat) →
    exec (.shardLedgerWr rq op (e.toNat * 256 + b) len data) s = .next (s.begin.answer rq .nackAccess)) ∧
  (∀ (rq : Req) (e : BitVec 16) (cmp new : Word) (s : State), s.ledgerAt rq e.toNat = true →
    (s.entry e.toNat).st ≠ .retiring → (s.entry e.toNat).claim = cmp → cmp.toNat < new.toNat → (s.entry e.toNat).votes = [] →
    ∃ t, exec (.claimCas rq e cmp new) s = .next t ∧ t.answeredOnly s rq .ok 0 (natLe 8 cmp.toNat) ∧
      (t.entry e.toNat).claim = new ∧ t.entryOnly s e.toNat ∧
      (t.entry e.toNat).st = (if (s.entry e.toNat).st = .live ∧ (s.entry e.toNat).role = false then .fenced else (s.entry e.toNat).st)) ∧
  (∀ (rq : Req) (e : BitVec 16) (cmp new : Word) (s : State), s.ledgerAt rq e.toNat = true →
    ((s.entry e.toNat).st = .retiring → exec (.claimCas rq e cmp new) s = .next (s.begin.touchEntry.answer rq .nackAccess)) ∧
    ((s.entry e.toNat).st ≠ .retiring → (s.entry e.toNat).claim ≠ cmp →
      exec (.claimCas rq e cmp new) s = .next (s.begin.touchEntry.answer rq .ok 0 (natLe 8 (s.entry e.toNat).claim.toNat))) ∧
    ((s.entry e.toNat).st ≠ .retiring → (s.entry e.toNat).claim = cmp → new.toNat ≤ cmp.toNat →
      exec (.claimCas rq e cmp new) s = .next (s.begin.touchEntry.answer rq .nackClaim 0 (natLe 8 cmp.toNat)))) ∧
  (∀ (e : BitVec 16) (s : State), (s.entry e.toNat).st = .retiring →
    s.alc.dirty.any (fun r => r.entry = some e.toNat) = false →
    ((s.entry e.toNat).peerFree = true ∨ (s.entry e.toNat).degradedP = true) →
    ∃ t, exec (.entryWipeDone e) s = .next t ∧ t.entry e.toNat = {} ∧ t.entryOnly s e.toNat ∧ t.ctxs = s.ctxs)

/-- O34. A request under a fresh REQ_SEQ, with no request running on its local entry, is answered OK. DEFINE of a FREE entry
that passes R119's checks here (context CHARTERED) runs, with PAGES set and the partner asked; one that fails a check gives
that check's RESULT. FILL from YOBEL or WINDOW of a DEFINED entry, and from MIRROR of a FENCED one, make it FILLING (that a
WINDOW fill's request is DONE at once is the model's choice, log entry 41); from RESTORE with a checkpoint selected it asks
the owner's flue target for the manifest. SEAL of a filled window raises VERSION by 1. REMIRROR of a lost partner copy names
the new partner as peer. DROP_PARTNER (no vote pending) ends with DONE and DEGRADED_P. RETIRE leaves the entry RETIRING
without pages or bytes. A request in another entry state gives STATE, in another context state CONTEXT_STATE. (R115, R116,
R117, R119, R120, R130, R131, R138, R216, R231) -/
def Obligations.ShardRequestsChangeTheEntry : Prop :=
  (∀ (rq : Req) (e seq : BitVec 16) (s : State), s.ledgerReq rq e.toNat seq = true → (s.entry e.toNat).st = .free →
    (s.ctx rq.ctx).life.st = .chartered → s.defineCheck rq.ctx e.toNat = none →
    ∃ t, exec (.defineEntry rq e seq none) s = .next t ∧ t.answeredOnly s rq .ok ∧ (t.entry e.toNat).result = 1 ∧
      (t.entry e.toNat).st = .free ∧ (t.entry e.toNat).pages.toNat = State.pagesFor (s.entry e.toNat).length ∧
      (t.entry e.toNat).peer = (s.entry e.toNat).partner ∧ (t.entry e.toNat).seqActed = some seq ∧ t.entryOnly s e.toNat ∧
      t.sent.map (fun m => (m.dest, m.kind)) = [(.node (ctxFin rq.ctx) (s.entry e.toNat).partner, 0x20)]) ∧
  (∀ (rq : Req) (e seq : BitVec 16) (r : Nat) (s : State), s.ledgerReq rq e.toNat seq = true → (s.entry e.toNat).st = .free →
    (s.ctx rq.ctx).life.st = .chartered → s.defineCheck rq.ctx e.toNat = some r →
    ∃ t, exec (.defineEntry rq e seq none) s = .next t ∧ t.answeredOnly s rq .ok ∧
      (t.entry e.toNat).result = BitVec.ofNat 8 r ∧ (t.entry e.toNat).st = .free ∧ t.entryOnly s e.toNat ∧ t.sent = []) ∧
  (∀ (rq : Req) (e seq : BitVec 16) (s : State), s.ledgerReq rq e.toNat seq = true → (s.entry e.toNat).st = .defined →
    (s.ctx rq.ctx).life.st = .quiesced →
    (∃ t, exec (.fillYobel rq e seq none) s = .next t ∧ t.answeredOnly s rq .ok ∧ (t.entry e.toNat).st = .filling ∧
      (t.entry e.toNat).fillSource = 0 ∧ (t.entry e.toNat).version = 1 ∧ (t.entry e.toNat).result = 1 ∧
      (t.entry e.toNat).committed = (s.ctx rq.ctx).step.released ∧ t.entryOnly s e.toNat) ∧
    (∃ t, exec (.fillWindow rq e seq none) s = .next t ∧ t.answeredOnly s rq .ok ∧ (t.entry e.toNat).st = .filling ∧
      (t.entry e.toNat).fillSource = 1 ∧ (t.entry e.toNat).version = 0 ∧ (t.entry e.toNat).result = 2 ∧
      (t.entry e.toNat).committed = (s.ctx rq.ctx).step.released ∧ t.entryOnly s e.toNat) ∧
    (∀ i node, (s.ctx rq.ctx).esc.rstSeq ≠ 0 → s.flueOf rq.ctx (s.entry e.toNat).owner = some (i, node) →
      ∃ t, exec (.fillRestore rq e seq none) s = .next t ∧ t.answeredOnly s rq .ok ∧ (t.entry e.toNat).result = 1 ∧
        (t.entry e.toNat).st = .defined ∧ t.sent = [{
          dest := .node (ctxFin rq.ctx) node, op := .rd, addr := 6 * 2 ^ 44
          args := [2, 2, e.toNat, 0, (s.ctx rq.ctx).esc.rstSeq.toNat, (s.entry e.toNat).shardId.toNat] }])) ∧
  (∀ (rq : Req) (e seq : BitVec 16) (s : State), s.ledgerReq rq e.toNat seq = true → (s.entry e.toNat).st = .fenced →
    ((s.ctx rq.ctx).life.st = .quiesced ∨ (s.ctx rq.ctx).life.st = .active) →
    ((s.entry e.toNat).degradedL = false ∨ (s.entry e.toNat).degradedP = false) →
    ∃ t, exec (.fillMirror rq e seq none) s = .next t ∧ t.answeredOnly s rq .ok ∧ (t.entry e.toNat).st = .filling ∧
      (t.entry e.toNat).fillSource = 3 ∧ (t.entry e.toNat).result = 1 ∧ (t.entry e.toNat).fillDone = 0 ∧ t.entryOnly s e.toNat) ∧
  (∀ (rq : Req) (e seq : BitVec 16) (s : State), s.ledgerReq rq e.toNat seq = true → (s.entry e.toNat).st = .filling →
    (s.entry e.toNat).fillSource = 1 → (s.ctx rq.ctx).life.st = .quiesced → (s.entry e.toNat).windowWrites = [] →
    (s.entry e.toNat).closing = .none → (s.entry e.toNat).heldPages = [] → (s.entry e.toNat).votes = [] →
    (s.entry e.toNat).repairing = [] → s.settled rq.ctx = true →
    ∃ t, exec (.sealEntry rq e seq none) s = .next t ∧ t.answeredOnly s rq .ok ∧
      (t.entry e.toNat).version = (s.entry e.toNat).version + 1 ∧ (t.entry e.toNat).sealDue = false ∧ t.entryOnly s e.toNat) ∧
  (∀ (rq : Req) (e seq : BitVec 16) (s : State), s.ledgerReq rq e.toNat seq = true → (s.entry e.toNat).st = .live →
    (s.ctx rq.ctx).life.st = .quiesced → (s.entry e.toNat).degradedL = false → (s.entry e.toNat).degradedP = true →
    s.placementBad rq.ctx (s.entry e.toNat).partner = false →
    s.partnerInGroup rq.ctx (s.entry e.toNat).group (s.entry e.toNat).partner = true →
    (s.entry e.toNat).repairing = [] → s.settled rq.ctx = true → s.remirrorReady rq.ctx e.toNat = true →
    ∃ t, exec (.remirror rq e seq none) s = .next t ∧ t.answeredOnly s rq .ok ∧ (t.entry e.toNat).result = 1 ∧
      (t.entry e.toNat).closing = .remirror ∧ (t.entry e.toNat).rebuildP = true ∧
      (t.entry e.toNat).peer = (s.entry e.toNat).partner ∧ t.entryOnly s e.toNat) ∧
  (∀ (rq : Req) (e seq : BitVec 16) (s : State), s.ledgerReq rq e.toNat seq = true →
    ((s.entry e.toNat).st = .live ∨ (s.entry e.toNat).st = .fenced ∨
      (s.entry e.toNat).st = .filling ∧ (s.entry e.toNat).fillSource ≠ 3) →
    ((s.ctx rq.ctx).life.st = .active ∨ (s.ctx rq.ctx).life.st = .quiesced ∨ (s.ctx rq.ctx).life.st = .evicting) →
    (s.entry e.toNat).votes = [] →
    ∃ t, exec (.dropPartner rq e seq none) s = .next t ∧ t.answeredOnly s rq .ok ∧ (t.entry e.toNat).degradedP = true ∧
      (t.entry e.toNat).result = 2 ∧ (t.entry e.toNat).st = (s.entry e.toNat).st ∧ t.entryOnly s e.toNat) ∧
  (∀ (rq : Req) (e seq : BitVec 16) (s : State), s.ledgerReq rq e.toNat seq = true → (s.entry e.toNat).st ≠ .free →
    (s.entry e.toNat).st ≠ .retiring → s.settled rq.ctx = true →
    ∃ t, exec (.retireEntry rq e seq none) s = .next t ∧ t.answeredOnly s rq .ok ∧ (t.entry e.toNat).st = .retiring ∧
      (t.entry e.toNat).alloc = [] ∧ (t.entry e.toNat).mem = [] ∧ t.entryOnly s e.toNat) ∧
  (∀ (rq : Req) (e seq : BitVec 16) (s : State), s.ledgerReq rq e.toNat seq = true →
    ((s.entry e.toNat).st = .live → ∃ t, exec (.defineEntry rq e seq none) s = .next t ∧ t.answeredOnly s rq .ok ∧
      (t.entry e.toNat).result = 0x11 ∧ (t.entry e.toNat).st = .live ∧ t.sent = []) ∧
    ((s.entry e.toNat).st = .defined → (s.ctx rq.ctx).life.st = .active →
      ∃ t, exec (.fillYobel rq e seq none) s = .next t ∧ t.answeredOnly s rq .ok ∧
      (t.entry e.toNat).result = 0x12 ∧ (t.entry e.toNat).st = .defined ∧ t.sent = []))

/-- O35. With all three copies in the vote and their digests in: all equal agree; the accelerator's alone different is
accelerator odd; the local one's alone, local odd; the partner's alone, partner odd; all different, no majority; with a
digest missing there is no outcome. With two copies in the vote, equal digests agree and different ones give no majority.
One copy alone gives no outcome. (R126, R130) -/
def Obligations.VotesFollowTheTable : Prop :=
  (∀ (e : Entry) (v : Vote) (y l p : Digest), yIn e v.version = true → lIn e = true → pIn e = true → v.y = some y → v.l = some l →
    v.p = some p →
    (y = l → l = p → judgeVote e v = some .agreed) ∧ (l = p → y ≠ l → judgeVote e v = some .accelOdd) ∧
    (y = p → y ≠ l → judgeVote e v = some .localOdd) ∧ (y = l → l ≠ p → judgeVote e v = some .partnerOdd) ∧
    (y ≠ l → l ≠ p → y ≠ p → judgeVote e v = some .noMajority)) ∧
  (∀ (e : Entry) (v : Vote), yIn e v.version = true → lIn e = true → pIn e = true → (v.y = none ∨ v.l = none ∨ v.p = none) →
    judgeVote e v = none) ∧
  (∀ (e : Entry) (v : Vote) (a b : Digest),
    (yIn e v.version = true → lIn e = true → pIn e = false → v.y = some a → v.l = some b →
      judgeVote e v = some (if a = b then .agreed else .noMajority)) ∧
    (yIn e v.version = true → lIn e = false → pIn e = true → v.y = some a → v.p = some b →
      judgeVote e v = some (if a = b then .agreed else .noMajority)) ∧
    (yIn e v.version = false → lIn e = true → pIn e = true → v.l = some a → v.p = some b →
      judgeVote e v = some (if a = b then .agreed else .noMajority))) ∧
  (∀ (e : Entry) (v : Vote), [yIn e v.version, lIn e, pIn e].count true ≤ 1 → judgeVote e v = none)

/-- O36. A fill from the mirrors that may start, its source at the released step and its slot DEFINED or FILLING under the
claim, starts: up to sixteen pages are outstanding. A page whose tries are used up is sent once more on retry. ENTRY_SYNC
from the other Azard of a partner entry sets its state, retires it or drops it. A forwarded claim raises the partner's. A
partner's digest under the local claim enters the page's vote, under another claim it changes nothing. An outcome sets the
partner's voted step and digest root. A page for the partner under its claim is stored and read back, under another answers
NACK_CLAIM. A digest still missing records MIR-020 for each missing copy. A window RD with the entry's claim answers the
local copy's bytes, or PAGE_UPDATING while a run is on it; a WR to a WINDOW fill stores its bytes in the local copy; any
other operation answers NACK_ACCESS, no or another claim NACK_CLAIM, a range in no shard NACK_ADDRESS. (R117, R118, R125,
R126, R134, R135, R136, R137, R222, R223, R231, R236) -/
def Obligations.MirrorTraffic : Prop :=
  (∀ (e : BitVec 16) (s : State), s.fillMayStart (s.entry e.toNat).ctx.toNat e.toNat = true → (s.entry e.toNat).degradedL = false →
    (∀ x ∈ s.mir.entries, x.1 ≠ e.toNat → x.2.fill.started = false) →
    ∃ t, exec (.fillMirrorStart e) s = .next t ∧ (t.entry e.toNat).fill.started = true ∧
      (t.entry e.toNat).fill.version = (s.entry e.toNat).version ∧
      (t.entry e.toNat).fill.next = min 16 (s.entry e.toNat).pages.toNat ∧
      (t.entry e.toNat).fill.out.length = min 16 (s.entry e.toNat).pages.toNat ∧ t.entryOnly s e.toNat ∧ t.answers = []) ∧
  (∀ (e : BitVec 16) (page tries : Nat) (k sl : Nat) (s : State), (s.entry e.toNat).st = .filling →
    (s.entry e.toNat).fillSource = 3 → (s.entry e.toNat).unrecoverable = false → (s.entry e.toNat).fill.fromPartner = false →
    (page, tries) ∈ (s.entry e.toNat).fill.out → s.mir.repairTries.toNat ≤ tries →
    s.slotOf (s.entry e.toNat).ctx.toNat e.toNat = some (k, sl) →
    ∃ t, exec (.fillPageRetry e page) s = .next t ∧ t.entry e.toNat = s.entry e.toNat ∧
      ∃ m ∈ t.sent, m.dest = .yobel (State.trayFin k) ∧ m.op = .wr ∧ m.data = State.pageBytes (s.entry e.toNat) page) ∧
  (∀ (rq : Req) (m : EntrySync) (i : Nat) (s : State), s.reaches rq false = true →
    s.findShard rq.ctx m.fields.shardId true = some i → (s.entry i).peer = rq.source → s.settled rq.ctx = true →
    (m.kind = .update → State.numState m.state ≠ .divergent → (s.entry i).st ≠ .retiring → m.src = [] →
      ∃ t, exec (.entrySyncReceived rq m) s = .next t ∧ t.answeredOnly s rq .ok ∧
        (t.entry i).st = State.numState m.state ∧ (t.entry i).fillSource = m.fillSource ∧
        (t.entry i).program = m.fields.program ∧ t.entryOnly s i) ∧
    (m.kind = .drop → ∃ t, exec (.entrySyncReceived rq m) s = .next t ∧ t.answeredOnly s rq .ok ∧
      (t.entry i).degradedP = true ∧ (t.entry i).queued = [] ∧ t.entryOnly s i) ∧
    (m.kind = .retire → (s.entry i).st ≠ .free → (s.entry i).st ≠ .retiring → ∃ t, exec (.entrySyncReceived rq m) s = .next t ∧ t.answeredOnly s rq .ok ∧
      (t.entry i).st = .retiring ∧ (t.entry i).mem = [] ∧ t.entryOnly s i)) ∧
  (∀ (rq : Req) (shard claim : Word) (i : Nat) (s : State), s.reaches rq false = true →
    s.findShard rq.ctx shard true = some i → (s.entry i).claim.toNat < claim.toNat → (s.entry i).peer = rq.source →
    ∃ t, exec (.claimFwdReceived rq shard claim) s = .next t ∧ t.answeredOnly s rq .ok ∧ (t.entry i).claim = claim ∧
      (t.entry i).digestsOut = (s.entry i).digestsOut ∧ t.sent.length = (s.entry i).digestsOut.length ∧ t.entryOnly s i) ∧
  (∀ (rq : Req) (shard : Word) (page i : Nat) (version : BitVec 32) (claim : Word) (install : Bool) (digest : Digest) (s : State),
    s.reaches rq false = true → s.findShard rq.ctx shard false = some i →
    ((s.entry i).claim ≠ claim → exec (.partnerDigestReceived rq shard page version claim install digest) s =
      .next (s.begin.answer rq .ok)) ∧
    ((s.entry i).claim = claim → (s.entry i).peer = rq.source → pIn (s.entry i) = true → page < (s.entry i).pages.toNat →
      install = false → lIn (s.entry i) = true → (s.entry i).repairing = [] →
      (s.entry i).votes.any (fun v => v.page = page && v.version = version) = false →
      ∃ t v, exec (.partnerDigestReceived rq shard page version claim install digest) s = .next t ∧ t.answeredOnly s rq .ok ∧
        (t.entry i).votes = (s.entry i).votes ++ [v] ∧ v.page = page ∧ v.version = version ∧ v.p = some digest ∧
        v.l = none ∧ v.y = none ∧ v.outcome = none)) ∧
  (∀ (rq : Req) (shard step : Word) (pages : List PageOutcome) (x : PageOutcome) (i : Nat) (s : State), s.reaches rq false = true →
    s.findShard rq.ctx shard true = some i → (s.entry i).peer = rq.source → pages.head? = some x →
    pages.Pairwise (fun a b => a.page ≤ b.page) → (∀ p ∈ pages, p.outcome ≠ .partnerOdd) → s.settled rq.ctx = true →
    ∃ t, exec (.voteOutcomeReceived rq shard step pages) s = .next t ∧ t.answeredOnly s rq .ok ∧
      (t.entry i).digestRoot = merkle (pages.map fun p => p.digest) ∧
      (t.entry i).votedStep.toNat = max (s.entry i).votedStep.toNat step.toNat ∧ t.entryOnly s i) ∧
  (∀ (rq : Req) (shard claim : Word) (page i : Nat) (version : BitVec 32) (digest : Digest) (off : Nat) (data : Bytes) (s : State),
    s.reaches rq false = true → s.findShard rq.ctx shard true = some i →
    ((s.entry i).claim ≠ claim → exec (.partnerPageReceived rq shard claim page version .window digest off data) s =
      .next (s.begin.answer rq .nackClaim)) ∧
    ((s.entry i).claim = claim → (s.entry i).heldPages = [] →
      ∃ t, exec (.partnerPageReceived rq shard claim page version .window digest off data) s = .next t ∧ t.answeredOnly s rq .ok ∧
        (t.entry i).mem.read off data.length = data ∧
        (∀ a, (a < off ∨ off + data.length ≤ a) → Mem.byte (t.entry i).mem a = Mem.byte (s.entry i).mem a) ∧
        (t.entry i).version = (s.entry i).version ∧ t.entryOnly s i)) ∧
  (∀ (e : BitVec 16) (page : Nat) (version : BitVec 32) (v : Vote) (s : State),
    (s.entry e.toNat).votes.find? (fun v => v.page = page && v.version = version && v.outcome.isNone) = some v →
    yIn (s.entry e.toNat) version = true → v.y = none → (lIn (s.entry e.toNat) = false ∨ v.l.isSome = true) →
    (pIn (s.entry e.toNat) = false ∨ v.p.isSome = true) →
    exec (.digestWaitExpiry e page version) s = .next (s.begin.record 7 20 (evSource 5 (s.entry e.toNat).ctx.toNat e.toNat) 0
      1 (BitVec.ofNat 32 page))) ∧
  (∀ (rq : Req) (x : Ext) (e : Entry) (i off len : Nat) (data : Bytes) (s : State), s.reachesByPort rq = true →
    s.endpoint rq = true → off / 2 ^ 40 % 16 = rq.ctx.val →
    (s.windowEntry rq.ctx (off % 2 ^ 40) len = none → exec (.mirrorWindowRd rq off len) s = .next (s.begin.answer rq .nackAddress)) ∧
    (s.windowEntry rq.ctx (off % 2 ^ 40) len = some (i, e) → s.entry i = e → e.role = false → rq.ext = some x →
      (x.hasClaim = false ∨ x.claim ≠ e.claim → exec (.mirrorWindowRd rq off len) s = .next (s.begin.answer rq .nackClaim)) ∧
      (x.hasClaim = true → x.claim = e.claim → (s.runOfEntry i).isSome = true →
        exec (.mirrorWindowRd rq off len) s = .next (s.begin.answer rq .nackBusy 0x12)) ∧
      (x.hasClaim = true → x.claim = e.claim → (s.runOfEntry i).isSome = false → e.degradedL = false →
        exec (.mirrorWindowRd rq off len) s = .next (s.begin.answer rq .ok 0
          (e.mem.read (off % 2 ^ 40 - e.windowBase.toNat * 2097152) len))) ∧
      (x.hasClaim = true → x.claim = e.claim → data.length = len → 0 < len → e.st = .filling → e.fillSource = 1 →
        e.closing = .none → e.degradedL = false → e.heldPages = [] →
        ∃ t, exec (.mirrorWindowWr rq .wr off data) s = .next t ∧
          (t.entry i).mem.read (off % 2 ^ 40 - e.windowBase.toNat * 2097152) len = data ∧
          (∀ a, (a < off % 2 ^ 40 - e.windowBase.toNat * 2097152 ∨ off % 2 ^ 40 - e.windowBase.toNat * 2097152 + len ≤ a) →
            Mem.byte (t.entry i).mem a = Mem.byte e.mem a) ∧ t.entryOnly s i))) ∧
  (∀ (rq : Req) (op : OpCode) (off : Nat) (data : Bytes) (s : State), s.reachesByPort rq = true → op ≠ .wr → op ≠ .rd →
    exec (.mirrorWindowWr rq op off data) s = .next (s.begin.answer rq .nackAccess))

/-- O37. The oldest step queued on a mirror copy whose group is rounded here, with no run on it and a ready hearth of one of
its regions, starts on that hearth at section PRE: every vector, tile and accumulator register 0, vl 0, s1 to s6 and s9 as
R165 says and every other scalar register 0, ECTL and ESTAT 0. A run that has ended on a partner copy with no repair at its
version leaves the copy with the run's bytes, VERSION plus 1 and COMMITTED at the step, frees the hearth, and sends one
digest of each page to the local Azard (nothing else of the step due here); on a local copy in a LIVE entry each page's
digest enters its vote. (R142, R165) -/
def Obligations.StepProgramRunsStartAndEnd : Prop :=
  (∀ (e : BitVec 16) (h : Fin 68) (st : Word) (s : State), (s.entry e.toNat).queued.head? = some st →
    State.takesUpdate (s.entry e.toNat) = true →
    s.groupRounded (s.entry e.toNat).ctx.toNat (s.entry e.toNat).group st = true → s.runOfEntry e.toNat = none →
    s.hearthReady h = true → (State.entryRegions (s.entry e.toNat)).contains (h.val / 17) = true →
    ∃ t, exec (.stepProgramRun e h) s = .next t ∧ t = s.begin.setEngine h (t.engine h) ∧
      (t.engine h).running = true ∧ (t.engine h).sect = .pre ∧ (t.engine h).copy = .mirror e ∧ (t.engine h).stepNo = st ∧
      (∀ r, (t.engine h).regs.vec r = 0) ∧ (∀ r, (t.engine h).regs.tile r = 0) ∧ (∀ r, (t.engine h).regs.accum r = {}) ∧
      (t.engine h).regs.vl = 0 ∧ (t.engine h).regs.ftz = false ∧ (t.engine h).regs.estat = 0 ∧
      (t.engine h).regs.sc 1 = 0x1000000000000000 ∧
      (t.engine h).regs.sc 2 = 0x2000000000000000 + BitVec.ofNat 64
        (s.gradOffset (s.entry e.toNat).ctx.toNat (s.entry e.toNat).group (s.entry e.toNat).segFirst.toNat) ∧
      (t.engine h).regs.sc 3 = BitVec.ofNat 64 (s.gradElems (s.entry e.toNat).ctx.toNat (s.entry e.toNat).segFirst.toNat
        (s.entry e.toNat).segCount.toNat) ∧
      (t.engine h).regs.sc 4 = st ∧ (t.engine h).regs.sc 5 = 0x3000000000000000 ∧
      (t.engine h).regs.sc 6 = s.stepKey (s.entry e.toNat).ctx.toNat st (s.entry e.toNat) ∧
      (t.engine h).regs.sc 9 = 0x4000000000000000 ∧
      (∀ r : BitVec 5, r = 0 ∨ r = 7 ∨ r = 8 ∨ 10 ≤ r.toNat → (t.engine h).regs.sc r = 0)) ∧
  (∀ (h : Fin 68) (i : BitVec 16) (s : State), (s.engine h).copy = .mirror i → (s.engine h).finished = true →
    (s.entry i.toNat).scrubLines = [] → (s.entry i.toNat).role = true → (s.entry i.toNat).repairing = [] →
    s.settled (s.entry i.toNat).ctx.toNat = true → (s.entry i.toNat).st = .live →
    ∃ t, exec (.stepUpdateDone h) s = .next t ∧ t.engine h = {} ∧ (t.entry i.toNat).mem = (s.engine h).state ∧
      (t.entry i.toNat).version = (s.entry i.toNat).version + 1 ∧ (t.entry i.toNat).committed = (s.engine h).stepNo ∧
      t.entryOnly s i.toNat ∧ t.sent.length = (s.entry i.toNat).pages.toNat ∧ t.answers = []) ∧
  (∀ (h : Fin 68) (i : BitVec 16) (s : State), (s.engine h).copy = .mirror i → (s.engine h).finished = true →
    (s.entry i.toNat).scrubLines = [] → (s.entry i.toNat).role = false → (s.entry i.toNat).degradedL = false → (s.entry i.toNat).repairing = [] →
    (s.entry i.toNat).votes = [] → s.settled (s.entry i.toNat).ctx.toNat = true → (s.entry i.toNat).st = .live →
    ∃ t, exec (.stepUpdateDone h) s = .next t ∧ t.engine h = {} ∧ (t.entry i.toNat).mem = (s.engine h).state ∧
      (t.entry i.toNat).version = (s.entry i.toNat).version + 1 ∧ (t.entry i.toNat).committed = (s.engine h).stepNo ∧
      t.entryOnly s i.toNat ∧ (t.entry i.toNat).votes.length = (s.entry i.toNat).pages.toNat ∧ t.sent = []) ∧
  (∀ (h : Fin 68) (s : State), (s.engine h).finished = false → exec (.stepUpdateDone h) s = .next s.begin)

/-- O38. A WR of a LENGTH that is not 0 to an EMPTY or REFUSED slot leaves it LOADING with nothing received; while LOADING
or INSTALLED it answers NACK_ACCESS. A RD answers the slot's words. A WRC into a LOADING slot stores the units that it
brings for the first time and adds their bytes to COUNT; the slot stays LOADING until COUNT is LENGTH, and then it is
INSTALLED with its header's PROGRAM_ID and its SHA digest, or REFUSED with the first check of R163 that fails. A CLEAR with
a fresh SEQ while CHARTERED or QUIESCED empties a slot that no entry names, gives cause 8 for one that an entry does, and
answers CONTEXT_STATE otherwise. Hyper bytes are written while CHARTERED or QUIESCED, read back, and refused otherwise and
beyond 1 MiB. A requester that is no endpoint, and one that names another context's store, gets NACK_ACCESS. (R160, R161,
R162, R163) -/
def Obligations.ProgramStoreAccess : Prop :=
  (∀ (rq : Req) (k : BitVec 8) (len : BitVec 32) (s : State), s.storeAt rq = true → len ≠ 0 →
    ((s.slot rq.ctx k.toNat).st = .empty ∨ (s.slot rq.ctx k.toNat).st = .refused →
      ∃ t, exec (.slotLengthWr rq .wr 0 (rq.ctx.val * 1099511627776 + 64 * k.toNat + 8) 0 (natLe 8 len.toNat)) s = .next t ∧ t.answeredOnly s rq .ok ∧
        t.slot rq.ctx k.toNat = { s.slot rq.ctx k.toNat with st := .loading, length := len, count := 0, bytes := [], units := [] } ∧
        t.slotOnly s rq.ctx k.toNat) ∧
    ((s.slot rq.ctx k.toNat).st = .loading ∨ (s.slot rq.ctx k.toNat).st = .installed →
      exec (.slotLengthWr rq .wr 0 (rq.ctx.val * 1099511627776 + 64 * k.toNat + 8) 0 (natLe 8 len.toNat)) s = .next (s.begin.answer rq .nackAccess))) ∧
  (∀ (rq : Req) (k : BitVec 8) (s : State), s.storeAt rq = true →
    exec (.slotLengthWr rq .rd 0 (rq.ctx.val * 1099511627776 + 64 * k.toNat) 64 []) s =
      .next (s.begin.answer rq .ok 0 (State.slotBytes (s.slot rq.ctx k.toNat)))) ∧
  (∀ (rq : Req) (k : BitVec 8) (off : Nat) (data : Bytes) (s : State), s.storeAt rq = true → off + data.length ≤ 1048576 →
    (s.slot rq.ctx k.toNat).st = .loading → unitsOk off data.length (s.slot rq.ctx k.toNat).length.toNat = true →
    let new := (unitsOf off data.length).filter fun u => !(s.slot rq.ctx k.toNat).units.contains u
    let n := (s.slot rq.ctx k.toNat).count +
      BitVec.ofNat 32 ((new.map fun u => unitSize (256 * u) (s.slot rq.ctx k.toNat).length.toNat).sum)
    ∃ t, exec (.imageWrc rq k (rq.ctx.val * 1099511627776 + off) data) s = .next t ∧ t.answeredOnly s rq .ok ∧ t.slotOnly s rq.ctx k.toNat ∧
      (t.slot rq.ctx k.toNat).count = n ∧ (t.slot rq.ctx k.toNat).units = (s.slot rq.ctx k.toNat).units ++ new ∧
      (n ≠ (s.slot rq.ctx k.toNat).length → (t.slot rq.ctx k.toNat).st = .loading) ∧
      (n = (s.slot rq.ctx k.toNat).length → t.imageCause rq.ctx k.toNat = 0 → (t.slot rq.ctx k.toNat).st = .installed ∧
        (t.slot rq.ctx k.toNat).programId = (parseProg (t.slot rq.ctx k.toNat).bytes).programId ∧
        (t.slot rq.ctx k.toNat).digest =
          hash256 ((t.slot rq.ctx k.toNat).bytes.read 0 (s.slot rq.ctx k.toNat).length.toNat)) ∧
      (n = (s.slot rq.ctx k.toNat).length → t.imageCause rq.ctx k.toNat ≠ 0 → (t.slot rq.ctx k.toNat).st = .refused ∧
        (t.slot rq.ctx k.toNat).cause = BitVec.ofNat 8 (t.imageCause rq.ctx k.toNat))) ∧
  (∀ (rq : Req) (k : BitVec 8) (seq : BitVec 16) (s : State), s.storeAt rq = true → (s.slot rq.ctx k.toNat).acted ≠ seq →
    ((s.ctx rq.ctx).life.st = .chartered ∨ (s.ctx rq.ctx).life.st = .quiesced →
      ((s.slot rq.ctx k.toNat).st ≠ .installed ∨
        (∀ e ∈ s.entriesOf rq.ctx, e.2.program ≠ (s.slot rq.ctx k.toNat).programId)) →
      ∃ t, exec (.slotClear rq k seq) s = .next t ∧ t.answeredOnly s rq .ok ∧ t.slotOnly s rq.ctx k.toNat ∧
        t.slot rq.ctx k.toNat = { cmd := 1, seq := seq, acted := seq }) ∧
    ((s.ctx rq.ctx).life.st = .chartered ∨ (s.ctx rq.ctx).life.st = .quiesced → (s.slot rq.ctx k.toNat).st = .installed →
      (∃ e ∈ s.entriesOf rq.ctx, e.2.program = (s.slot rq.ctx k.toNat).programId) →
      ∃ t, exec (.slotClear rq k seq) s = .next t ∧ t.answeredOnly s rq .ok ∧ (t.slot rq.ctx k.toNat).cause = 8 ∧
        (t.slot rq.ctx k.toNat).st = .installed) ∧
    ((s.ctx rq.ctx).life.st ≠ .chartered → (s.ctx rq.ctx).life.st ≠ .quiesced →
      ∃ t, exec (.slotClear rq k seq) s = .next t ∧ t.answeredOnly s rq .nackBusy 1 ∧
        (t.slot rq.ctx k.toNat).st = (s.slot rq.ctx k.toNat).st)) ∧
  (∀ (rq : Req) (off len : Nat) (data : Bytes) (s : State), s.storeAt rq = true → off < 1099511627776 →
    let at_ := rq.ctx.val * 1099511627776 + off
    (off + data.length ≤ 1048576 → (s.ctx rq.ctx).life.st = .chartered ∨ (s.ctx rq.ctx).life.st = .quiesced →
      ∃ t, exec (.hyperWr rq .wr at_ len data) s = .next t ∧ t.answeredOnly s rq .ok ∧
        (t.ctx rq.ctx).prog.hyper.read off data.length = data ∧ (t.ctx rq.ctx).prog.slots = (s.ctx rq.ctx).prog.slots ∧
        (∀ a, (a < off ∨ off + data.length ≤ a) → Mem.byte (t.ctx rq.ctx).prog.hyper a = Mem.byte (s.ctx rq.ctx).prog.hyper a)) ∧
    ((s.ctx rq.ctx).life.st ≠ .chartered → (s.ctx rq.ctx).life.st ≠ .quiesced →
      exec (.hyperWr rq .wr at_ len data) s = .next (s.begin.answer rq .nackAccess)) ∧
    (off + len ≤ 1048576 → exec (.hyperWr rq .rd at_ len data) s =
      .next (s.begin.answer rq .ok 0 ((s.ctx rq.ctx).prog.hyper.read off len))) ∧
    (1048576 < off + len → exec (.hyperWr rq .rd at_ len data) s = .next (s.begin.answer rq .nackAddress))) ∧
  (∀ (rq : Req) (op : OpCode) (area : BitVec 8) (off len : Nat) (data : Bytes) (s : State), s.reachesByPort rq = true →
    s.endpoint rq = false ∨ off / 1099511627776 % 16 ≠ rq.ctx.val → exec (.slotLengthWr rq op area off len data) s = .next (s.begin.answer rq .nackAccess))

/-- O39. A request under another epoch than Yobel's own answers NACK_RETRY, one to a space or a register there is not
NACK_ADDRESS, a RD of a register its word, an operation other than RD and WR NACK_ACCESS, and a write of a read-only
register OK, each without effect. Writes of STEP, ATTEMPT and TAG store them, and TAG latches the open attempt with no
segment done; a claim above the one held raises it and one not above leaves it; NODE with VALID joins the context; CAPTURE
brings WINDOW_LOG2 and TILES into range. REMOVE under a new SEQ empties every slot, image, hyper copy and result window of
the context, leaves it EMPTY with its epoch raised by 1, and keeps other contexts' slots. A restart raises Yobel's epoch by
1, leaves every context and slot in its reset state and keeps the accelerator's memory. A shard bound is among the bound
shards. (R173, R176, R177, R182, R189, R191, R194) -/
def Obligations.YobelContextRegisters : Prop :=
  (∀ (y : YReq) (c : Fin 16) (reg : Nat) (v : Word) (s : State), y.epoch ≠ s.yEpoch y →
    exec (.yobelTagWrite y c reg v) s = .next (s.begin.yAnswer y .nackRetry)) ∧
  (∀ (y : YReq) (c : Fin 16) (a : Nat) (v w : Word) (op : OpCode) (sp : BitVec 4) (s : State), y.epoch = s.yEpoch y →
    (y.space = some sp → State.yDecodes sp = false →
      exec (.yblCtxNodeWrite y c (.space a) v) s = .next (s.begin.yAnswer y .nackAddress)) ∧
    (s.yTaken y = true → s.yWord y.port a = none →
      exec (.yblCtxNodeWrite y c (.space a) v) s = .next (s.begin.yAnswer y .nackAddress)) ∧
    (s.yTaken y = true → s.yWord y.port a = some w → y.other = some .rd →
      exec (.yblCtxNodeWrite y c (.space a) v) s = .next (s.begin.yAnswer y .ok 0 (natLe 8 w.toNat))) ∧
    (s.yTaken y = true → s.yWord y.port a = some w → y.other = some op → op ≠ .wr → op ≠ .rd →
      exec (.yblCtxNodeWrite y c (.space a) v) s = .next (s.begin.yAnswer y .nackAccess))) ∧
  (∀ (y : YReq) (c : Fin 16) (a : Nat) (v : Word) (s : State), s.yWrites y = true → (a = 0 ∨ a = 8 ∨ (0x708 ≤ a ∧ a < 0x730 ∧ a % 8 = 0)) →
    exec (.yblCtxNodeWrite y c (.space a) v) s = .next (s.begin.yAnswer y .ok)) ∧
  (∀ (y : YReq) (c : Fin 16) (v : Word) (s : State), s.yWrites y = true →
    (∃ t, exec (.yobelTagWrite y c 0x10 v) s = .next t ∧ t.yAnsweredOnly s y .ok ∧ t.yobelOnly s y.port ∧
      t.yctx y.port c = { s.yctx y.port c with step := v } ∧ (∀ d, d ≠ c.val → t.yctx y.port d = s.yctx y.port d)) ∧
    (∃ t, exec (.yobelTagWrite y c 0x18 v) s = .next t ∧ t.yAnsweredOnly s y .ok ∧ t.yobelOnly s y.port ∧
      t.yctx y.port c = { s.yctx y.port c with attempt := v.setWidth 16 }) ∧
    (∃ t, exec (.yobelTagWrite y c 0x20 v) s = .next t ∧ t.yAnsweredOnly s y .ok ∧ t.yobelOnly s y.port ∧
      (t.yctx y.port c).tag = v ∧ (t.yctx y.port c).openAtt = some { step := (s.yctx y.port c).step
                                                                     attempt := (s.yctx y.port c).attempt, tag := v } ∧
      (t.yctx y.port c).segsOk = [] ∧ (t.yctx y.port c).segsDone = 0 ∧ (t.yctx y.port c).stopped = false ∧
      (t.yctx y.port c).claim = (s.yctx y.port c).claim) ∧
    (∃ t, exec (.yobelClaimWrite y c v) s = .next t ∧ t.yAnsweredOnly s y .ok ∧ t.yobelOnly s y.port ∧
      (t.yctx y.port c).claim.toNat = max (s.yctx y.port c).claim.toNat v.toNat ∧
      (t.yctx y.port c).tag = (s.yctx y.port c).tag) ∧
    (∃ t, exec (.yblCtxNodeWrite y c (.block 0x00) v) s = .next t ∧ t.yAnsweredOnly s y .ok ∧ t.yobelOnly s y.port ∧
      (t.yctx y.port c).logical = v.setWidth 16 ∧ (t.yctx y.port c).azardNode = v.extractLsb' 16 16 ∧
      (t.yctx y.port c).valid = v.getLsbD 32 ∧ (v.getLsbD 32 = true → (t.yctx y.port c).st = .joined)) ∧
    (∃ t, exec (.yblCtxNodeWrite y c (.block 0x38) v) s = .next t ∧ t.yAnsweredOnly s y .ok ∧ t.yobelOnly s y.port ∧
      (t.yctx y.port c).tiles.toNat = min 64 (v.extractLsb' 0 7).toNat ∧ 10 ≤ (t.yctx y.port c).windowLog2.toNat ∧
      (t.yctx y.port c).windowLog2.toNat ≤ 24 ∧ (t.yctx y.port c).tag = (s.yctx y.port c).tag)) ∧
  (∀ (y : YReq) (c : Fin 16) (seq : BitVec 16) (s : State), s.yWrites y = true → seq ≠ (s.yctx y.port c).cmdActed →
    ∃ t, exec (.yobelRemove y c 1 seq) s = .next t ∧ t.answers.map (fun a => a.result) = [.ok] ∧
      (t.yctx y.port c).st = .empty ∧ (t.yctx y.port c).epoch = (s.yctx y.port c).epoch + 1 ∧
      (t.yctx y.port c).claim = 0 ∧ (t.yctx y.port c).openAtt = none ∧ (t.yctx y.port c).cmdActed = seq ∧
      (∀ x ∈ (t.yobel y.port).slots, x.2.ctx.toNat ≠ c.val) ∧
      (∀ x ∈ (s.yobel y.port).slots, x.2.ctx.toNat ≠ c.val → x ∈ (t.yobel y.port).slots) ∧
      (∀ x ∈ (t.yobel y.port).images, x.1 / 256 ≠ c.val) ∧ (∀ x ∈ (t.yobel y.port).hyper, x.1 / 4096 ≠ c.val) ∧
      (∀ x ∈ (t.yobel y.port).results, x.1 / 4096 ≠ c.val) ∧ (∀ j, j ≠ y.port.val → t.yobel j = s.yobel j)) ∧
  (∀ (k : Fin 9) (s : State), ∃ t, exec (.yobelRestart k) s = .next t ∧ t.yobelOnly s k ∧
    (t.yobel k).epoch = (s.yobel k).epoch + 1 ∧ (t.yobel k).slots = [] ∧ (t.yobel k).ctx = [] ∧ (t.yobel k).images = [] ∧
    (t.yobel k).memory = (s.yobel k).memory ∧ t.engine (68 + k) = {} ∧ t.answers = []) ∧
  (∀ (k : Fin 9) (shard : Word) (s : State), ∃ t, exec (.acceleratorShardBind k shard) s = .next t ∧ t.yobelOnly s k ∧
    shard ∈ (t.yobel k).boundShards ∧ (∀ x ∈ (s.yobel k).boundShards, x ∈ (t.yobel k).boundShards) ∧
    (t.yobel k).slots = (s.yobel k).slots)

/-- O40. Units of a final gradient leave in the open attempt under the node's claim, and none once stopped; the capture
records of the step before leave first. An OK to the open attempt takes them out of flight, NACK_CLAIM to the claim held
stops contributions until a larger claim; a reply under an earlier epoch or to another attempt changes nothing. A result WRC
of the window's own step stores the units that are new; one of a newer step moves the window on, unless a run reads the
older buffer; without an attempt it answers NACK_ACCESS. Status words are stored and read back. A directory entry written is
LOADING. An image window's unit is stored; a complete image is GOOD or BAD by its digest. A slot's words are stored, STATE 5
to 7 refused; a claim raise clears the fill map; RELEASE_STEP is stored. An update that a slot may take starts on Yobel's
engine with its step, its key and the shard's bytes; a slot that may not changes nothing. A run in progress goes on by the
instructions given; at its end, no page held, the engine is free, the bytes are the shard's, VERSION is one higher,
COMMITTED the step, and each page's digest is sent. (R170, R171, R176, R179, R180, R181, R182, R183, R187, R188, R190, R196)
-/
def Obligations.YobelDataAndPrograms : Prop :=
  (∀ (k : Fin 9) (c : Fin 16) (seg : BitVec 12) (off : Nat) (data : Bytes) (a : AttHdr) (s : State),
    (s.yctx k c).openAtt = some a → (s.yctx k c).valid = true → (s.yctx k c).claimStop = false →
    ((s.yctx k c).stopped = false → ∃ t, exec (.yobelContribute k c seg off data none) s = .next t ∧ t.yobelOnly s k ∧
      (∃ l : List Msg, t.sent = l ++ [{
          dest := .azardOf k, op := .wrc, addr := 2 * 2 ^ 44 + c * 2 ^ 40 + seg.toNat * 2 ^ 28 + off, hdr := some a
          args := [(s.yctx k c).azardNode.toNat, (s.yctx k c).logical.toNat, (s.yctx k c).claim.toNat], data := data }] ∧
        l.map (fun m => m.data) = ((s.yctx k c).captures.filter fun r => !r.2 && decide (r.1.step.toNat < a.step.toNat) &&
          !decide (r.1.step.toNat + 2 ≤ a.step.toNat)).map fun r => State.captureBytes r.1) ∧
      (∀ u ∈ unitsOf off data.length, (seg, u) ∈ (t.yctx k c).inFlight)) ∧
    ((s.yctx k c).stopped = true → exec (.yobelContribute k c seg off data none) s = .next s.begin)) ∧
  (∀ (k : Fin 9) (c : Fin 16) (seg : BitVec 12) (off : Nat) (data : Bytes) (r : YAns) (s : State),
    (r.epoch ≠ s.yEpochOf k (some c) → exec (.yobelContribute k c seg off data (some r)) s = .next s.begin) ∧
    ((s.yctx k c).openAtt ≠ some r.hdr → r.result ≠ .nackClaim → exec (.yobelContribute k c seg off data (some r)) s = .next s.begin) ∧
    (r.epoch = s.yEpochOf k (some c) → (s.yctx k c).openAtt = some r.hdr →
      (r.result = .ok → ∃ t, exec (.yobelContribute k c seg off data (some r)) s = .next t ∧ t.yobelOnly s k ∧ t.sent = [] ∧
        (∀ u ∈ unitsOf off data.length, (seg, u) ∈ (t.yctx k c).done ∧ (seg, u) ∉ (t.yctx k c).inFlight)) ∧
      (r.result = .nackBusy → r.cause = 9 ∨ r.cause = 0x0A → ∃ t, exec (.yobelContribute k c seg off data (some r)) s = .next t ∧
        t.yobelOnly s k ∧ t.sent = [] ∧ (t.yctx k c).stopped = true)) ∧
    (r.epoch = s.yEpochOf k (some c) → r.result = .nackClaim → r.claim = (s.yctx k c).claim →
      ∃ t, exec (.yobelContribute k c seg off data (some r)) s = .next t ∧ t.yobelOnly s k ∧ t.sent = [] ∧
        (t.yctx k c).claimStop = true)) ∧
  (∀ (y : YReq) (x : Ext) (seg : BitVec 12) (off : Nat) (data : Bytes) (s : State), s.yTaken y = true → seg ≠ 0xFFF →
    y.ext = some x → x.hasAttempt = true →
    unitsOk off data.length (State.cfgElements (s.ySeg y.port y.ctx seg.toNat) *
      resultBytes (State.cfgRfmt (s.ySeg y.port y.ctx seg.toNat))) = true →
    (x.step = (s.ySeg y.port y.ctx seg.toNat).step → ∃ t, exec (.yobelResultWrc y .wrc seg off data) s = .next t ∧
      t.yAnsweredOnly s y .ok ∧ t.yobelOnly s y.port ∧ (t.ySeg y.port y.ctx seg.toNat).step = x.step ∧
      (∀ u ∈ unitsOf off data.length, u ∈ (t.ySeg y.port y.ctx seg.toNat).units) ∧
      (t.ySeg y.port y.ctx seg.toNat).prevBytes = (s.ySeg y.port y.ctx seg.toNat).prevBytes) ∧
    ((s.ySeg y.port y.ctx seg.toNat).step.toNat < x.step.toNat →
      s.yReads y.port y.ctx (State.cfgGroup (s.ySeg y.port y.ctx seg.toNat)) (s.ySeg y.port y.ctx seg.toNat).prevStep = false →
      ∃ t, exec (.yobelResultWrc y .wrc seg off data) s = .next t ∧
        t.yAnsweredOnly s y .ok ∧ t.yobelOnly s y.port ∧ (t.ySeg y.port y.ctx seg.toNat).step = x.step ∧
        (t.ySeg y.port y.ctx seg.toNat).prevBytes = (s.ySeg y.port y.ctx seg.toNat).bytes ∧
        (t.ySeg y.port y.ctx seg.toNat).prevStep = (s.ySeg y.port y.ctx seg.toNat).step)) ∧
  (∀ (y : YReq) (seg : BitVec 12) (off : Nat) (data : Bytes) (s : State), s.yTaken y = true → y.ext = none →
    exec (.yobelResultWrc y .wrc seg off data) s = .next (s.begin.yAnswer y .nackAccess)) ∧
  (∀ (y : YReq) (k : Nat) (v : Word) (s : State), s.yTaken y = true → k < 4095 →
    (∃ t, exec (.yobelStatusWr y .wr (16 * k) 0 (natLe 8 v.toNat)) s = .next t ∧ t.yAnsweredOnly s y .ok ∧
      t.yobelOnly s y.port ∧ t.ySeg y.port y.ctx k = { s.ySeg y.port y.ctx k with config := v }) ∧
    exec (.yobelStatusWr y .rd (16 * k) 16 []) s = .next (s.begin.yAnswer y .ok 0
      (natLe 8 (s.ySeg y.port y.ctx k).config.toNat ++ natLe 8 (s.ySeg y.port y.ctx k).status.toNat))) ∧
  (∀ (y : YReq) (k : Nat) (data : Bytes) (s : State), s.yTaken y = true → k < 256 → data.length = 64 →
    ∃ t, exec (.yobelDirectoryWr y .wr (64 * k) 0 data) s = .next t ∧ t.yAnsweredOnly s y .ok ∧ t.yobelOnly s y.port ∧
      Map.get {} (t.yobel y.port).images (y.ctx.val * 256 + k) = {
        length := BitVec.ofNat 32 (Bytes.le data 0 4), st := 1
        programId := BitVec.ofNat 16 (Bytes.le data 4 2), digest := BitVec.ofNat 256 (Bytes.le data 0x20 32) }) ∧
  (∀ (y : YReq) (k : Nat) (data : Bytes) (i : YImage) (s : State), s.yTaken y = true → k < 256 →
    Map.get {} (s.yobel y.port).images (y.ctx.val * 256 + k) = i → i.st = 1 → i.units = [] → i.bytes = [] →
    data.length = i.length.toNat → 0 < data.length → data.length ≤ 256 →
    ∃ t, exec (.yobelImageWrc y .wrc 0 (k * 1048576) data) s = .next t ∧ t.answers.map (fun a => a.result) = [.ok] ∧
      (Map.get {} (t.yobel y.port).images (y.ctx.val * 256 + k)).bytes.read 0 data.length = data ∧
      (Map.get {} (t.yobel y.port).images (y.ctx.val * 256 + k)).st = (if hash256 data = i.digest then 2 else 3)) ∧
  (∀ (y : YReq) (slot : BitVec 12) (v : Word) (s : State), s.yTaken y = true → slot.toNat < (s.yobel y.port).slotsN.toNat →
    (5 ≤ v.toNat % 8 → exec (.yobelSlotWr y .wr slot 0 0 (natLe 8 v.toNat)) s = .next (s.begin.yAnswer y .nackAccess)) ∧
    (v.toNat % 8 = 2 → ∃ t, exec (.yobelSlotWr y .wr slot 0 0 (natLe 8 v.toNat)) s = .next t ∧ t.yAnsweredOnly s y .ok ∧
      t.yobelOnly s y.port ∧ (t.yslot y.port slot.toNat).st = .filling ∧
      (t.yslot y.port slot.toNat).programId = v.extractLsb' 16 16 ∧
      (t.yslot y.port slot.toNat).claim = (s.yslot y.port slot.toNat).claim) ∧
    ((s.yslot y.port slot.toNat).claim.toNat ≤ v.toNat → (s.yslot y.port slot.toNat).fillClaim.toNat < v.toNat →
      ∃ t, exec (.yobelSlotWr y .wr slot 8 0 (natLe 8 v.toNat)) s = .next t ∧ t.yAnsweredOnly s y .ok ∧ t.yobelOnly s y.port ∧
        t.yslot y.port slot.toNat =
          { s.yslot y.port slot.toNat with claim := v, fillClaim := v, map := [], fillDone := 0, fillNext := 0 }) ∧
    (s.yWrites y = true → ∃ t, exec (.releaseStepWrite y slot v) s = .next t ∧ t.yAnsweredOnly s y .ok ∧ t.yobelOnly s y.port ∧
      t.yslot y.port slot.toNat = { s.yslot y.port slot.toNat with
        releaseStep := v, released := (s.yslot y.port slot.toNat).released.filter (fun r => r.1 ≠ v) ++
          [(v, (s.yslot y.port slot.toNat).key)] })) ∧
  (∀ (k : Fin 9) (slot : BitVec 12) (fuel : Nat) (s : State), (s.engine (68 + k)).running = false →
    (s.engine (68 + k)).finished = false →
    (∀ st key, s.yEligible k (s.yslot k slot.toNat) = some (st, key) →
      exec (.yobelStepUpdate k slot fuel) s = exec (.yobelStepUpdate k slot fuel) (s.begin.yStart k slot.toNat st key) ∧
      ∃ t, exec (.yobelStepUpdate k slot 0) s = .next t ∧ t.yobelOnly s k ∧ t.yobel k = s.yobel k ∧
        (t.engine (68 + k)).running = true ∧ (t.engine (68 + k)).copy = .yobel k slot ∧ (t.engine (68 + k)).stepNo = st ∧
        (t.engine (68 + k)).regs.sc 6 = key ∧ (t.engine (68 + k)).state = s.shardMem k (s.yslot k slot.toNat)) ∧
    (s.yEligible k (s.yslot k slot.toNat) = none → exec (.yobelStepUpdate k slot fuel) s = .next s.begin)) ∧
  (∀ (k : Fin 9) (slot : BitVec 12) (fuel : Nat) (e : Engine) (s : State), s.yRun k slot.toNat = some e →
    ((s.yRunOn k slot.toNat fuel e).finished = false ∨ s.yHeld k slot.toNat = true →
      exec (.yobelStepUpdate k slot fuel) s = .next (s.begin.setEngine (68 + k) (s.yRunOn k slot.toNat fuel e))) ∧
    ((s.yRunOn k slot.toNat fuel e).finished = true → s.yHeld k slot.toNat = false →
      ∃ t, exec (.yobelStepUpdate k slot fuel) s = .next t ∧ t.yobelOnly s k ∧ t.engine (68 + k) = {} ∧ t.answers = [] ∧
        t.sent.length = (s.yslot k slot.toNat).pages.toNat ∧
        (t.yslot k slot.toNat).version = (s.yslot k slot.toNat).version + 1 ∧
        (t.yslot k slot.toNat).committed = (s.yRunOn k slot.toNat fuel e).stepNo ∧
        (t.yslot k slot.toNat).st = (s.yslot k slot.toNat).st ∧
        t.shardMem k (s.yslot k slot.toNat) = (s.yRunOn k slot.toNat fuel e).state ∧
        (t.yobel k).images = (s.yobel k).images ∧ (t.yobel k).results = (s.yobel k).results ∧ (t.yobel k).ctx = (s.yobel k).ctx))

/-- O41. An install record or state-port request without a claim, with an OP that R186 refuses or by another operation
answers NACK_ACCESS, under another claim or to a FENCED slot NACK_CLAIM. A HOLD at the page's version on a page no run
touches is kept (16 at most); RELEASE ends it. INSTALL_FILL confirms a page whose digest is the record's and always reports
the digest; INSTALL_REPAIR ends the hold on a match. The state port reads and writes the bound shard's bytes and answers
SHARD_UNBOUND before a bind. A tile operation of an open attempt numbers on and is captured at a capture position; the
oldest capture is sent, ends when accepted, and is dropped two steps later. A repeated probe SEQ goes on with the probe in
progress, whose end sets status and digest, and runs nothing when there is none; a new one is taken. A grant whose END is
past, or without a time exchange in 10 ms, is reported refused; another one is granted; its end reports once. (R174, R182,
R186, R187, R189, R190, R191, R192, R193) -/
def Obligations.YobelInstallsCaptureAndTests : Prop :=
  (∀ (y : YReq) (r : InstallRec) (s : State), s.yInstalls y r = true →
    (State.claimOf y.ext = none → exec (.yobelHold y r) s = .next (s.begin.yAnswer y .nackAccess)) ∧
    (∀ v, State.claimOf y.ext = some v → (v ≠ (s.yslot y.port r.slot.toNat).claim ∨ (s.yslot y.port r.slot.toNat).st = .fenced) →
      exec (.yobelHold y r) s = .next (s.begin.yAnswer y .nackClaim) ∧
      exec (.installFill y r) s = .next (s.begin.yAnswer y .nackClaim) ∧
      exec (.installRepair y r) s = .next (s.begin.yAnswer y .nackClaim) ∧
      exec (.installRelease y r) s = .next (s.begin.yAnswer y .nackClaim))) ∧
  (∀ (y : YReq) (r : InstallRec) (op : OpCode) (s : State), s.yTaken y = true →
    (y.other = none ∨ y.other = some .wr → r.op.any State.opRefused = true →
      exec (.yobelHold y r) s = .next (s.begin.yAnswer y .nackAccess) ∧
      exec (.installFill y r) s = .next (s.begin.yAnswer y .nackAccess)) ∧
    (y.other = some op → op ≠ .wr → op ≠ .rd → exec (.yobelHold y r) s = .next (s.begin.yAnswer y .nackAccess))) ∧
  (∀ (y : YReq) (r : InstallRec) (s : State), s.gated y r = true →
    (s.yRun y.port r.slot.toNat = none → State.yPageVersion (s.yslot y.port r.slot.toNat) r.page.toNat = r.version →
      (s.yslot y.port r.slot.toNat).holds.length < 16 →
      ∃ t, exec (.yobelHold y r) s = .next t ∧ t.yAnsweredOnly s y .ok ∧ t.yobelOnly s y.port ∧
        (r.page.toNat, r.version) ∈ (t.yslot y.port r.slot.toNat).holds ∧
        (t.yslot y.port r.slot.toNat).version = (s.yslot y.port r.slot.toNat).version) ∧
    (State.yPageVersion (s.yslot y.port r.slot.toNat) r.page.toNat ≠ r.version →
      exec (.yobelHold y r) s = .next (s.begin.yAnswer y .nackBusy 0x14)) ∧
    (∃ t, exec (.installRelease y r) s = .next t ∧ t.yAnsweredOnly s y .ok ∧ t.yobelOnly s y.port ∧
      t.yslot y.port r.slot.toNat = { s.yslot y.port r.slot.toNat with
        holds := (s.yslot y.port r.slot.toNat).holds.filter fun h => h.1 ≠ r.page.toNat }) ∧
    ((s.yslot y.port r.slot.toNat).st = .filling →
      ∃ t, exec (.installFill y r) s = .next t ∧ t.yAnsweredOnly s y .ok ∧ t.yobelOnly s y.port ∧ t.sent.length = 1 ∧
        (s.yDigest y.port (s.yslot y.port r.slot.toNat) r.page.toNat r.version = r.digest →
          r.page.toNat ∈ (t.yslot y.port r.slot.toNat).map ∧ (r.page.toNat < (s.yslot y.port r.slot.toNat).pages.toNat →
            State.yPageVersion (t.yslot y.port r.slot.toNat) r.page.toNat = r.version)) ∧
        (s.yDigest y.port (s.yslot y.port r.slot.toNat) r.page.toNat r.version ≠ r.digest →
          t.yslot y.port r.slot.toNat = s.yslot y.port r.slot.toNat)) ∧
    (∃ t, exec (.installRepair y r) s = .next t ∧ t.yAnsweredOnly s y .ok ∧ t.yobelOnly s y.port ∧ t.sent.length = 1 ∧
      (t.yslot y.port r.slot.toNat).holds = if s.yDigest y.port (s.yslot y.port r.slot.toNat) r.page.toNat r.version = r.digest
        then (s.yslot y.port r.slot.toNat).holds.filter fun h => h.1 ≠ r.page.toNat
        else (s.yslot y.port r.slot.toNat).holds)) ∧
  (∀ (y : YReq) (off len : Nat) (op : OpCode) (s : State), s.yTaken y = true → y.other = some op → op ≠ .rd →
    exec (.statePortRd y off len) s = .next (s.begin.yAnswer y .nackAccess)) ∧
  (∀ (y : YReq) (off len : Nat) (data : Bytes) (sl : Nat) (x : YSlot) (s : State), s.yTaken y = true →
    (y.other = none ∨ y.other = some .rd) →
    s.portSlot y.port y.ctx off len = some (sl, x) → x.st ≠ .fenced → State.claimOf y.ext = some x.claim →
    ((s.yobel y.port).boundShards.contains x.shardId = false →
      exec (.statePortRd y off len) s = .next (s.begin.yAnswer y .nackBusy 0x13)) ∧
    ((s.yobel y.port).boundShards.contains x.shardId = true →
      exec (.statePortRd y off len) s = .next (s.begin.yAnswer y .ok 0
        ((s.shardMem y.port x).read (off - x.windowBase.toNat * 2097152) len)) ∧
      (data.length = len → ∃ t, exec (.statePortWr y .wr off data) s = .next t ∧ t.yAnsweredOnly s y .ok ∧
        t.yobelOnly s y.port ∧ (t.shardMem y.port x).read (off - x.windowBase.toNat * 2097152) len = data ∧
        (∀ a, (a < off - x.windowBase.toNat * 2097152 ∨ off - x.windowBase.toNat * 2097152 + len ≤ a) →
          Mem.byte (t.shardMem y.port x) a = Mem.byte (s.shardMem y.port x) a) ∧
        (t.yobel y.port).slots = (s.yobel y.port).slots))) ∧
  (∀ (k : Fin 9) (c : Fin 16) (o : TileOp) (a : AttHdr) (s : State), (s.yctx k c).openAtt = some a →
    ∃ t, exec (.tileCapture k c o) s = .next t ∧ t.yobelOnly s k ∧
      Map.get 0 (t.yctx k c).tileNext o.unit.toNat = Map.get 0 (s.yctx k c).tileNext o.unit.toNat + 1 ∧
      (t.yctx k c).captures = if (State.capturePositions (s.yobel k).captureKey (s.yctx k c).tileStep o.unit
          (s.yctx k c).tiles.toNat (s.yctx k c).windowLog2.toNat).contains (Map.get 0 (s.yctx k c).tileNext o.unit.toNat) = true
        then (s.yctx k c).captures ++ [(State.captureOf (s.yctx k c).tileStep (Map.get 0 (s.yctx k c).tileNext o.unit.toNat)
          (s.yNow k) o, false)]
        else (s.yctx k c).captures) ∧
  (∀ (k : Fin 9) (c : Fin 16) (r : CaptureRec × Bool) (s : State), ((s.yctx k c).captures.find? fun x => !x.2) = some r →
    ∃ t, exec (.captureSend k c none) s = .next t ∧ t.yobelOnly s k ∧
      (∃ m ∈ t.sent, m.dest = .azardOf k ∧ m.op = .wrc ∧ m.data = State.captureBytes r.1) ∧
      (t.yctx k c).captures = (s.yctx k c).captures.map fun x => if x.1 = r.1 then (x.1, true) else x) ∧
  (∀ (k : Fin 9) (c : Fin 16) (r : CaptureAns) (s : State),
    (r.epoch ≠ s.yEpochOf k (some c) → exec (.captureSend k c (some r)) s = .next s.begin) ∧
    (r.epoch = s.yEpochOf k (some c) → ∃ t, exec (.captureSend k c (some r)) s = .next t ∧ t.yobelOnly s k ∧ t.sent = [] ∧
      (r.result = .ok → (t.yctx k c).captures = (s.yctx k c).captures.filter fun x =>
        !(x.1.step = r.step && x.1.unit = r.unit && x.1.position = r.position)) ∧
      (r.result ≠ .ok → (t.yctx k c).captures.map Prod.fst = (s.yctx k c).captures.map Prod.fst))) ∧
  (∀ (k : Fin 9) (c : Fin 16) (a : AttHdr) (s : State), (s.yctx k c).openAtt = some a →
    ∃ t, exec (.captureRecordDrop k c) s = .next t ∧ t.yobelOnly s k ∧
      (∀ r ∈ (t.yctx k c).captures, a.step.toNat < r.1.step.toNat + 2) ∧
      (∀ r ∈ (s.yctx k c).captures, a.step.toNat < r.1.step.toNat + 2 → r ∈ (t.yctx k c).captures) ∧
      (t.yctx k c).dropped = satAdd (s.yctx k c).dropped ((s.yctx k c).captures.length - (t.yctx k c).captures.length)) ∧
  (∀ (y : YReq) (seq : BitVec 16) (s : State), s.yWrites y = true →
    (seq = (s.yobel y.port).probeSeq → (s.yobel y.port).probeRun = none →
      ∀ fuel, exec (.yobelProbeCmd y seq fuel) s = .next (s.begin.yAnswer y .ok)) ∧
    (seq = (s.yobel y.port).probeSeq → ∀ fuel e, (s.yobel y.port).probeRun = some e → (Engine.run fuel e).finished = true →
      ∃ t, exec (.yobelProbeCmd y seq fuel) s = .next t ∧ t.yAnsweredOnly s y .ok ∧ t.yobelOnly s y.port ∧
        (t.yobel y.port).probeRun = none ∧
        (t.yobel y.port).probeStatus = (if (Engine.run fuel e).faulted.isSome = true then 3 else 2) ∧
        (t.yobel y.port).probeDigest = pageDigest 0 0 1 (Mem.read (Engine.run fuel e).state 0 2097152)) ∧
    (seq ≠ (s.yobel y.port).probeSeq → ∃ t, exec (.yobelProbeCmd y seq 0) s = .next t ∧ t.yAnsweredOnly s y .ok ∧
      t.yobelOnly s y.port ∧ (t.yobel y.port).probeSeq = seq ∧ (t.yobel y.port).probeStatus = 1 ∧
      (t.yobel y.port).probeRun = some (State.probeStart y.port (s.yobel y.port).probeArea))) ∧
  (∀ (y : YReq) (start stop : Word) (seq : BitVec 16) (set : BitVec 32) (s : State), s.yWrites y = true →
    seq ≠ (s.yobel y.port).testActed →
    (stop.toNat ≤ (s.yNow y.port).toNat ∨ s.yTimeGood y.port = false → ∃ t, exec (.yobelTestGrant y start stop seq set) s = .next t ∧
      t.yAnsweredOnly s y .ok ∧ t.yobelOnly s y.port ∧ (t.yobel y.port).granted = (s.yobel y.port).granted ∧ t.sent.length = 1 ∧
      (t.yobel y.port).testActed = seq) ∧
    ((s.yNow y.port).toNat < stop.toNat → s.yTimeGood y.port = true →
      ∃ t, exec (.yobelTestGrant y start stop seq set) s = .next t ∧ t.yAnsweredOnly s y .ok ∧ t.yobelOnly s y.port ∧
        (t.yobel y.port).granted = true ∧ (t.yobel y.port).testStart = start ∧ (t.yobel y.port).testEnd = stop ∧ t.sent = [])) ∧
  (∀ (k : Fin 9) (result : BitVec 8) (unit : BitVec 16) (start stop : Word) (s : State), (s.yobel k).granted = true →
    ∃ t, exec (.yobelTestEnd k result unit start stop) s = .next t ∧ t.yobelOnly s k ∧ (t.yobel k).granted = false ∧
      (t.yobel k).testing = false ∧ t.sent.map (fun m => m.data.take 4) = [natLe 2 (s.yobel k).testActed.toNat ++
        natLe 2 (State.yTestOutcome (s.yobel k) result start stop).1])

/-- O42. A digest record under the local entry's claim enters the page's vote and is kept; a repeat with the same digest
changes nothing, one with another digest is counted against the port. A capture record is counted MALFORMED when it fails a
check of R243, dropped when seen before, NONFINITE when it holds no number somewhere, BACKLOG when the queue is full, and
queued otherwise. The oldest queued record is compared: it is counted, and a mismatching column counts against its port. A
PASS sets the port's next due time, a FAIL makes it suspect, and either ends its grant. A request that is no WRC, or a
digest record without a claim, answers NACK_ACCESS, a partial record NACK_ADDRESS. A probe that passes raises an unflagged
port to UP; one that fails a check, or takes over 1 s, puts it in QUARANTINE with QCAUSE 7. A granted window's test starts
at START. (R125, R184, R185, R191, R192, R243, R244, R245, R251, R259, R299) -/
def Obligations.YobelReportsAreTaken : Prop :=
  (∀ (rq : Req) (p : Fin 25) (r : DigestRec) (i : Nat) (s : State), s.intakeAt rq p = true → (State.claimOf rq.ext).isSome = true →
    s.findShard rq.ctx r.shardId false = some i → (s.entry i).claim = r.claim →
    (s.mir.records.find? (fun x => x.1 = rq.ctx.val && State.sameRecord x.2 r) = none → r.install = false →
      r.page.toNat < (s.entry i).pages.toNat → (s.entry i).repairing = [] → (s.entry i).remirrorDue = false →
      (s.entry i).votes.any (fun v => v.page = r.page.toNat && v.version = r.version) = false →
      ∃ t v, exec (.digestRecord rq .wrc { recs := [r] }) s = .next t ∧ t.answeredOnly s rq .ok ∧ t.entryOnly s i ∧
        (t.entry i).votes = (s.entry i).votes ++ [v] ∧ v.page = r.page.toNat ∧ v.version = r.version ∧ v.y = some r.digest ∧
        v.outcome = none ∧ t.mir.records = s.mir.records ++ [(rq.ctx.val, r)]) ∧
    (∀ x, s.mir.records.find? (fun x => x.1 = rq.ctx.val && State.sameRecord x.2 r) = some x →
      (x.2.digest = r.digest → exec (.digestRecord rq .wrc { recs := [r] }) s = .next (s.begin.answer rq .ok)) ∧
      (x.2.digest ≠ r.digest → ∃ t, exec (.digestRecord rq .wrc { recs := [r] }) s = .next t ∧ t.answeredOnly s rq .ok ∧
        (Map.get (0, 0) t.mir.suspect p).1 = satInc (Map.get (0, 0) s.mir.suspect p).1 ∧ t.mir.entries = s.mir.entries))) ∧
  (∀ (rq : Req) (p : Fin 25) (op : OpCode) (r : Recs DigestRec) (r' : Recs CaptureRec) (r'' : Recs TestReport) (s : State),
    s.intakeAt rq p = true →
    (op ≠ .wrc ∨ State.claimOf rq.ext = none → exec (.digestRecord rq op r) s = .next (s.begin.answer rq .nackAccess)) ∧
    (op ≠ .wrc → exec (.captureRecord rq op r') s = .next (s.begin.answer rq .nackAccess) ∧
      exec (.testReport rq op r'') s = .next (s.begin.answer rq .nackAccess)) ∧
    (r'.rest ≠ 0 → exec (.captureRecord rq .wrc r') s = .next (s.begin.answer rq .nackAddress)) ∧
    (r''.rest ≠ 0 → exec (.testReport rq .wrc r'') s = .next (s.begin.answer rq .nackAddress))) ∧
  (∀ (rq : Req) (p : Fin 25) (r : CaptureRec) (s : State), s.intakeAt rq p = true →
    let formed := s.captureFormed rq.ctx p r
    let seen := (s.tstPort p).capSeen.contains (r.step, r.unit, r.position)
    let fits := decide (s.tst.queueBytes + r.bytes ≤ 67108864)
    ∃ t, exec (.captureRecord rq .wrc { recs := [r] }) s = .next t ∧ t.answeredOnly s rq .ok ∧
      t.tst.malformed = (if formed then s.tst.malformed else satInc s.tst.malformed) ∧
      t.tst.skipNonfinite = (if formed && !seen && !State.captureFinite r then satInc s.tst.skipNonfinite
        else s.tst.skipNonfinite) ∧
      t.tst.backlog = (if formed && !seen && State.captureFinite r && !fits then satInc s.tst.backlog else s.tst.backlog) ∧
      t.tst.queue = (if formed && !seen && State.captureFinite r && fits then s.tst.queue ++ [(State.trayFin p, r)]
        else s.tst.queue) ∧ t.ctxs = s.ctxs ∧ t.mir = s.mir) ∧
  (∀ (k : Fin 9) (r : CaptureRec) (rest : List (Fin 9 × CaptureRec)) (s : State), s.tst.queue = (k, r) :: rest →
    ∃ t, exec .captureCompare s = .next t ∧ t.tst.queue = rest ∧ t.tst.records = satInc s.tst.records ∧
      t.tst.mismatch = (if (List.range r.n.toNat).any (State.columnOdd s.tst.slack.toNat r) then satInc s.tst.mismatch
        else s.tst.mismatch) ∧
      (t.tstPort k).capMismatch = (if (List.range r.n.toNat).any (State.columnOdd s.tst.slack.toNat r)
        then satInc (s.tstPort k).capMismatch else (s.tstPort k).capMismatch) ∧ t.ctxs = s.ctxs ∧ t.mir = s.mir) ∧
  (∀ (rq : Req) (p : Fin 25) (r : TestReport) (s : State), s.intakeAt rq p = true →
    ∃ t, exec (.testReport rq .wrc { recs := [r] }) s = .next t ∧ t.answeredOnly s rq .ok ∧
      (t.tstPort p).lastResult = r.result.setWidth 3 ∧
      (r.result = 1 → (t.tstPort p).due = s.now + State.hours s.tst.accelH.toNat ∧ (t.tstPort p).overdue = false) ∧
      (r.result = 2 → (t.tstPort p).suspect = true ∧ (t.tstPort p).cause = 4) ∧
      ((s.tstPort p).grantOpen = some r.seq → t.tst.grantState = 2 ∧ (t.tstPort p).grantOpen = none)) ∧
  (∀ (k : Fin 9) (id : Word) (digest : Digest) (fault : BitVec 4) (s : State), (s.port k).probeRunning = true →
    (id.toNat % 256 = 3 → id.toNat / 256 % 256 = 3 → id.getLsbD 49 = true → 1024 ≤ (id.extractLsb' 16 13).toNat →
      (fault, digest) = State.probeOutcome (Engine.run Config.probeFuel (State.probeStart k (Mem.write [] 0 Config.probeArea))) →
      (s.tstPort k).flagged = false →
      ∃ t, exec (.conformanceProbeDone k id digest fault) s = .next t ∧ (t.port k).state = .up ∧
        (t.port k).conformed = true ∧ (t.port k).yblId = id ∧ (t.port k).probeRunning = false) ∧
    (id.toNat % 256 ≠ 3 → ∃ t, exec (.conformanceProbeDone k id digest fault) s = .next t ∧ (t.port k).state = .quarantine ∧
        (t.port k).qcause = 7 ∧ (t.port k).conformed = false) ∧
    (∃ t, exec (.conformanceTimeout k fault) s = .next t ∧ (t.port k).state = .quarantine ∧ (t.port k).qcause = 7)) ∧
  (∀ (k : Fin 9) (s : State), (s.yobel k).granted = true → (s.yobel k).testing = false →
    (s.yobel k).testStart.toNat ≤ (s.yNow k).toNat → (s.yNow k).toNat < (s.yobel k).testEnd.toNat →
    ∃ t, exec (.testWindowStart k) s = .next t ∧ t.yobelOnly s k ∧
      t.yobel k = { s.yobel k with testing := true, startedAt := s.yNow k })

/-- O43. A region with an idle spare, its active HEARTH set stored and no test running or run starts a test of that spare. A
pass is noted and counted, and the tested spare names the next active hearth outgoing; a failure marks the hearth failed and
this package suspect. The outgoing hearth, once free, becomes the spare and the tested one active; not free in time, it
stays active. A hearth or accelerator that DEFER_H past its due time has not passed is uncovered once. A grant to an UP port
outside every attempt, in a window that is ahead and at most a day long, with none open, is written to Yobel; to a port that
is not UP it is refused with 1. A fenced suspect device with no live entry is drained: REMOVE sent, port in QUARANTINE with
QCAUSE 8, flagged. TST_SELF.DRAIN takes Azard out of service and flags it. (R252, R253, R255, R256, R257, R258, R259, R260,
R264, R381) -/
def Obligations.HearthAndAcceleratorTests : Prop :=
  (∀ (q : Fin 4) (h : Nat) (rest : List Nat) (p : PatternSet) (s : State), (s.region q).testing = false →
    (s.region q).power = .on →
    ((s.region q).lastStart = 0 ∨ s.outside (s.region q).lastStart (s.tst.rotateMin.toNat * 60 * second) = true) → p ∈ s.tst.sets → p.set = s.tst.active → p.cls = 1 →
    s.hearthsIn q .spare = h :: rest → s.hearthFree h = true →
    ∃ t, exec (.hearthTestStart q) s = .next t ∧ (t.region q).testing = true ∧ (t.region q).testHearth.toNat = h ∧
      (t.region q).lastStart = s.now ∧ (t.hearth h).testing = true ∧ (t.hearth h).role = .spare ∧
      (∀ k, k ≠ h → t.hearth k = s.hearth k) ∧ t.engines = s.engines) ∧
  (∀ (q : Fin 4) (o : Nat) (s : State), (s.region q).testing = true → (s.hearth (s.region q).testHearth.toNat).role = .spare →
    s.nextOutgoing q (s.region q).testHearth.toNat = some o →
    ∃ t, exec (.hearthTestDone q 0 true) s = .next t ∧ (t.region q).testing = false ∧
      (t.region q).passes = satInc (s.region q).passes ∧ (t.region q).outgoing = BitVec.ofNat 7 o ∧
      (t.hearth o).role = .outgoing ∧ (t.hearth (s.region q).testHearth.toNat).role = .spare ∧
      (t.hearth (s.region q).testHearth.toNat).lastPass = s.now ∧
      (t.hearth (s.region q).testHearth.toNat).testing = false) ∧
  (∀ (q : Fin 4) (n : Nat) (s : State), (s.region q).testing = true →
    ∃ t, exec (.hearthTestDone q n false) s = .next t ∧ (t.hearth (s.region q).testHearth.toNat).role = .failed ∧
      (t.hearth (s.region q).testHearth.toNat).testFailed = true ∧ t.tst.suspect = true ∧ t.tst.cause = 2 ∧
      (t.region q).testing = false) ∧
  (∀ (q : Fin 4) (h : Nat) (rest : List Nat) (s : State), (s.region q).outgoing ≠ 0x7F →
    (s.hearth (s.region q).outgoing.toNat).role = .outgoing → s.hearthFree (s.region q).outgoing.toNat = true →
    s.hearthsIn q .spare = h :: rest →
    ∃ t, exec (.handover q) s = .next t ∧ (t.hearth (s.region q).outgoing.toNat).role = .spare ∧ (t.hearth h).role = .active ∧
      (t.region q).outgoing = 0x7F ∧ (∀ k, k ≠ h → k ≠ (s.region q).outgoing.toNat → t.hearth k = s.hearth k)) ∧
  (∀ (q : Fin 4) (s : State), (s.region q).outgoing ≠ 0x7F →
    ∃ t, exec (.handoverTimeout q) s = .next t ∧ (t.hearth (s.region q).outgoing.toNat).role = .active ∧
      (t.region q).outgoing = 0x7F ∧ (∀ k, k ≠ (s.region q).outgoing.toNat → t.hearth k = s.hearth k)) ∧
  (∀ (h : Fin 68) (s : State), (s.hearth h).uncovered = false → (s.hearth h).role ≠ .failed →
    (s.hearth h).lastPass.toNat + (17 * s.tst.rotateMin.toNat * 60 + s.tst.deferH.toNat * 3600) * second ≤ (s.testClock h).toNat →
    ∃ t, exec (.hearthUncovered h) s = .next t ∧ t.hearth h = { s.hearth h with uncovered := true } ∧
      t.tst.uncovCount = satInc s.tst.uncovCount ∧ (∀ k, k ≠ h.val → t.hearth k = s.hearth k)) ∧
  (∀ (k : Fin 9) (s : State), (s.tstPort k).due ≠ 0 → (s.tstPort k).overdue = false →
    (s.tstPort k).due.toNat + s.tst.deferH.toNat * 3600 * second ≤ s.now.toNat →
    ∃ t, exec (.tstOverdue k) s = .next t ∧ t.tstPort k = { s.tstPort k with overdue := true } ∧
      t.tst.uncovCount = satInc s.tst.uncovCount ∧ t.tst.uncovPorts = s.tst.uncovPorts ||| (1#9 <<< k.val)) ∧
  (∀ (rq : Req) (k : Fin 9) (seq : BitVec 16) (set : BitVec 32) (s : State), s.served rq false .both = true →
    seq ≠ s.tst.grantActed → s.portUp k = true → s.portInAttempt k = false → s.now.toNat < s.tst.grantEnd.toNat →
    (s.tstPort k).grantOpen = none → s.tst.grantStart.toNat < s.tst.grantEnd.toNat →
    s.tst.grantEnd.toNat - s.tst.grantStart.toNat ≤ 86400 * second →
    ∃ t, exec (.testGrant rq (BitVec.ofNat 4 k) seq set) s = .next t ∧ t.answeredOnly s rq .ok ∧ t.tst.grantState = 1 ∧
      (t.tstPort k).grantOpen = some seq ∧
      t.sent.map (fun m => (m.dest, m.addr)) = [(.yobel k, 0x600), (.yobel k, 0x608), (.yobel k, 0x610)]) ∧
  (∀ (rq : Req) (k : Fin 9) (seq : BitVec 16) (set : BitVec 32) (s : State), s.served rq false .both = true →
    seq ≠ s.tst.grantActed → s.portUp k = false →
    ∃ t, exec (.testGrant rq (BitVec.ofNat 4 k) seq set) s = .next t ∧ t.answeredOnly s rq .ok ∧ t.tst.grantState = 3 ∧
      t.tst.grantCause = 1 ∧ t.sent = []) ∧
  (∀ (k : Fin 9) (s : State), (s.tstPort k).draining = true →
    (∀ e ∈ s.entriesAt k, e.2.st = .fenced ∨ e.2.st = .free) →
    ∃ t, exec (.accelDrain k) s = .next t ∧ (t.port k).state = .quarantine ∧ (t.port k).qcause = 8 ∧
      (t.tstPort k).flagged = true ∧ (t.tstPort k).draining = false ∧ t.tally 26 = satInc (s.tally 26)) ∧
  (∀ (k : Fin 9) (s : State), (∃ e ∈ s.entriesAt k, e.2.st = .live) → exec (.accelDrain k) s = .next s.begin) ∧
  (∀ (rq : Req) (s : State), s.served rq false .both = true → (∀ n : Fin 16, (s.ctx n).life.waitReq = none) →
    ∃ t, exec (.selfDrain rq) s = .next t ∧ t.answeredOnly s rq .ok ∧ t.rst.oos = true ∧ t.tst.flagged = true ∧
      t.rst.oosCause = (if s.rst.oos then s.rst.oosCause else 3))

/-- O44. With a fresh SEQNO, INSTALL of the staged pack answers OK and either adds it, in place of an older set of its
number, with state DONE, or leaves the sets with the first cause of R255 that holds; with no pack staged the cause is 1.
DELETE of a set that is not active removes it; of the active set it is refused with 7. OPEN shows the newest signature of
its unit from its first byte, or state 2 where there is none; each read of TST_SIG_DATA while open answers the next 8 bytes,
0 past the end, and moves on; CLOSE ends it. (R254, R255, R263, R264, R412) -/
def Obligations.PatternPacksAndSignatures : Prop :=
  (∀ (rq : Req) (set : BitVec 32) (seq : BitVec 16) (b : Bytes) (s : State), s.served rq false .both = true →
    seq ≠ s.tst.packActed → s.kin.pack = some b →
    ∃ t, exec (.packInstall rq set seq) s = .next t ∧ t.answeredOnly s rq .ok ∧ t.tst.packActed = seq ∧
      t.tst.packCause = BitVec.ofNat 8 s.installCause ∧
      t.tst.packState = (if s.installCause = 0 then 2 else 3) ∧
      t.tst.sets = if s.installCause = 0 ∧ s.evr.stopped.contains 0 = false
        then s.tst.sets.filter (fun x => x.set ≠ (State.parsePack b).set) ++ [State.parsePack b] else s.tst.sets) ∧
  (∀ (rq : Req) (set : BitVec 32) (seq : BitVec 16) (s : State), s.served rq false .both = true →
    seq ≠ s.tst.packActed →
    (s.kin.pack = none → ∃ t, exec (.packInstall rq set seq) s = .next t ∧ t.answeredOnly s rq .ok ∧ t.tst.packState = 3 ∧
      t.tst.packCause = 1 ∧ t.tst.sets = s.tst.sets) ∧
    (set ≠ s.tst.active → ∃ t, exec (.packDelete rq set seq) s = .next t ∧ t.answeredOnly s rq .ok ∧ t.tst.packState = 2 ∧
      t.tst.sets = s.tst.sets.filter fun x => x.set ≠ set) ∧
    (set = s.tst.active → ∃ t, exec (.packDelete rq set seq) s = .next t ∧ t.answeredOnly s rq .ok ∧ t.tst.packState = 3 ∧
      t.tst.packCause = 7 ∧ t.tst.sets = s.tst.sets)) ∧
  (∀ (rq : Req) (cls idx : BitVec 8) (seq : BitVec 16) (s : State), s.served rq false .both = true → seq ≠ s.tst.sigActed →
    (∀ g, (s.tst.signatures.filter fun g => g.unit.cls = cls && g.unit.index = idx).getLast? = some g →
      ∃ t, exec (.sigOpen rq cls idx seq) s = .next t ∧ t.answeredOnly s rq .ok ∧ t.tst.sigState = 1 ∧
        t.tst.sigStream = g.stream ∧ t.tst.sigCursor = 0 ∧ t.tst.signatures = s.tst.signatures) ∧
    ((∀ g ∈ s.tst.signatures, ¬ (g.unit.cls = cls ∧ g.unit.index = idx)) →
      ∃ t, exec (.sigOpen rq cls idx seq) s = .next t ∧ t.answeredOnly s rq .ok ∧ t.tst.sigState = 2) ∧
    (∃ t, exec (.sigClose rq cls idx seq) s = .next t ∧ t.answeredOnly s rq .ok ∧ t.tst.sigState = 0 ∧
      t.tst.signatures = s.tst.signatures)) ∧
  (∀ (rq : Req) (s : State), s.served rq false .both = true → s.keptAnswer rq 0xD0D0 = none →
    (s.tst.sigState = 1 → ∃ t, exec (.sigDataRead rq) s = .next t ∧ t.tst = { s.tst with sigCursor := s.tst.sigCursor + 8 } ∧
      t.answeredOnly s rq .ok 0 (Bytes.at s.tst.sigStream s.tst.sigCursor 8)) ∧
    (s.tst.sigState ≠ 1 → ∃ t, exec (.sigDataRead rq) s = .next t ∧ t.tst = s.tst ∧
      t.answeredOnly s rq .ok 0 (List.replicate 8 0)))

/-- O45. A newly accepted ACTIVATE of a CHARTERED context with no wiring neighbour in its charter: a definition that fails a
check of R269 answers NACK_BUSY with the refusal's cause, ALC_ACT_LAST holds it and the context stays CHARTERED (out of
service gives code 1); one that passes and needs no page and no transfer makes it ACTIVE with a new epoch, its steps at
START_STEP, the watchdog armed. A neighbour's CHARTER_CHECK is answered with this Azard's charter digest; another digest
than this Azard's refuses the activation with code 6, or with an earlier check's that fails here too. QUIESCE with no
attempt open gives QUIESCED; RESUME with no entry here gives ACTIVE, and RESUME_COMPLETE only once nothing of the RESUME is
left. RELEASE sends a context without entries, bindings, pairs or a checkpoint here to WIPING or EMPTY; CLEAR erases an
EMPTY context's charter bytes. A command in a state that does not accept it answers NACK_BUSY CONTEXT_STATE with CAUSE 8;
the repeat of a SEQ gets the stored outcome. Other contexts and the shard ledger stay as they are. (R138, R164, R269, R271,
R276, R334, R335, R339, R407) -/
def Obligations.ContextCommands : Prop :=
  (∀ (rq : Req) (n : Fin 16) (seq : BitVec 16) (c : ClrCtx) (s : State), s.ctxWrite rq n seq .charter = true →
    (s.ctx n).life.st = .chartered → (s.ctx n).life.activating = false → s.charterNeighbours n = [] →
    (s.judged n seq).judgeDefinition n = .ok c → s.entriesOf n = [] → s.localNodes n = [] → (∀ g ∈ c.groups, g.rootPages = 0) →
    ∃ t, exec (.ctxActivate rq n seq) s = .next t ∧ t.answers.map (fun a => a.result) = [.ok] ∧
      (t.ctx n).life.st = .active ∧ (t.ctx n).epoch = (s.ctx n).epoch + 1 ∧
      (t.ctx n).step.released = (s.ctx n).life.charter.startStep ∧ (t.ctx n).step.voted = (s.ctx n).life.charter.startStep ∧
      (t.ctx n).life.stepRoot = decide (c.root = (s.ctx n).life.self) ∧ (t.ctx n).wd.armed = true ∧
      (t.ctx n).clr.groups = c.groups ∧ t.otherCtxs s n ∧ t.mir = s.mir) ∧
  (∀ (rq : Req) (n : Fin 16) (seq : BitVec 16) (code : Nat) (s : State), s.ctxWrite rq n seq .charter = true →
    (s.ctx n).life.st = .chartered → (s.ctx n).life.activating = false → s.charterNeighbours n = [] →
    (s.judged n seq).judgeDefinition n = .error code →
    ∃ t, exec (.ctxActivate rq n seq) s = .next t ∧ t.answeredOnly s rq .nackBusy (BitVec.ofNat 8 (code + 0x1F)) ∧
      (t.ctx n).life.st = .chartered ∧ (t.ctx n).epoch = (s.ctx n).epoch ∧ t.alc.actLastCtx = BitVec.ofNat 4 n ∧
      t.alc.actLastCause = BitVec.ofNat 8 code ∧ t.otherCtxs s n ∧ t.mir = s.mir) ∧
  (∀ (n : Fin 16) (seq : BitVec 16) (s : State), s.rst.oos = true → (s.judged n seq).judgeDefinition n = .error 1) ∧
  (∀ (rq : Req) (d : Digest) (s : State), s.reaches rq false = true →
    ∃ t, exec (.charterCheckReceived rq false d) s = .next t ∧ t.answeredOnly s rq .ok ∧ t.ctxs = s.ctxs ∧
      t.sent = [{ dest := .node rq.ctx rq.source, op := .msg, kind := 0x35, args := [1, (s.ctx rq.ctx).life.digest.toNat] }]) ∧
  (∀ (rq q : Req) (d : Digest) (s : State), s.reaches rq false = true → (s.ctx rq.ctx).life.waitReq = some q →
    (s.ctx rq.ctx).life.activating = false → (s.ctx rq.ctx).life.checks.contains rq.source = true →
    d ≠ (s.ctx rq.ctx).life.digest →
    let code := (match s.begin.judgeDefinition rq.ctx with | .error c => min c 6 | .ok _ => 6)
    ∃ t, exec (.charterCheckReceived rq true d) s = .next t ∧
      t.answers.map (fun a => (a.result, a.cause)) = [(.nackBusy, BitVec.ofNat 8 (code + 0x1F)), (.ok, 0)] ∧
      t.alc.actLastCause = BitVec.ofNat 8 code ∧
      (t.ctx rq.ctx).life.st = .chartered ∧ (t.ctx rq.ctx).life.waitReq = none ∧ t.otherCtxs s rq.ctx) ∧
  (∀ (rq : Req) (n : Fin 16) (seq : BitVec 16) (s : State), s.ctxWrite rq n seq .charter = true →
    (s.ctx n).life.st = .active → (s.ctx n).life.quiescing = false → s.openAtt n = none →
    ∃ t, exec (.ctxQuiesce rq n seq) s = .next t ∧ t.answeredOnly s rq .ok ∧ (t.ctx n).life.st = .quiesced ∧
      (t.ctx n).life.quiescing = false ∧ (t.ctx n).life.acted = seq ∧ (t.ctx n).step = (s.ctx n).step ∧ t.otherCtxs s n ∧
      t.mir = s.mir) ∧
  (∀ (rq : Req) (n : Fin 16) (seq : BitVec 16) (s : State), s.ctxWrite rq n seq .charter = true →
    (s.ctx n).life.st = .quiesced → (s.ctx n).life.resuming = false → s.entriesOf n = [] →
    ∃ t, exec (.ctxResume rq n seq) s = .next t ∧ t.answeredOnly s rq .ok ∧ (t.ctx n).life.st = .active ∧
      (t.ctx n).life.resuming = false ∧ (t.ctx n).life.waitReq = none ∧ (t.ctx n).step = (s.ctx n).step ∧ t.otherCtxs s n ∧
      t.mir = s.mir) ∧
  (∀ (n : Fin 16) (s : State), exec (.resumeComplete n) s = .next (if s.resumeDone n then s.begin.setCtx n { s.ctx n with
    life.st := .active, life.resuming := false } else s.begin)) ∧
  (∀ (rq : Req) (n : Fin 16) (seq : BitVec 16) (s : State), s.ctxWrite rq n seq .both = true → s.bareContext n = true →
    (s.ctx n).life.waitReq = none →
    ∃ t, exec (.ctxRelease rq n seq) s = .next t ∧ t.answeredOnly s rq .ok ∧
      ((t.ctx n).life.st = .wiping ∨ (t.ctx n).life.st = .empty) ∧ (t.ctx n).epoch = (s.ctx n).epoch ∧
      (t.ctx n).bind.bound = [] ∧ (t.ctx n).wd = {}) ∧
  (∀ (rq : Req) (n : Fin 16) (seq : BitVec 16) (s : State), s.ctxWrite rq n seq .both = true → (s.ctx n).life.st = .empty →
    ∃ t, exec (.ctxClear rq n seq) s = .next t ∧ t.answeredOnly s rq .ok ∧ (t.ctx n).life.st = .empty ∧
      (t.ctx n).life.bytes = [] ∧ (t.ctx n).life.units = [] ∧ (t.ctx n).life.length = none ∧ (t.ctx n).life.count = 0 ∧
      (t.ctx n).life.cause = (s.ctx n).life.cause ∧ (t.ctx n).step = (s.ctx n).step ∧ t.otherCtxs s n ∧ t.mir = s.mir) ∧
  (∀ (rq : Req) (n : Fin 16) (seq : BitVec 16) (c : Instr) (s : State), s.ctxWrite rq n seq .charter = true →
    (c = .ctxActivate rq n seq ∧ (s.ctx n).life.st ≠ .chartered ∨ c = .ctxQuiesce rq n seq ∧ (s.ctx n).life.st ≠ .active ∨
      c = .ctxResume rq n seq ∧ (s.ctx n).life.st ≠ .quiesced ∨ c = .ctxClear rq n seq ∧ (s.ctx n).life.st ≠ .empty) →
    ∃ t, exec c s = .next t ∧ t.answeredOnly s rq .nackBusy 1 ∧ (t.ctx n).life.st = (s.ctx n).life.st ∧
      (t.ctx n).life.cause = 8 ∧ (t.ctx n).step = (s.ctx n).step ∧ t.otherCtxs s n ∧ t.mir = s.mir) ∧
  (∀ (rq : Req) (n : Fin 16) (s : State), s.served rq false .charter = true → rq.ctx = n → (s.ctx n).life.waitReq = none →
    ∃ t, exec (.ctxQuiesce rq n (s.ctx n).life.acted) s = .next t ∧ (t.ctx n).life.st = (s.ctx n).life.st ∧ t.otherCtxs s n ∧
      (match (s.ctx n).life.outcome with
        | .ok => t.answeredOnly s rq .ok
        | .busy k => t.answeredOnly s rq .nackBusy k))

/-- O46. A page wiped and read back, with no context waiting, WIPING or resuming and no entry, is CLEAN in its stack and off
the queue's head; one whose read-back fails is RETIRED; the last page of a WIPING context makes it EMPTY with its charter
erased and the zeroisation counted. The end of a waiting context's window returns it to CHARTERED with code 10 in
ALC_ACT_LAST and its pages CLEAN; before it nothing changes. A page move that R273 allows takes a CLEAN page of the target
stack, makes the source page DIRTY, is counted and leaves the copy's bytes alone; another changes nothing. A parked copy
without pages answers the RESUME NACK_BUSY PARKED and the context stays QUIESCED. A bind that R228 refuses shows the first
cause and binds nothing; one accepted, with no entry here and the node unbound, binds the node to the port and is in
progress. Only an endpoint of the context itself may bind. (R228, R229, R230, R266, R267, R271, R273, R276, R334, R350) -/
def Obligations.PagesAndBinds : Prop :=
  (∀ (r : DirtyRun) (q : List DirtyRun) (s : State), s.alc.dirty = r :: q → (s.hbm r.stack).failed = false → s.mir.entries = [] →
    s.alc.waiters = [] → (∀ m : Fin 16, (s.ctx m).life.st ≠ .wiping ∧ (s.ctx m).life.resuming = false) →
    (∃ t, exec (.pageWipeDone true) s = .next t ∧
      t.alc.dirty = (if r.count ≤ 1 then q else { r with count := r.count - 1 } :: q) ∧ t.ctxs = s.ctxs ∧ t.evr = s.evr ∧
      t.hbm r.stack = (if r.part = .mirror then { s.hbm r.stack with cleanMirror := (s.hbm r.stack).cleanMirror + 1 }
        else { s.hbm r.stack with cleanEscrow := (s.hbm r.stack).cleanEscrow + 1 }) ∧
      ∀ k, k ≠ r.stack → t.hbm k = s.hbm k) ∧
    (∃ t, exec (.pageWipeDone false) s = .next t ∧
      t.alc.dirty = (if r.count ≤ 1 then q else { r with count := r.count - 1 } :: q) ∧ t.ctxs = s.ctxs ∧
      t.hbm r.stack = { s.hbm r.stack with retiredPages := (s.hbm r.stack).retiredPages + 1 } ∧
      ∀ k, k ≠ r.stack → t.hbm k = s.hbm k)) ∧
  (∀ (n : Fin 16) (r : DirtyRun) (s : State), s.alc.dirty = [r] → r.count ≤ 1 → s.mir.entries = [] → s.alc.waiters = [] →
    (s.ctx n).life.st = .wiping → (∀ m : Fin 16, m ≠ n → (s.ctx m).life.st ≠ .wiping ∧ (s.ctx m).life.resuming = false) →
    ∃ t, exec (.pageWipeDone true) s = .next t ∧ (t.ctx n).life.st = .empty ∧ (t.ctx n).life.charter = {} ∧
      (t.ctx n).life.receipts = [] ∧ (t.ctx n).esc.key = none ∧ t.sec.zeroCount = satInc s.sec.zeroCount ∧ t.sec.zeroLast = 1 ∧
      t.otherCtxs s n) ∧
  (∀ (n : Fin 16) (w : Waiter) (s : State), s.alc.waiters = [w] → w.ctx = n → (s.ctx n).life.activating = false →
    (w.deadline.toNat ≤ s.now.toNat → ∃ t, exec (.cleanTimeout n) s = .next t ∧ t.alc.waiters = [] ∧ t.alc.actLastCause = 10 ∧
      t.alc.actLastCtx = BitVec.ofNat 4 n ∧ (t.ctx n).life.st = .chartered ∧ (t.ctx n).life.outcome = .busy 0x29 ∧
      t.otherCtxs s n ∧ t.mir = s.mir ∧
      ∀ k, (t.hbm k).cleanMirror = (s.hbm k).cleanMirror + pageCount (w.held.filter fun x => x.1 = k)) ∧
    (s.now.toNat < w.deadline.toNat → exec (.cleanTimeout n) s = .next s.begin)) ∧
  (∀ (e : BitVec 16) (src dst : Fin 8) (reason : BitVec 2) (last : Bool) (s : State), s.mayMove e.toNat src dst reason = true →
    ∃ t, exec (.pageMove e src dst reason last) s = .next t ∧
      t.entry e.toNat = { s.entry e.toNat with alloc := State.shiftPage (s.entry e.toNat).alloc src dst } ∧ t.entryOnly s e.toNat ∧
      (t.hbm dst).cleanMirror + 1 = (s.hbm dst).cleanMirror ∧ (∀ k, k ≠ dst.val → t.hbm k = s.hbm k) ∧
      t.alc.dirty = s.alc.dirty ++ [{ owner := some (ctxFin (s.entry e.toNat).ctx.toNat), part := .mirror, stack := src, count := 1 }] ∧
      t.alc.moved = satInc s.alc.moved ∧ t.alc.moving.contains e.toNat = !last ∧ t.ctxs = s.ctxs) ∧
  (∀ (e : BitVec 16) (src dst : Fin 8) (reason : BitVec 2) (last : Bool) (s : State), s.mayMove e.toNat src dst reason = false →
    exec (.pageMove e src dst reason last) s = .next s.begin) ∧
  (∀ (n : Fin 16) (q : Req) (s : State), (s.ctx n).life.waitReq = some q → (s.ctx n).life.resuming = true →
    (s.ctx n).life.st = .quiesced →
    ∃ t, exec (.parkedTimeout n) s = .next t ∧ t.answeredOnly s q .nackBusy 0x0C ∧ (t.ctx n).life.st = .quiesced ∧
      (t.ctx n).life.resuming = false ∧ (t.ctx n).life.waitReq = none ∧ (t.ctx n).life.outcome = .busy 0x0C ∧ t.otherCtxs s n ∧
      t.mir = s.mir) ∧
  (∀ (rq : Req) (n : Fin 16) (logical : BitVec 16) (port : BitVec 4) (seq : BitVec 16) (c : Nat) (s : State),
    s.served rq false .charter = true → rq.ctx = n → seq ≠ (s.ctx n).bind.acted → s.bindCause n logical port = some c →
    ∃ t, exec (.bindNode rq n logical port seq) s = .next t ∧ t.answeredOnly s rq .ok ∧ (t.ctx n).bind.st = 3 ∧
      (t.ctx n).bind.cause = BitVec.ofNat 8 c ∧ (t.ctx n).bind.oldPort = 0xF ∧ (t.ctx n).bind.bound = (s.ctx n).bind.bound ∧
      (t.ctx n).life = (s.ctx n).life ∧ t.otherCtxs s n ∧ t.mir = s.mir ∧ t.ports = s.ports) ∧
  (∀ (rq : Req) (n : Fin 16) (logical : BitVec 16) (port : BitVec 4) (seq : BitVec 16) (s : State),
    s.served rq false .charter = true → rq.ctx = n → seq ≠ (s.ctx n).bind.acted → s.bindCause n logical port = none →
    s.entriesOf n = [] → s.portOfNode n logical = none →
    ∃ t, exec (.bindNode rq n logical port seq) s = .next t ∧ t.answeredOnly s rq .ok ∧ (t.ctx n).bind.st = 1 ∧
      (t.ctx n).bind.cause = 0 ∧ (t.ctx n).bind.oldPort = 0xF ∧ (t.ctx n).bind.bound = (s.ctx n).bind.bound ++ [(logical, port)] ∧
      (t.ctx n).bind.ids ≠ [] ∧ (t.ctx n).life = (s.ctx n).life ∧ t.otherCtxs s n ∧ t.mir = s.mir ∧ t.ports = s.ports) ∧
  (∀ (rq : Req) (n : Fin 16) (logical : BitVec 16) (port : BitVec 4) (seq : BitVec 16) (s : State),
    s.served rq false .charter = true → rq.ctx ≠ n →
    exec (.bindNode rq n logical port seq) s = .next (s.begin.answer rq .nackAccess))

/-- O47. A WRC of charter units to an EMPTY context stores the units that are new and answers OK; one that breaks the unit
rules answers NACK_ADDRESS, one to a context that is not EMPTY NACK_ACCESS. The unit that completes LENGTH has the charter
judged: CHARTERED with the SHA3-256 digest of its bytes when every check passes, else EMPTY with the first failing check in
CAUSE. A key release is open to WRC by endpoints of its own context only; the unit that completes it has it judged: refused
with REL_CAUSE and the old keys kept, or its keys taken and sent to the charter's other Azards; its bytes are not kept.
Released keys that an Azard of the charter sends are taken; a restored position from the root is taken by a QUIESCED
context. The step root keeps a node's note for a step that has no receipt yet, and drops one that has. The identity chain is
readable at its offset. (R215, R333, R334, R336, R340, R343, R344, R346) -/
def Obligations.CharterAndKeyReleaseLoading : Prop :=
  (∀ (rq : Req) (n : Fin 16) (off len : Nat) (data : Bytes) (s : State), s.opened rq = true → off < 2 ^ 32 →
    ((s.ctx n).life.st ≠ .empty → exec (.charterWrc rq .wrc (2 ^ 40 + n * 2 ^ 36 + off) len data) s =
      .next (s.begin.answer rq .nackAccess)) ∧
    ((s.ctx n).life.st = .empty → unitsOk off data.length ((s.ctx n).life.length.getD charterMax) = false →
      exec (.charterWrc rq .wrc (2 ^ 40 + n * 2 ^ 36 + off) len data) s = .next (s.begin.answer rq .nackAddress)) ∧
    ((s.ctx n).life.st = .empty → (s.ctx n).life.length = none → 256 ≤ off → (s.ctx n).life.units.contains 0 = false →
      unitsOk off data.length charterMax = true →
      ∃ t, exec (.charterWrc rq .wrc (2 ^ 40 + n * 2 ^ 36 + off) len data) s = .next t ∧ t.answeredOnly s rq .ok ∧
        (t.ctx n).life.st = .empty ∧ t.otherCtxs s n ∧ t.mir = s.mir ∧
        (∀ u, u ∈ (t.ctx n).life.units ↔ (u ∈ (s.ctx n).life.units ∨ u ∈ unitsOf off data.length) ∧ 256 * u < charterMax) ∧
        ∀ a, (t.ctx n).life.bytes.byte a = if off ≤ a ∧ a < off + data.length ∧ a / 256 ∉ (s.ctx n).life.units
          then data.getD (a - off) 0 else (s.ctx n).life.bytes.byte a) ∧
    (∀ b, (s.ctx n).life.st = .empty → (s.ctx n).life.length = some b → unitsOk off data.length b = true → data ≠ [] →
      (∀ u ∈ unitsOf off data.length, u ∉ (s.ctx n).life.units) →
      State.unitsBytes (((s.ctx n).life.units ++ unitsOf off data.length).filter fun u => decide (256 * u < b)) b = b →
      ∃ t, exec (.charterWrc rq .wrc (2 ^ 40 + n * 2 ^ 36 + off) len data) s = .next t ∧ t.answeredOnly s rq .ok ∧
        t.otherCtxs s n ∧ t.mir = s.mir ∧
        (∀ a, (t.ctx n).life.bytes.byte a = if off ≤ a ∧ a < off + data.length
          then data.getD (a - off) 0 else (s.ctx n).life.bytes.byte a) ∧
        (if s.charterCause n (t.ctx n).life.bytes b = 0 then (t.ctx n).life.st = .chartered ∧
            (t.ctx n).life.digest = hash256 ((t.ctx n).life.bytes.read 0 b) ∧
            (t.ctx n).life.charter = parseCharter (t.ctx n).life.bytes
          else (t.ctx n).life.st = .empty ∧
            (t.ctx n).life.cause = BitVec.ofNat 4 (s.charterCause n (t.ctx n).life.bytes b)))) ∧
  (∀ (rq : Req) (op : OpCode) (n : Fin 16) (off : Nat) (data : Bytes) (s : State), s.reachesByPort rq = true →
    (s.endpoint rq = false ∨ rq.ctx ≠ n ∨ op ≠ .wrc) →
    exec (.keyRelease rq op n off data) s = .next (s.begin.answer rq .nackAccess)) ∧
  (∀ (rq : Req) (n : Fin 16) (off b : Nat) (data : Bytes) (s : State), s.reachesByPort rq = true → s.endpoint rq = true →
    rq.ctx = n → off < 2 ^ 32 → 256 ≤ off → (s.ctx n).life.relUnits.contains 0 = true → (s.ctx n).life.relBytes.le 8 4 = b →
    State.releaseLength 1 ≤ b → b ≤ State.releaseLength 255 → unitsOk off data.length b = true → (s.ctx n).esc.rstState ≠ 1 →
    (∀ u ∈ unitsOf off data.length, u ∉ (s.ctx n).life.relUnits) →
    State.unitsBytes (((s.ctx n).life.relUnits ++ unitsOf off data.length).filter fun u => decide (256 * u < b)) b = b →
    ∃ t m, exec (.keyRelease rq .wrc n off data) s = .next t ∧ t.answeredOnly s rq .ok ∧ (t.ctx n).life.relBytes = [] ∧
      (t.ctx n).life.relUnits = [] ∧ t.otherCtxs s n ∧ t.mir = s.mir ∧
      (∀ a, a < b → Mem.byte m a = if off ≤ a ∧ a < off + data.length then data.getD (a - off) 0
        else (s.ctx n).life.relBytes.byte a) ∧
      (match s.judgeRelease n m b with
        | .error c => (t.ctx n).life.relCause = BitVec.ofNat 4 c ∧ (t.ctx n).life.relKeys = (s.ctx n).life.relKeys ∧ t.sent = []
        | .ok ks => (t.ctx n).life.relKeys = ks ∧ (t.ctx n).life.relKeysN = BitVec.ofNat 16 ks.length ∧
          (t.ctx n).life.relSeq = BitVec.ofNat 64 (m.le 0x38 8) ∧
          t.sent.map (fun x => x.dest) = (s.charterAzards n).map (fun z => .node rq.ctx z))) ∧
  (∀ (rq : Req) (m : RestoreDist) (s : State), s.reaches rq false = true →
    (m.release = true → (s.ctx rq.ctx).life.st ≠ .empty → (s.ctx rq.ctx).life.st ≠ .wiping →
      (s.charterAzards rq.ctx).contains rq.source = true →
      ∃ t, exec (.restoreDistReceived rq m) s = .next t ∧ t.answeredOnly s rq .ok ∧ (t.ctx rq.ctx).life.relKeys = m.keys ∧
        (t.ctx rq.ctx).step = (s.ctx rq.ctx).step ∧ t.otherCtxs s rq.ctx) ∧
    (m.release = false → (s.ctx rq.ctx).life.st = .quiesced → rq.source = (s.ctx rq.ctx).clr.root →
      ∃ t, exec (.restoreDistReceived rq m) s = .next t ∧ t.answeredOnly s rq .ok ∧
        (t.ctx rq.ctx).step.released = m.step ∧ (t.ctx rq.ctx).step.voted = m.step ∧ (t.ctx rq.ctx).step.baseStep = m.step ∧
        (t.ctx rq.ctx).step.restored = m.plain ∧ (t.ctx rq.ctx).esc.rstSeq = m.seq ∧ (t.ctx rq.ctx).esc.rstStep = m.step ∧
        (t.ctx rq.ctx).esc.rstKeys = m.keys ∧ (t.ctx rq.ctx).life = (s.ctx rq.ctx).life ∧ t.otherCtxs s rq.ctx ∧ t.mir = s.mir) ∧
    (m.release = false → ((s.ctx rq.ctx).life.st ≠ .quiesced ∨ rq.source ≠ (s.ctx rq.ctx).clr.root) →
      exec (.restoreDistReceived rq m) s = .next (s.begin.answer rq .ok))) ∧
  (∀ (rq : Req) (step : Word) (roots : VoteRoots) (z : BitVec 16) (s : State), s.reaches rq false = true →
    (s.ctx rq.ctx).life.stepRoot = true → (s.ctx rq.ctx).clr.azards.contains rq.source = true →
    z ∈ (s.ctx rq.ctx).clr.azards → z ≠ rq.source → (∀ v ∈ (s.ctx rq.ctx).life.notes, v.node ≠ z) →
    ∃ t, exec (.voteNoteReceived rq step roots) s = .next t ∧ t.answeredOnly s rq .ok ∧ t.otherCtxs s rq.ctx ∧
      (t.ctx rq.ctx).life.notes = (if step.toNat ≤ (s.ctx rq.ctx).life.issued.toNat then (s.ctx rq.ctx).life.notes
        else ((s.ctx rq.ctx).life.notes.filter fun x => !(x.node = rq.source && x.step = step)) ++
          [{ node := rq.source, step := step, roots := roots.roots, included := roots.included }]) ∧
      (t.ctx rq.ctx).life.receipts = (s.ctx rq.ctx).life.receipts) ∧
  (∀ (rq : Req) (off len : Nat) (data : Bytes) (s : State), s.opened rq = true → off < 0x10000 →
    let chain := natLe 4 s.sec.identityChain.length ++ natLe 4 0 ++ s.sec.identityChain
    off + len ≤ chain.length →
    exec (.charterWrc rq .rd (3 * 2 ^ 40 + off) len data) s = .next (s.begin.answer rq .ok 0 ((chain.drop off).take len)))

/-- O48. Each word written to SEC_LC_DATA is appended to the command object, once for a repeated request. A command under a
new SEQ with a whole object is judged by R353's checks: refused, it shows its cause, the life cycle stays, and SEC_LC_STATUS
reads REFUSED; accepted, ROTATE changes the operator key only and PROVISION gives a new identity, both without a kindling;
ENROLL, DISOWN, SERVICE and RETIRE begin a kindling of kind 5 in the state R348 names, with the new operator key, without
one, with JTAG open and every secret gone, or RETIRED. The object is emptied either way. A failed health test is counted;
the third within 1 s is a package recovery with cause 3 while Azard is in service. A reseed is counted and starts the
request count anew. Outside SERVICE an edge of TCK leaves the test access port in Test-Logic-Reset whatever TMS is, and TDO
is not driven; in SERVICE it takes the controller on. (R21, R330, R348, R349, R350, R353, R354, R412, R423) -/
def Obligations.LifeCycleAndEntropy : Prop :=
  (∀ (rq : Req) (data : Word) (s : State), s.served rq true .both = true → s.keptAnswer rq 0xF060 = none →
    ∃ t, exec (.lcDataWrite rq data) s = .next t ∧ t.answeredOnly s rq .ok ∧ t.sec.lcData = s.sec.lcData ++ natLe 8 data.toNat ∧
      t.sec.lc = s.sec.lc ∧ t.ctxs = s.ctxs) ∧
  (∀ (rq : Req) (data : Word) (a : KeptAnswer) (s : State), s.served rq true .both = true → s.keptAnswer rq 0xF060 = some a →
    exec (.lcDataWrite rq data) s = .next (s.begin.again rq a.answer)) ∧
  (∀ (rq : Req) (length : BitVec 32) (seq : BitVec 16) (k : Nat) (c : Instr) (s : State), s.lcWrite rq length seq = true →
    (c = .lcEnroll rq length seq ∧ k = 1 ∨ c = .lcRotate rq length seq ∧ k = 2 ∨ c = .lcDisown rq length seq ∧ k = 3 ∨
      c = .lcService rq length seq ∧ k = 4 ∨ c = .lcRetire rq length seq ∧ k = 5 ∨ c = .lcProvision rq length seq ∧ k = 6) →
    let o := s.lcObject k length
    let why := s.lcCause k o
    ∃ t, exec c s = .next t ∧ t.answeredOnly s rq .ok ∧ t.sec.lcData = [] ∧
      (why ≠ 0 → t.sec.lc = s.sec.lc ∧ t.sec.lcState = 3 ∧ t.sec.lcCause = BitVec.ofNat 8 why ∧ t.sec.lcActed = seq ∧
        t.sec.opKey = s.sec.opKey ∧ t.sec.identityKey = s.sec.identityKey ∧ t.ctxs = s.ctxs ∧ t.kin = s.kin) ∧
      (why = 0 → some t.sec.lc = lcNext s.sec.lc k) ∧
      (why = 0 → k = 2 → t.sec.lcState = 2 ∧ t.sec.opKey = (o.drop 0x20).take 1793 ∧ t.sec.identityKey = s.sec.identityKey ∧
        t.ctxs = s.ctxs ∧ t.kin = s.kin) ∧
      (why = 0 → k = 6 → t.sec.lcState = 2 ∧ t.sec.opKey = s.sec.opKey ∧ t.sec.identity = hash256 t.sec.identityKey ∧
        t.ctxs = s.ctxs ∧ t.kin = s.kin) ∧
      (why = 0 → k ≠ 2 → k ≠ 6 → t.enteredFrom s 5) ∧
      (why = 0 → k = 1 → t.sec.opKey = (o.drop 0x20).take 1793 ∧ t.sec.identityKey = s.sec.identityKey) ∧
      (why = 0 → k = 3 → t.sec.opKey = [] ∧ t.sec.identityKey = s.sec.identityKey) ∧
      (why = 0 → k = 4 ∨ k = 5 → t.sec.opKey = [] ∧ t.sec.identityKey = [] ∧ t.sec.kemKey = [] ∧ t.sec.jtag = decide (k = 4))) ∧
  (∀ s : State, s.kin.power = .ready → s.sec.failTimes.length < 2 →
    exec .entropyHealthFail s = .next { s.begin with
      sec.healthFail := satInc s.sec.healthFail
      sec.failTimes := s.sec.failTimes ++ [s.now] }) ∧
  (∀ (a b : Word) (s : State), s.kin.power = .ready → s.sec.failTimes = [a, b] → (s.now - a).toNat < second →
    ∃ t, exec .entropyHealthFail s = .next t ∧ t.enteredFrom s 4 ∧ t.rst.recoveryCause = 3) ∧
  (∀ (a b : Word) (s : State), s.kin.power = .ready → s.sec.failTimes = [a, b] → second ≤ (s.now - a).toNat →
    exec .entropyHealthFail s = .next { s.begin with
      sec.healthFail := satInc s.sec.healthFail
      sec.failTimes := [a, b, s.now] }) ∧
  (∀ s : State, s.sec.drbgValid = true → exec .drbgReseed s = .next { s.begin with
    sec.reseeds := satInc s.sec.reseeds
    sec.requests := 0 }) ∧
  (∀ (tms : Bool) (s : State), s.sec.lc ≠ .service → (s.tckEdge tms).sec.tap = .testLogicReset ∧ s.tdoDriven = false ∧
    (s.tckEdge tms).tdoDriven = false) ∧
  (∀ (tms : Bool) (s : State), s.sec.lc = .service → (s.tckEdge tms).sec.tap = s.sec.tap.next tms)

/-- O49. The drain of an included entry sends the PAGE object of its next page when the held content has the voted digest;
otherwise it counts a refetch and asks the other mirror for the page, and with none abandons the checkpoint. With every page
acknowledged and voted its SHARD_MANIFEST goes out. An OK to a page's PUT acknowledges the page, ends its hold and tells the
other mirror; the OK to the last CHECKPOINT_MANIFEST commits, as CKPT_COMMIT from the root does: DONE_SEQ and DONE_STEP are
the checkpoint's and its key and holds end. DRAIN_ACK acknowledges at the other mirror. The step root keeps one SHARD_DONE a
shard, and sends one CHECKPOINT_MANIFEST to each target once all are in. ABANDON, from a node or a charter endpoint, ends
the checkpoint with its cause. SELECT asks every flue target for its manifests and, once they have answered, is refused with
the code of R219 or accepts the step of the newest usable manifest. (R199, R201, R204, R206, R207, R212, R213, R214, R215,
R218, R219) -/
def Obligations.CheckpointsDrainAndCommit : Prop :=
  (∀ (c : Fin 16) (s : State), (s.ctx c).esc.included = [] → exec (.drainPut c) s = .next s.begin) ∧
  (∀ (c : Fin 16) (i : BitVec 16) (p : Nat) (s : State), (s.ctx c).esc.included = [i] → State.drains (s.entry i.toNat) = true →
    s.nextPage c i.toNat = some p → s.mayPut c i.toNat = true →
    ∃ t, exec (.drainPut c) s = .next t ∧ t.answers = [] ∧
      (s.heldOk i.toNat p (s.heldContent c i.toNat p) = true →
        t.sent.map (fun m => (m.op, m.args, m.data)) = [(.wrc, [1, 1, i.toNat, p, (s.ctx c).esc.curSeq.toNat],
          s.pageObject c i.toNat p (s.heldContent c i.toNat p))] ∧
        (t.ctx c).esc.puts.length = (s.ctx c).esc.puts.length + 1 ∧ t.mir = s.mir ∧ t.esc.refetch = s.esc.refetch) ∧
      (s.heldOk i.toNat p (s.heldContent c i.toNat p) = false → State.otherLost (s.entry i.toNat) = false →
        t.entry i.toNat = { s.entry i.toNat with heldAsked := (s.entry i.toNat).heldAsked ++ [p] } ∧ t.entryOnly s i.toNat ∧
        t.esc.refetch = satInc s.esc.refetch ∧ (t.ctx c).esc.curSeq = (s.ctx c).esc.curSeq)) ∧
  (∀ (c : Fin 16) (i : BitVec 16) (p : Nat) (s : State), (s.ctx c).esc.included = [i] → State.drains (s.entry i.toNat) = true →
    s.nextPage c i.toNat = some p → s.mayPut c i.toNat = true → (s.ctx c).esc.curSeq ≠ 0 →
    s.heldOk i.toNat p (s.heldContent c i.toNat p) = false → State.otherLost (s.entry i.toNat) = true →
    ∃ t, exec (.drainPut c) s = .next t ∧ t.ckptEnded c ∧ (t.ctx c).esc.abandonCause = 4 ∧
      t.esc.abandoned = satInc s.esc.abandoned) ∧
  (∀ (c : Fin 16) (i : BitVec 16) (s : State), (s.ctx c).esc.included = [i] → State.drains (s.entry i.toNat) = true →
    s.nextPage c i.toNat = none → s.manifestDue c i.toNat = true → s.mayPut c i.toNat = true →
    ∃ t, exec (.drainPut c) s = .next t ∧ t.entry i.toNat = { s.entry i.toNat with manifestSent := true } ∧
      t.entryOnly s i.toNat ∧ (t.ctx c).esc.puts.length = (s.ctx c).esc.puts.length + 1 ∧ t.otherCtxs s c ∧
      t.sent.map (fun m => (m.op, m.args)) = [(.wrc, [1, 2, i.toNat, 0, (s.ctx c).esc.curSeq.toNat])]) ∧
  (∀ (id : BitVec 32) (s : State), (∀ o ∈ s.ctl.out, o.id ≠ id) → exec (.putAck id) s = .next s.begin) ∧
  (∀ (o : Outstanding) (c : Fin 16) (f : BitVec 16) (i p : Nat) (s : State), s.ctl.out = [o] → o.msg.dest = .node c f →
    o.msg.op = .wrc → o.msg.args = [1, 1, i, p, (s.ctx c).esc.curSeq.toNat] → (s.ctx c).esc.curSeq ≠ 0 → s.noSeals c = true →
    ∃ t, exec (.putAck o.id) s = .next t ∧ t.answers = [] ∧ (t.entry i).acked.contains p = true ∧
      (t.entry i).heldPages.contains p = false ∧ t.esc.sent = satInc s.esc.sent ∧
      (t.ctx c).esc.drained = (s.ctx c).esc.drained + o.msg.data.length ∧ o ∉ t.ctl.out ∧
      (∀ x ∈ (t.ctx c).esc.puts, ¬(x.kind = 1 ∧ x.entry = i ∧ x.page = p)) ∧
      ((s.entry i).degradedP = false →
        ∃ m ∈ t.sent, m.kind = 0x25 ∧ m.args = [(s.entry i).shardId.toNat, (s.ctx c).esc.curSeq.toNat, p])) ∧
  (∀ (o : Outstanding) (c : Fin 16) (f : BitVec 16) (i p : Nat) (s : State), s.ctl.out = [o] → o.msg.dest = .node c f →
    o.msg.op = .wrc → o.msg.args = [1, 3, i, p, (s.ctx c).esc.curSeq.toNat] → (s.ctx c).esc.curSeq ≠ 0 → s.noSeals c = true →
    (s.ctx c).esc.manifestsOut = 1 →
    ∃ t, exec (.putAck o.id) s = .next t ∧ t.ckptEnded c ∧ (t.ctx c).esc.doneSeq = (s.ctx c).esc.curSeq ∧
      (t.ctx c).esc.doneStep = (s.ctx c).esc.ckptStep ∧
      t.sent.map (fun m => (m.kind, m.args)) = (s.otherAzards c).map fun _ => (0x32, [(s.ctx c).esc.curSeq.toNat])) ∧
  (∀ (rq : Req) (shard : Word) (seq : BitVec 32) (page i : Nat) (s : State), s.reaches rq false = true →
    (s.findShard rq.ctx shard true).or (s.findShard rq.ctx shard false) = some i → (s.ctx rq.ctx).esc.curSeq = seq → seq ≠ 0 →
    (s.entry i).peer = rq.source → s.noSeals rq.ctx = true →
    ∃ t, exec (.drainAckReceived rq shard seq page) s = .next t ∧ t.answeredOnly s rq .ok ∧
      (t.entry i).acked.contains page = true ∧ (t.entry i).heldPages.contains page = false ∧ t.entryOnly s i) ∧
  (∀ (rq : Req) (seq : DoneSeq) (shard claim : Word) (target : BitVec 8) (d : Digest) (s : State), s.reaches rq false = true →
    (s.ctx rq.ctx).life.stepRoot = true → (s.ctx rq.ctx).esc.curSeq = seq.seq → seq.seq ≠ 0 →
    ∃ t, exec (.shardDoneReceived rq seq shard claim target d) s = .next t ∧ t.answeredOnly s rq .ok ∧
      (t.ctx rq.ctx).esc = { (s.ctx rq.ctx).esc with doneList := ((s.ctx rq.ctx).esc.doneList.filter fun x => x.shardId ≠ shard) ++
        [{ shardId := shard, claim := claim, target := target, digest := d, named := seq.named }] } ∧
      t.otherCtxs s rq.ctx ∧ t.mir = s.mir) ∧
  (∀ (c : Fin 16) (s : State), s.manifestReady c = false → exec (.checkpointManifestPut c) s = .next s.begin) ∧
  (∀ (c : Fin 16) (s : State), s.manifestReady c = true →
    ∃ t, exec (.checkpointManifestPut c) s = .next t ∧ (t.ctx c).esc.manifestPut = true ∧ t.mir = s.mir ∧ t.otherCtxs s c ∧
      (t.ctx c).esc.manifestsOut = t.sent.length ∧
      ∀ m ∈ t.sent, m.op = .wrc ∧ m.data = s.checkpointManifest c ∧ ∃ k, (s.manifestTargets c).contains k = true ∧
        m.args = [1, 3, 0, k, (s.ctx c).esc.curSeq.toNat]) ∧
  (∀ (rq : Req) (seq : BitVec 32) (s : State), s.reaches rq false = true →
    ((s.ctx rq.ctx).esc.curSeq = seq → seq ≠ 0 → rq.source = (s.ctx rq.ctx).clr.root → s.noSeals rq.ctx = true →
      ∃ t, exec (.ckptCommitReceived rq seq) s = .next t ∧ t.answeredOnly s rq .ok ∧ t.ckptEnded rq.ctx ∧
        (t.ctx rq.ctx).esc.doneSeq = seq ∧ (t.ctx rq.ctx).esc.doneStep = (s.ctx rq.ctx).esc.ckptStep ∧ t.otherCtxs s rq.ctx) ∧
    ((s.ctx rq.ctx).esc.curSeq ≠ seq ∨ rq.source ≠ (s.ctx rq.ctx).clr.root →
      exec (.ckptCommitReceived rq seq) s = .next (s.begin.answer rq .ok))) ∧
  (∀ (rq : Req) (seq : BitVec 32) (cause : BitVec 8) (s : State), s.reaches rq false = true → seq ≠ 0 →
    (s.ctx rq.ctx).esc.curSeq = seq → s.noSeals rq.ctx = true →
    ∃ t, exec (.abandonReceived rq seq cause) s = .next t ∧ t.answeredOnly s rq .ok ∧ t.ckptEnded rq.ctx ∧
      (t.ctx rq.ctx).esc.abandonCause = cause ∧ t.esc.abandoned = satInc s.esc.abandoned ∧ t.otherCtxs s rq.ctx ∧
      t.sent.map (fun m => (m.kind, m.args)) = (if (s.ctx rq.ctx).life.stepRoot then
        (s.otherAzards rq.ctx).map fun _ => (0x33, [seq.toNat, cause.toNat]) else [])) ∧
  (∀ (rq : Req) (n : Fin 16) (max : BitVec 32) (seqno : BitVec 16) (s : State), s.rstWrite rq n seqno = true →
    s.noSeals n = true → (s.ctx n).esc.curSeq ≠ 0 →
    ∃ t, exec (.ckptAbandon rq n max seqno) s = .next t ∧ t.answeredOnly s rq .ok ∧ t.ckptEnded n ∧
      (t.ctx n).esc.abandonCause = 7 ∧ t.esc.abandoned = satInc s.esc.abandoned ∧ (t.ctx n).esc.rstActed = seqno ∧
      t.otherCtxs s n) ∧
  (∀ (rq : Req) (n : Fin 16) (max : BitVec 32) (seqno : BitVec 16) (c : Candidate) (reached : Bool) (s : State),
    s.rstWrite rq n seqno = true → s.noSeals n = true → (s.ctx n).esc.curSeq = 0 →
    (s.ctx n).life.relUnits = [] →
    ∃ t, exec (.ckptSelect rq n max seqno [c] (some reached)) s = .next t ∧ t.answeredOnly s rq .ok ∧ (t.ctx n).esc.rstActed = seqno ∧
      t.otherCtxs s n ∧ t.mir = s.mir ∧
      let l := (s.ctx n).life
      let step := Bytes.word c.manifest 0x80
      let refused (k : BitVec 8) : Prop := (t.ctx n).esc.rstState = 3 ∧ (t.ctx n).esc.rstCause = k ∧ (t.ctx n).step = (s.ctx n).step
      if l.st ≠ .quiesced ∨ l.stepRoot = false then refused 5
      else if l.charter.lineage = 0 then refused 4
      else if l.charter.flues = [] ∨ reached = false then refused 6
      else if max.toNat < c.seq.toNat ∨ State.candidateOk l.charter.lineage c = false then refused 1
      else match l.relKeys.find? fun k => k.1 = c.seq with
        | none => refused 3
        | some k => match State.openSealed k.2 c.manifest with
          | none => refused 3
          | some plain =>
            if Bytes.word plain 0 ≠ step ∨ Bytes.word plain 0x40 ≠ step then refused 2
            else (t.ctx n).esc.rstState = 2 ∧ (t.ctx n).esc.rstSeq = c.seq ∧ (t.ctx n).esc.rstStep = step ∧
              (t.ctx n).step.released = step ∧ (t.ctx n).step.voted = step ∧
              t.sent.length = (s.otherAzards n).length) ∧
  (∀ (rq : Req) (n : Fin 16) (max : BitVec 32) (seqno : BitVec 16) (s : State), s.rstWrite rq n seqno = true →
    s.noSeals n = true → (s.ctx n).esc.curSeq = 0 → (s.ctx n).life.st = .quiesced → (s.ctx n).life.stepRoot = true →
    (s.ctx n).life.charter.lineage ≠ 0 → (s.ctx n).life.charter.flues ≠ [] →
    ∃ t, exec (.ckptSelect rq n max seqno [] none) s = .next t ∧ t.answeredOnly s rq .ok ∧ (t.ctx n).esc.rstState = 1 ∧
      (t.ctx n).step = (s.ctx n).step ∧ t.otherCtxs s n ∧ t.mir = s.mir ∧
      t.sent.map (fun m => (m.dest, m.op, m.args)) = (s.ctx n).life.charter.flues.map fun f =>
        (.node (ctxFin n) f, .rd, [3, 3, 0, 0, max.toNat]))

/-- O50. An operation under a new SEQNO in a slot of area 0 or 1: PUT stores its object in place of one with the same key,
DONE; a claim below the highest the target accepted for the shard answers NACK_CLAIM and other bytes under a manifest's key
NACK_ACCESS, with no object changed. GET answers the object with the key, or ABSENT; LIST the pages of a shard's checkpoint
in order, or the manifests up to a sequence. The same SEQNO again answers the slot's data and starts nothing; another area
answers NACK_ADDRESS. At offsets, a RD answers the descriptor's or the data's bytes, a WR of a descriptor with a new SEQNO
starts its operation, OP 4 to 7 being refused, and the WRC that completes a PUT's data files the object. A spill peer's page
is stored in the slot it names below the offer, and read back as written; a slot at or beyond the offer answers
NACK_ADDRESS, any other requester NACK_ACCESS. (R209, R210, R211, R275, R279) -/
def Obligations.FlueTargetsAndSpillPeers : Prop :=
  (∀ (f : Fin 4) (rq : Req) (area : BitVec 4) (slot : BitVec 6) (seqno : BitVec 16) (obj : Bytes) (s : State),
    s.flueNew f rq area slot seqno = true →
    let o := State.parseObject obj
    let x := s.flue f
    let stale := o.kind ≠ 3 ∧ o.claim.toNat < State.highClaim x o
    let conflict := o.kind = 3 ∧ ∃ y ∈ x.objects, State.sameKey y o = true ∧ y.bytes ≠ obj
    ∃ t, exec (.fluePut f rq area (.slot slot) seqno obj) s = .next t ∧ t.flueOnly s f rq slot ∧
      (State.flueSlot (t.flue f) rq slot).seqno = seqno ∧
      (stale → t.answeredOnly s rq .nackClaim ∧ (t.flue f).objects = x.objects ∧
        (State.flueSlot (t.flue f) rq slot).status = 5) ∧
      (¬stale → conflict → t.answeredOnly s rq .nackAccess ∧ (t.flue f).objects = x.objects ∧
        (State.flueSlot (t.flue f) rq slot).status = 4) ∧
      (¬stale → ¬conflict → t.answeredOnly s rq .ok ∧ (State.flueSlot (t.flue f) rq slot).status = 2 ∧
        (t.flue f).objects = (x.objects.filter fun y => !State.sameKey y o) ++ [o] ∧
        (o.kind ≠ 3 → State.highClaim (t.flue f) o = o.claim.toNat))) ∧
  (∀ (f : Fin 4) (rq : Req) (area : BitVec 4) (slot : BitVec 6) (seqno : BitVec 16) (key : Bytes) (s : State),
    s.flueNew f rq area slot seqno = true →
    ∃ t, exec (.flueGet f rq area (.slot slot) seqno key) s = .next t ∧ t.flueOnly s f rq slot ∧ (t.flue f).objects = (s.flue f).objects ∧
      (match (s.flue f).objects.find? fun y => State.sameKey y (State.parseObject key) with
        | some o => t.answeredOnly s rq .ok 0 o.bytes ∧ (State.flueSlot (t.flue f) rq slot).status = 2 ∧
          (State.flueSlot (t.flue f) rq slot).length = BitVec.ofNat 64 o.bytes.length
        | none => t.answeredOnly s rq .ok ∧ (State.flueSlot (t.flue f) rq slot).status = 3)) ∧
  (∀ (f : Fin 4) (rq : Req) (area : BitVec 4) (slot : BitVec 6) (seqno : BitVec 16) (key : Bytes) (s : State),
    s.flueNew f rq area slot seqno = true → (State.parseObject key).kind = 1 →
    let k := State.parseObject key
    let pages := (sortBy (fun (a b : FlueObj) => decide (a.page.toNat ≤ b.page.toNat)) ((s.flue f).objects.filter fun o =>
      decide (o.kind = 1 ∧ o.lineage = k.lineage ∧ o.seq = k.seq ∧ o.shardId = k.shardId))).map fun o => o.page
    ∃ t, exec (.flueList f rq area (.slot slot) seqno key) s = .next t ∧ t.flueOnly s f rq slot ∧
      (t.flue f).objects = (s.flue f).objects ∧ t.answeredOnly s rq .ok 0 (pages.flatMap fun p => natLe 4 p.toNat) ∧
      (State.flueSlot (t.flue f) rq slot).status = 2) ∧
  (∀ (f : Fin 4) (rq : Req) (area : BitVec 4) (slot : BitVec 6) (seqno : BitVec 16) (key : Bytes) (s : State),
    s.flueNew f rq area slot seqno = true → (State.parseObject key).kind = 3 →
    ∃ t, exec (.flueList f rq area (.slot slot) seqno key) s = .next t ∧ t.flueOnly s f rq slot ∧
      (t.flue f).objects = (s.flue f).objects ∧
      t.answers.map (fun a => (a.result, a.data.length)) = [(.ok, 16 * ((s.flue f).objects.filter fun o =>
        decide (o.kind = 3 ∧ o.lineage = (State.parseObject key).lineage ∧ o.seq.toNat ≤ (State.parseObject key).seq.toNat)).length)]) ∧
  (∀ (f : Fin 4) (rq : Req) (area : BitVec 4) (slot : BitVec 6) (seqno : BitVec 16) (key : Bytes) (s : State),
    s.flueNew f rq area slot seqno = true → (State.parseObject key).kind ≠ 1 → (State.parseObject key).kind ≠ 3 →
    ∃ t, exec (.flueList f rq area (.slot slot) seqno key) s = .next t ∧ t.flueOnly s f rq slot ∧
      (t.flue f).objects = (s.flue f).objects ∧ t.answeredOnly s rq .ok ∧ (State.flueSlot (t.flue f) rq slot).status = 4) ∧
  (∀ (f : Fin 4) (rq : Req) (area : BitVec 4) (w : FlueAt) (slot : BitVec 6) (seqno : BitVec 16) (b : Bytes) (c : Instr) (s : State),
    (c = .fluePut f rq area w seqno b ∨ c = .flueGet f rq area w seqno b ∨ c = .flueList f rq area w seqno b → 1 < area.toNat →
      exec c s = .next (s.begin.answer rq .nackAddress)) ∧
    (c = .fluePut f rq area (.slot slot) seqno b ∨ c = .flueGet f rq area (.slot slot) seqno b ∨
        c = .flueList f rq area (.slot slot) seqno b → area.toNat ≤ 1 → (State.flueSlot (s.flue f) rq slot).seqno = seqno →
      exec c s = .next (s.begin.answer rq .ok 0 (State.flueSlot (s.flue f) rq slot).data))) ∧
  (∀ (f : Fin 4) (rq : Req) (slot : BitVec 6) (o len : Nat) (seqno : BitVec 16) (b : Bytes) (s : State),
    let d := State.flueSlot (s.flue f) rq slot
    (o < 0x100 → o + len ≤ 0x100 → exec (.flueGet f rq 0 (.at (0x100 * slot.toNat + o) .rd len) seqno b) s =
      .next (s.begin.answer rq .ok 0 (((State.slotDescr d).drop o).take len))) ∧
    (o < 0x10000000 → o + len ≤ d.data.length → exec (.flueGet f rq 1 (.at (0x10000000 * slot.toNat + o) .rd len) seqno b) s =
      .next (s.begin.answer rq .ok 0 ((d.data.drop o).take len))) ∧
    (b.length = 0x100 → BitVec.ofNat 16 (Bytes.le b 2 2) ≠ d.seqno →
      ∃ t, exec (.flueGet f rq 0 (.at (0x100 * slot.toNat) .wr len) seqno b) s = .next t ∧ t.answeredOnly s rq .ok ∧
        t.flueOnly s f rq slot ∧ (t.flue f).objects = (s.flue f).objects ∧
        (State.flueSlot (t.flue f) rq slot).seqno = BitVec.ofNat 16 (Bytes.le b 2 2) ∧
        (Bytes.le b 0 1 % 8 = 1 → (State.flueSlot (t.flue f) rq slot).status = 1 ∧ (State.flueSlot (t.flue f) rq slot).units = []) ∧
        (4 ≤ Bytes.le b 0 1 % 8 → (State.flueSlot (t.flue f) rq slot).status = 4)) ∧
    (d.op = 1 → d.status = 1 → d.units = [] → d.bytes = [] → b.length = d.length.toNat → 0 < b.length → b.length ≤ 256 →
      State.highClaim (s.flue f) (State.parseObject b) ≤ (State.parseObject b).claim.toNat → (State.parseObject b).kind ≠ 3 →
      ∃ t, exec (.flueGet f rq 1 (.at (0x10000000 * slot.toNat) .wrc len) seqno b) s = .next t ∧ t.answeredOnly s rq .ok ∧
        t.flueOnly s f rq slot ∧ (State.flueSlot (t.flue f) rq slot).status = 2 ∧
        (t.flue f).objects = ((s.flue f).objects.filter fun y => !State.sameKey y (State.parseObject b)) ++ [State.parseObject b])) ∧
  (∀ (rq : Req) (p : Fin 25) (slot : Nat) (d : Bytes) (s : State), rq.path = .port p → s.reaches rq false = true → rq.ctxv = false →
    s.isSpillPeer p = true →
    (slot < s.alc.spillOffer.toNat →
      (∃ t, exec (.spillReceived rq slot (some d)) s = .next t ∧ t.answeredOnly s rq .ok ∧
        Map.get [] t.alc.spillArea slot = d ∧
        (∀ k, k ≠ slot → Map.get [] t.alc.spillArea k = Map.get [] s.alc.spillArea k) ∧
        t.alc.spillIn = BitVec.ofNat 32 t.alc.spillArea.length ∧ t.ctxs = s.ctxs ∧ t.mir = s.mir) ∧
      exec (.spillReceived rq slot none) s = .next (s.begin.answer rq .ok 0 (Map.get [] s.alc.spillArea slot))) ∧
    (∀ data, s.alc.spillOffer.toNat ≤ slot → exec (.spillReceived rq slot data) s = .next (s.begin.answer rq .nackAddress))) ∧
  (∀ (rq : Req) (p : Fin 25) (slot : Nat) (data : Option Bytes) (s : State), rq.path = .port p → s.reaches rq false = true →
    (rq.ctxv = true ∨ s.isSpillPeer p = false) →
    exec (.spillReceived rq slot data) s = .next (s.begin.answer rq .nackAccess))

/-- O51. With Azard ready and no spill peer on the port: ENABLE written 0 takes an UP port DOWN, written 1 leaves its state;
RETRAIN of an UP or QUARANTINE port, loss of lock, the nonce limit and a lane whose margin fails retrain it, counted when it
was UP; CLEAR clears its counters. EXPECT and SELF_COORD are stored, or NACK_ACCESS while a context uses them. Signal on an
enabled anchor DOWN begins training; locked lanes give HELLO at the agreed width, DEGRADED below the configured one, and
HELLO is sent; no lock, or no hello, gives DOWN with a retry due. A hello that fails a check of R299 gives QUARANTINE with
the check's QCAUSE; one that passes is noted, and the initiator sends KEYX and FINISH. KEYX and FINISH with a signature or
digests that do not verify give QUARANTINE CREDENTIAL; a FINISH that verifies makes a fabric port UP and starts a tray
port's conformance probe. (R191, R296, R297, R298, R299, R302, R306, R307, R341, R342, R390) -/
def Obligations.LinkRegistersTrainingAndHello : Prop :=
  (∀ (rq : Req) (p : Fin 25) (data : Word) (s : State), s.servedReady rq = true → s.isSpillPeer p = false →
    (data.getLsbD 12 = true → ∃ t, exec (.linkCfgWrite rq p data) s = .next t ∧ t.answeredOnly s rq .ok ∧
      t.port p = { s.port p with enable := true } ∧ t.portOnly s p) ∧
    (data.getLsbD 12 = false → (s.port p).state = .up → ∃ t, exec (.linkCfgWrite rq p data) s = .next t ∧
      t.answeredOnly s rq .ok ∧ (t.port p).enable = false ∧ (t.port p).state = .down ∧ (t.port p).keysSet = false ∧
      t.portOnly s p)) ∧
  (∀ (rq : Req) (p : Fin 25) (s : State), s.servedReady rq = true → s.isSpillPeer p = false →
    ((s.port p).state = .up ∨ (s.port p).state = .quarantine →
      ∃ t, exec (.linkRetrain rq p) s = .next t ∧ t.answeredOnly s rq .ok ∧ t.retrainedFrom s p) ∧
    ((s.port p).state ≠ .up → (s.port p).state ≠ .quarantine →
      exec (.linkRetrain rq p) s = .next (s.begin.answer rq .ok)) ∧
    ∃ t, exec (.linkCounterClear rq p) s = .next t ∧ t.answeredOnly s rq .ok ∧ t.portOnly s p ∧
      t.port p = { s.port p with corrected := 0, uncorrected := 0, crcFail := 0, retries := 0, qMax := 0 }) ∧
  (∀ (rq : Req) (p : Fin 25) (data : Word) (s : State), s.servedReady rq = true →
    let live := (s.liveCtxs.any fun n => s.routesOver n p) = true
    ∃ t, exec (.linkExpectWrite rq p data) s = .next t ∧ t.portOnly s p ∧
      t.answeredOnly s rq (if live then .nackAccess else .ok) ∧
      t.port p = (if live then s.port p else { s.port p with expect := data })) ∧
  (∀ (rq : Req) (data : Word) (s : State), s.servedReady rq = true → (∀ p, s.isSpillPeer p = false) →
    (s.liveCtxs ≠ [] → exec (.selfCoordWrite rq data) s = .next (s.begin.answer rq .nackAccess)) ∧
    (s.liveCtxs = [] → ∃ t, exec (.selfCoordWrite rq data) s = .next t ∧ t.answeredOnly s rq .ok ∧ t.fabric.selfCoord = data ∧
      t.fabric.topo = s.fabric.topo ∧ t.ctxs = s.ctxs ∧
      ∀ p : Fin 25, (t.port p).state = (if 9 ≤ p.val ∧ (s.port p).state = .up then .training else (s.port p).state))) ∧
  (∀ (p : Fin 25) (s : State), s.kin.power = .ready → (s.port p).state = .down → (s.port p).enable = true →
    s.isAnchor p = true → s.moduleReady p = true →
    let seen := (s.port p).fitted || decide (p.val < 9)
    ((s.port p).retryDue = false → ∃ t, exec (.signalDetect p) s = .next t ∧ t.portOnly s p ∧
      t.port p = { s.port p with state := .training, retryDue := false, fitted := seen }) ∧
    ((s.port p).retryDue = true →
      (∃ t, exec (.signalDetect p) s = .next t ∧ t.portOnly s p ∧ t.port p = { s.port p with fitted := seen }) ∧
      ((s.port p).fitted = true ∨ 9 ≤ p.val → ∃ t, exec (.linkRetryTimer p) s = .next t ∧ t.portOnly s p ∧
        t.port p = { s.port p with state := .training, retryDue := false }))) ∧
  (∀ (p : Fin 25) (lanes : BitVec 16) (s : State), (s.port p).state = .training →
    let full := State.widthLanes (s.port p).width
    let n := State.agreedLanes (State.workingLanes lanes full).length
    (n = 0 → ∃ t, exec (.linkLock p lanes) s = .next t ∧ t.ports = s.ports ∧ t.sent = [] ∧ t.ctxs = s.ctxs) ∧
    (n ≠ 0 → ∃ t, exec (.linkLock p lanes) s = .next t ∧ t.portOnly s p ∧ (t.port p).state = .hello ∧
      (t.port p).lanes = BitVec.ofNat 5 n ∧ (t.port p).degraded = decide (n < full) ∧
      (s.linksHello = false → t.sent = []) ∧ (s.linksHello = true →
        t.sent.getLast? = some { dest := .link p, op := .msg, kind := 1, data := (t.port p).helloSent }))) ∧
  (∀ (p : Fin 25) (s : State), s.isSpillPeer p = false →
    ((s.port p).state = .training → ∃ t, exec (.trainingTimeout p) s = .next t ∧ t.portOnly s p ∧ (t.port p).state = .down ∧
      (t.port p).retryDue = true) ∧
    ((s.port p).state = .hello → (s.port p).helloGot = none → ∃ t, exec (.helloTimeout p) s = .next t ∧ t.portOnly s p ∧
      (t.port p).state = .down ∧ (t.port p).retryDue = true) ∧
    ((s.port p).state = .up ∨ (s.port p).state = .quarantine →
      ∃ t, exec (.lossOfLock p) s = .next t ∧ t.retrainedFrom s p) ∧
    ((s.port p).state = .up → (∃ t, exec (.nonceCounterLimit p) s = .next t ∧ t.retrainedFrom s p) ∧
      (∃ t, exec (.laneRecalibrate p false) s = .next t ∧ t.retrainedFrom s p) ∧
      ∃ t, exec (.laneRecalibrate p true) s = .next t ∧ t.portOnly s p ∧
        t.port p = { s.port p with nextLane := ((s.port p).nextLane + 1) % (s.port p).lanes.toNat })) ∧
  (∀ (p : Fin 25) (raw : Bytes) (s : State), (s.port p).state = .hello → (s.port p).helloGot = none → s.isSpillPeer p = false →
    let h := State.parseHello raw
    (s.helloCheck p h ≠ 0 → ∃ t, exec (.helloReceived p raw) s = .next t ∧ t.portOnly s p ∧ (t.port p).state = .quarantine ∧
      (t.port p).qcause = BitVec.ofNat 4 (s.helloCheck p h) ∧ (t.port p).helloGot = none ∧
      ∀ m ∈ t.sent, m.kind = 4) ∧
    (s.helloCheck p h = 0 → ∃ t k, exec (.helloReceived p raw) s = .next t ∧ t.portOnly s p ∧ s.helloKey h = some k ∧
      (t.port p).state = .hello ∧ (t.port p).helloGot = some { h with key := k } ∧ (t.port p).peerSubject = hash256 k ∧
      (t.port p).peerFw = h.firmware ∧ (t.port p).peerCoord = h.coord ∧
      (t.port p).peerPos = State.barePos h.pos ||| BitVec.ofNat 64 (h.portIdx.toNat % 32 * 4398046511104) ∧
      t.sent.map (fun m => (m.dest, m.kind)) = (if s.initiates p h then [(.link p, 2), (.link p, 3)] else []) ∧
      (s.initiates p h = true → (t.port p).keysSet = true ∧ (t.port p).finishSent = true))) ∧
  (∀ (p : Fin 25) (h : Hello) (ct sig : Bytes) (s : State), (s.port p).state = .hello → (s.port p).helloGot = some h →
    (s.port p).keysSet = false → s.initiates p h = false → s.isSpillPeer p = false →
    ∃ t, exec (.keyxReceived p ct sig) s = .next t ∧ t.portOnly s p ∧
      (if Config.falconVerify h.key ([0x41, 0x5A, 0x4B, 0x58] ++ ct) sig then (t.port p).state = .hello ∧
          (t.port p).keysSet = true ∧ (t.port p).finishSent = true ∧ t.sent.map (fun m => (m.dest, m.kind)) = [(.link p, 3)]
        else (t.port p).state = .quarantine ∧ (t.port p).qcause = 1 ∧ (t.port p).keysSet = false ∧ ∀ m ∈ t.sent, m.kind = 4)) ∧
  (∀ (p : Fin 25) (h : Hello) (payload : Bytes) (s : State), (s.port p).state = .hello → (s.port p).helloGot = some h →
    (s.port p).keysSet = true → (s.port p).finishGot = false → s.isSpillPeer p = false →
    (s.port p).peerEpoch = h.packageEpoch → s.sec.error = false →
    let good := payload = digestBytes (s.finishBytes p h).1 ++ digestBytes (s.finishBytes p h).2
    ∃ t, exec (.finishReceived p payload) s = .next t ∧ t.portOnly s p ∧
      (¬good → (t.port p).state = .quarantine ∧ (t.port p).qcause = 1 ∧ (t.port p).keysSet = false) ∧
      (good → (t.port p).finishGot = true ∧ (t.port p).keysSet = true) ∧
      (good → 9 ≤ p.val → (t.port p).state = .up ∧ (t.port p).everUp = true ∧ (t.port p).heard = s.now) ∧
      (good → p.val < 9 → (t.port p).state = .hello ∧ (t.port p).probeRunning = true ∧
        (t.port p).probeSeq = (s.port p).probeSeq + 1))

/-- O52. On a link with link retry a codeword that cannot be corrected is counted and asks for a resend; one in order moves
the expected SEQ on and returns its coins; one out of order delivers nothing. A NACK is counted in RETRIES, and the eighth
resend in a row of one codeword retrains the link. A packet whose tag does not verify is dropped, counted and LNK-005; one
for another node of its context goes on; one to a space that Azard does not decode answers NACK_ADDRESS. On Osfel-L a packet
beyond the expected RSN sends one REPLAY_ACK with GAP; an acknowledgement moves the window, one with GAP and a timeout go
back, counted, and the sixteenth retrains. A module's report is stored, its fault retrains the UP link of its anchor; one
not ready in time is LNK-030. A port's verdict is that of R225's evidence, and a change is counted. The newest announcement
of a position is kept and sent to the other fabric ports; an older one is not; Azard's own goes to every UP fabric port.
(R225, R226, R283, R292, R293, R301, R303, R304, R402, R403) -/
def Obligations.LinkTrafficVerdictsAndTopology : Prop :=
  (∀ (p : Fin 25) (c : Codeword) (s : State), (s.port p).state = .up → (s.port p).mode ≠ 2 → c.correctable = false →
    (s.port p).discarding = false →
    ∃ t, exec (.codewordReceived p c) s = .next t ∧ t.portOnly s p ∧ t.sent = [] ∧ t.answers = [] ∧
      t.port p = { s.port p with uncorrected := satInc (s.port p).uncorrected, nackDue := true, discarding := true }) ∧
  (∀ (p : Fin 25) (c : Codeword) (s : State), (s.port p).state = .up → (s.port p).mode ≠ 2 → c.correctable = true →
    c.packets = [] → c.nack = false →
    let n := if c.corrected then satInc (s.port p).corrected else (s.port p).corrected
    ∃ t, exec (.codewordReceived p c) s = .next t ∧ t.portOnly s p ∧ t.sent = [] ∧ t.answers = [] ∧
      (∀ q, q ≠ p.val → t.out q = s.out q) ∧ t.port p = (if c.seq = (s.port p).rxSeq then { s.port p with
          corrected := n, rxSeq := c.seq + 1, lastGood := c.seq, nackDue := false, discarding := false, qNow := 0, vcq := [] }
        else { s.port p with corrected := n })) ∧
  (∀ (p : Fin 25) (c : Codeword) (s : State), (s.port p).state = .up → (s.port p).mode ≠ 2 → c.correctable = true →
    c.packets = [] → c.nack = true → s.isSpillPeer p = false →
    ((s.port p).resendTries = 0 → (s.port p).resendsInMs < 64 →
      ∃ t, exec (.codewordReceived p c) s = .next t ∧ t.portOnly s p ∧ (t.port p).state = .up ∧
        (t.port p).retries = satInc (s.port p).retries ∧ (t.port p).resendSeq = c.ack + 1 ∧ (t.port p).resendTries = 1) ∧
    ((s.port p).resendTries = 7 → (s.port p).resendSeq = c.ack + 1 →
      ∃ t, exec (.codewordReceived p c) s = .next t ∧ t.retrainedFrom s p ∧
        (t.port p).retries = satInc (s.port p).retries)) ∧
  (∀ (p : Fin 25) (c : Codeword) (x : Packet) (s : State), (s.port p).state = .up → (s.port p).mode ≠ 2 → c.correctable = true →
    c.nack = false → c.packets = [x] → x.crcOk = true → c.seq = (s.port p).rxSeq →
    (x.req.ctxv = true → (s.port p).closedFor.contains x.req.ctx.val = false) →
    (x.tagOk = false → ∃ t, exec (.codewordReceived p c) s = .next t ∧ t.portOnly s p ∧ t.sent = [] ∧ t.answers = [] ∧
      (t.port p).crcFail = satInc (s.port p).crcFail ∧ (t.port p).rx = satAdd (s.port p).rx x.bytes ∧
      (t.port p).qNow = BitVec.ofNat 16 (packetCoins x.bytes)) ∧
    (x.tagOk = true → x.opKnown = true → x.req.ctxv = true → x.req.node ≠ (s.ctx x.req.ctx).life.self →
      s.sourceOk p x.req = true → s.rst.drained = false ∨ x.vc = 2 → ∃ t, exec (.codewordReceived p c) s = .next t ∧ t.portOnly s p ∧ t.answers = [] ∧
      (t.port p).crcFail = (s.port p).crcFail ∧ t.sent.map (fun m => (m.dest, m.op, m.transit)) =
        [(.node x.req.ctx x.req.node, x.op, some { vc := x.vc, source := x.req.source, bytes := x.bytes })]) ∧
    (x.tagOk = true → x.opKnown = true → 6 ≤ x.space.toNat → x.op ≠ .resp → x.op ≠ .msg →
      (x.req.ctxv = true → x.req.node = (s.ctx x.req.ctx).life.self) → s.reaches { x.req with path := .port p } false = true →
      ∃ t, exec (.codewordReceived p c) s = .next t ∧ t.portOnly s p ∧ t.sent = [] ∧ t.answeredOnly s x.req .nackAddress)) ∧
  (∀ (p : Fin 25) (c : Codeword) (x : Packet) (s : State), (s.port p).state = .up → (s.port p).mode = 2 → c.correctable = true →
    c.packets = [x] → x.crcOk = true → x.tagOk = true → x.vc ≠ 3 → (s.port p).rsnIn.toNat < x.rsn.toNat →
    (s.port p).gapDue = false →
    ∃ t, exec (.codewordReceived p c) s = .next t ∧ t.portOnly s p ∧ t.answers = [] ∧ (t.port p).gapDue = true ∧
      (t.port p).rsnIn = (s.port p).rsnIn ∧
      t.sent = [{ dest := .link p, op := .msg, kind := 9, args := [((s.port p).rsnIn - 1).toNat, 1] }]) ∧
  (∀ (p : Fin 25) (rsn : BitVec 48) (s : State), (s.port p).state = .up → (s.port p).mode = 2 →
    s.isSpillPeer p = false →
    (∃ t, exec (.replayAckReceived p rsn false) s = .next t ∧ t.portOnly s p ∧
      t.port p = (if (s.port p).rsnOut.toNat ≤ rsn.toNat then { s.port p with rsnTries := 0, rsnOut := rsn + 1 } else s.port p) ∧
      ((s.out p).waiting = [] → (t.out p).window = (s.out p).window.filter fun x => decide (rsn.toNat < x.1.toNat))) ∧
    ((s.port p).rsnOut.toNat ≤ rsn.toNat → ∃ t, exec (.replayAckReceived p rsn true) s = .next t ∧ t.portOnly s p ∧
      (t.port p).rsnOut = rsn + 1 ∧ (t.port p).gobacks = satInc (s.port p).gobacks ∧ (t.port p).rsnTries = 1) ∧
    (∃ t, exec (.replayAckTimer p) s = .next t ∧ t.portOnly s p ∧ t.port p = s.port p ∧
      t.sent = [{ dest := .link p, op := .msg, kind := 9
                  args := [((s.port p).rsnIn - 1).toNat, bit (s.port p).gapDue] }]) ∧
    ((s.out p).window = [] → exec (.replayTimeout p) s = .next s.begin) ∧
    ((s.out p).window ≠ [] → (s.port p).rsnTries < 15 → ∃ t, exec (.replayTimeout p) s = .next t ∧ t.portOnly s p ∧
      t.port p = { s.port p with gobacks := satInc (s.port p).gobacks, rsnTries := (s.port p).rsnTries + 1 }) ∧
    ((s.out p).window ≠ [] → (s.port p).rsnTries = 15 →
      ∃ t, exec (.replayTimeout p) s = .next t ∧ t.retrainedFrom s p ∧ (t.port p).modRestart = true)) ∧
  (∀ (p : Fin 25) (present : Bool) (st : BitVec 3) (temp : BitVec 8) (s : State), 21 ≤ p.val →
    (∃ t, exec (.modulePoll p present st false temp) s = .next t ∧ t.ctxs = s.ctxs ∧ ∀ q : Fin 25,
      let x := if q = p then { s.port p with modPresent := present, modState := st, modTemp := temp } else s.port q
      t.port q = (if present = true ∧ st = 3 ∧ q.val = (s.port p).anchor.toNat then { x with modRestart := false } else x)) ∧
    ((s.port p).anchor.toNat = p.val → (s.port p).mode = 2 → (s.port p).state = .up → s.isSpillPeer p = false →
      ∃ t, exec (.modulePoll p present st true temp) s = .next t ∧ t.retrainedFrom s p ∧ (t.port p).modFault = true)) ∧
  (∀ (p : Fin 25) (s : State), (s.port p).mode = 2 → (s.port p).state = .down →
    exec (.moduleReadyTimeout p) s = .next (if s.moduleReady p then s.begin else s.begin.event 15 30 (evSource 1 p))) ∧
  (∀ (p : Fin 25) (s : State), s.isSpillPeer p = false →
    (∃ t, exec (.livenessTimer p) s = .next t ∧ t.portOnly s p ∧ t.port p = { s.port p with
      verdict := (s.verdictOf p).1, evidence := BitVec.ofNat 4 (s.verdictOf p).2
      changes := if (s.verdictOf p).1 = (s.port p).verdict then (s.port p).changes else satInc (s.port p).changes }) ∧
    ∃ t, exec (.epochChangedExpiry p) s = .next t ∧ t.portOnly s p ∧ (t.port p).epochChanged = false ∧
      (t.port p).verdict = (s.verdictOf p).1 ∧ (t.port p).state = (s.port p).state) ∧
  (∀ (p : Fin 25) (a : Topo) (s : State), 9 ≤ p.val → (s.port p).state = .up → State.posEq a.pos s.fabric.selfPos = false →
    State.posEq a.pos (s.port p).peerPos = false →
    ((∀ x ∈ s.fabric.topo, State.posEq x.pos a.pos = true → x.seq < a.seq) → s.fabric.topo.length < State.topoMax →
      ∃ t, exec (.topoReceived p a) s = .next t ∧ t.ports = s.ports ∧ t.fabric.received = satInc s.fabric.received ∧
        t.fabric.topo = (s.fabric.topo.filter fun x => !State.posEq x.pos a.pos) ++ [a] ∧
        t.sent.map (fun m => m.dest) = (s.fabricUp.filter fun q => q ≠ p).map fun q => .link q) ∧
    ((∃ x, s.fabric.topo.find? (fun x => State.posEq x.pos a.pos) = some x ∧ a.seq ≤ x.seq) →
      exec (.topoReceived p a) s = .next { s.begin with fabric.received := satInc s.fabric.received })) ∧
  (∀ s : State, s.kin.power = .ready →
    ∃ t, exec .topoTimer s = .next t ∧ t.ports = s.ports ∧ t.ctxs = s.ctxs ∧ t.fabric.topoSeq = s.fabric.topoSeq + 1 ∧
      t.sent.map (fun m => (m.dest, m.kind)) = s.fabricUp.map fun q => (.link q, 4))

/-- O53. A write of TIME_INCREMENT stores the value, or the nearer limit of R309, for the next tick: from that tick ACC
rises by it, so the time never jumps. A write of TIME_OFFSET while any context is ACTIVE answers NACK_ACCESS and changes
nothing; otherwise the new offset applies at the next tick, which counts it in STEPS and records TIM-001 with its size (in
the open record while the recorder is not frozen). A tick raises TIM_RAW by 1 and changes no context, port or shard entry;
while the package is off it changes nothing. (R309, R310) -/
def Obligations.IncrementAndOffsetSteps : Prop :=
  (∀ (rq : Req) (data : Word) (s : State), s.served rq false .both = true →
    exec (.timeIncrementWrite rq data) s = .next ({ s.begin with
      tim.incNext := some (BitVec.ofNat 64 (max 0x00000009FF7CED92 (min data.toNat 0x0000000A0083126E)))
      }.answer rq .ok)) ∧
  (∀ (rq : Req) (data : Word) (s : State), s.served rq false .both = true →
    ((∃ n : Fin 16, (s.ctx n).life.st = .active) →
      exec (.timeOffsetWrite rq data) s = .next (s.begin.answer rq .nackAccess)) ∧
    ((∀ n : Fin 16, (s.ctx n).life.st ≠ .active) →
      exec (.timeOffsetWrite rq data) s = .next ({ s.begin with tim.offNext := some data }.answer rq .ok))) ∧
  (∀ s : State, s.kin.power ≠ .off →
    ∃ t, exec .refclkTick s = .next t ∧ t.answers = [] ∧ t.sent = [] ∧ t.ctxs = s.ctxs ∧ t.ports = s.ports ∧ t.mir = s.mir ∧
      t.tim.raw = s.tim.raw + 1 ∧ t.tim.inc = s.tim.incNext.getD s.tim.inc ∧ t.tim.incNext = none ∧
      t.tim.acc = s.tim.acc + t.tim.inc.setWidth 96 ∧ t.tim.offset = s.tim.offNext.getD s.tim.offset ∧ t.tim.offNext = none ∧
      t.tim.steps = (if s.tim.offNext.isSome then satInc s.tim.steps else s.tim.steps) ∧
      (s.tim.offNext = none → t.tim.pulse = s.tim.pulse ∧ t.evr.opened = s.evr.opened ∧ t.evr.stored = s.evr.stored) ∧
      ∀ o, s.tim.offNext = some o → s.evr.freeze = false → ∃ r, t.evr.opened = some r ∧ r.cls = 16 ∧ r.number = 1 ∧
        r.w1 = detailInt (o - s.tim.offset).toInt ∧ r.last = t.now) ∧
  (∀ s : State, s.kin.power = .off → exec .refclkTick s = .next s.begin)

/-- O54. A write of TIM_RTC_SET waits for the next crystal tick, which sets seconds, fraction and VALID; without one the
tick adds 1/32,768 s; off and without VBAT it stops. Enabling a pulse stores WIDTH of at least 20 ns and a PERIOD of 0 or at
least WIDTH + 20 ns; a one-shot in the past is MISSED and DONE, a periodic one starts at its first edge not before now;
disabling deasserts it. At its edge's time the output is asserted, a one-shot is then DONE, and at the end of WIDTH it is
deasserted. A PPS edge below 100 ns high is ignored, one within 0.9 s of the accepted one counted in FAST, any other
accepted; 1.5 s without one sets PPS_LOST. A follower with no eligible port enters holdover: LOCKED clears, HOPS is 0xFF; a
root does not. (R317, R318, R322, R323, R324, R326) -/
def Obligations.RtcPulsesPpsAndHoldover : Prop :=
  (∀ (rq : Req) (data : Word) (s : State), s.served rq true .both = true →
    exec (.rtcSet rq data) s = .next ({ s.begin with tim.rtcSet := some data }.answer rq .ok)) ∧
  (∀ s : State, s.kin.power ≠ .off ∨ s.pwr.vbatOk = true →
    (∀ w, s.tim.rtcSet = some w → exec .crystalTick s = .next { s.begin with
      tim.rtcSet := none
      tim.rtcFrac := w.extractLsb' 0 15
      tim.rtcSec := w.extractLsb' 16 48
      tim.rtcValid := true }) ∧
    (s.tim.rtcSet = none → ∃ t, exec .crystalTick s = .next t ∧
      (s.tim.rtcFrac.toNat + 1 < 32768 → t.tim.rtcFrac.toNat = s.tim.rtcFrac.toNat + 1 ∧ t.tim.rtcSec = s.tim.rtcSec) ∧
      (s.tim.rtcFrac.toNat = 32767 → t.tim.rtcFrac = 0 ∧ t.tim.rtcSec = s.tim.rtcSec + 1) ∧
      t.tim.rtcValid = s.tim.rtcValid ∧ t.tim.raw = s.tim.raw ∧ t.ctxs = s.ctxs)) ∧
  (∀ s : State, s.kin.power = .off → s.pwr.vbatOk = false → exec .crystalTick s = .next s.begin) ∧
  (∀ (rq : Req) (j : Fin 4) (data : Word) (s : State), s.served rq false .both = true →
    ∃ t, exec (.pulseCtlWrite rq j data) s = .next t ∧ t.answeredOnly s rq .ok ∧ t.tim = { s.tim with pulse := t.tim.pulse } ∧
      (∀ k, k ≠ j.val → t.pulse k = s.pulse k) ∧ t.ctxs = s.ctxs ∧ (t.pulse j).start = (s.pulse j).start ∧
      (t.pulse j).polarity = data.getLsbD 1 ∧ (t.pulse j).count = (s.pulse j).count ∧
      (data.getLsbD 0 = false → (t.pulse j).enable = false ∧ (t.pulse j).level = false) ∧
      ((s.pulse j).enable = false → (t.pulse j).width.toNat = max 20 (data.extractLsb' 32 32).toNat ∧
        (t.pulse j).period.toNat = (if (s.pulse j).period = 0 then 0
          else max (s.pulse j).period.toNat ((t.pulse j).width.toNat + 20))) ∧
      ((s.pulse j).enable = false → data.getLsbD 0 = true → (s.pulse j).period = 0 →
        (t.pulse j).enable = true ∧ (t.pulse j).level = false ∧ (t.pulse j).done = decide ((s.pulse j).start.toNat < s.now.toNat) ∧
        (t.pulse j).missed = ((s.pulse j).missed || decide ((s.pulse j).start.toNat < s.now.toNat))) ∧
      ((s.pulse j).enable = false → data.getLsbD 0 = true → (s.pulse j).period ≠ 0 →
        let p := t.pulse j
        p.enable = true ∧ p.done = false ∧ p.missed = (s.pulse j).missed ∧
        s.now.toNat ≤ p.start.toNat + p.next * p.period.toNat ∧
        (p.next ≠ 0 → p.start.toNat + (p.next - 1) * p.period.toNat < s.now.toNat)) ∧
      ((s.pulse j).enable = true → data.getLsbD 0 = true → t.pulse j = { s.pulse j with polarity := data.getLsbD 1 })) ∧
  (∀ (j : Fin 4) (s : State),
    let p := s.pulse j
    let rise := p.start.toNat + p.next * p.period.toNat
    ∃ t, exec (.pulseEdge j) s = .next t ∧ t.tim = { s.tim with pulse := t.tim.pulse } ∧ t.answers = [] ∧
      (∀ k, k ≠ j.val → t.pulse k = s.pulse k) ∧
      (p.enable = false → t.pulse j = p) ∧
      (p.enable = true → p.done = false → p.level = false → rise ≤ s.now.toNat → t.pulse j = { p with
        level := true, count := if p.count = 0 then 0 else p.count - 1, done := decide (p.period = 0 ∨ p.count = 1) }) ∧
      (p.level = false → s.now.toNat < rise → t.pulse j = p) ∧
      (p.enable = true → p.level = true → rise + p.width.toNat ≤ s.now.toNat →
        (t.pulse j).level = false ∧ p.next < (t.pulse j).next ∧ (t.pulse j).done = p.done) ∧
      (p.level = true → s.now.toNat < rise + p.width.toNat → t.pulse j = p)) ∧
  (∀ (stamp : MacStamp) (high : Nat) (s : State),
    let ns := (stamp.read s.tim.inc - 10737418240) / nsUnit
    (high < 100 → exec (.ppsEdge stamp high) s = .next s.begin) ∧
    (100 ≤ high → s.tim.ppsAny = true → s.tim.ppsStamp.toNat ≤ ns → ns < s.tim.ppsStamp.toNat + 900000000 →
      exec (.ppsEdge stamp high) s = .next { s.begin with tim.ppsFast := satInc s.tim.ppsFast }) ∧
    (100 ≤ high → (s.tim.ppsAny = false ∨ s.tim.ppsStamp.toNat + 900000000 ≤ ns) →
      ∃ t, exec (.ppsEdge stamp high) s = .next t ∧ t.tim.ppsStamp = BitVec.ofNat 64 ns ∧
        t.tim.ppsAccepted = s.tim.ppsAccepted + 1 ∧ t.tim.ppsLost = false ∧ t.tim.ppsAny = true ∧
        t.tim.ppsFast = s.tim.ppsFast ∧ t.ctxs = s.ctxs)) ∧
  (∀ s : State,
    (s.tim.ppsLost = false → (s.tim.ppsAny = true → s.outside s.tim.ppsStamp 1500000000 = true) →
      ∃ t, exec .ppsLost s = .next t ∧ t.tim = { s.tim with ppsLost := true } ∧ t.ctxs = s.ctxs) ∧
    (s.tim.ppsAny = true → s.outside s.tim.ppsStamp 1500000000 = false → exec .ppsLost s = .next s.begin)) ∧
  (∀ s : State,
    (s.tim.source = 0 → s.eligible = [] → s.tim.holdover = false →
      ∃ t, exec .holdoverTimeout s = .next t ∧ t.tim.holdover = true ∧ t.tim.locked = false ∧ t.tim.parent = 0x1F ∧
        t.tim.hops = 0xFF ∧ t.tim.root = 0 ∧ t.tim.inc = s.tim.inc ∧ t.ctxs = s.ctxs ∧ t.ports = s.ports) ∧
    (s.tim.source ≠ 0 → exec .holdoverTimeout s = .next s.begin))

/-- O55. TIM_PROBE_CMD under a new SEQ sends a PROBE on a port that carries the exchange and queues its transmit stamp in
the port's group; a full queue of 16 drops the stamp and sets TXQ_OVF; the SEQ acted on sends nothing. A read of
TIM_TXQ_TIME gives the head's ns and removes it, once for a repeated request. A PROBE is answered with its receive stamp, a
PROBE_ECHO stored. SYNC_REQ goes out with the next SEQ and, on a tray link, the correction; one received is answered with
its receive stamp and the previous response's transmit stamp, and a Yobel adds ADJ unless it was sent in an older epoch. A
response that names an earlier request completes it: the peer's offset is ((t2 - t1) - (t4 - t3) - ASYM) / 2 in units of
2^-8 ns. (R315, R316, R319, R321, R325, R326, R412) -/
def Obligations.ProbesAndTheTwoWayExchange : Prop :=
  (∀ (rq : Req) (port : BitVec 5) (id seq : BitVec 16) (stamp : MacStamp) (s : State), s.served rq false .both = true →
    ∃ t, exec (.probeCmd rq port id seq stamp) s = .next t ∧ t.answeredOnly s rq .ok ∧ t.tim.probePort = port ∧
      t.tim.probeId = id ∧ t.tim.probeSeq = seq ∧ t.tim.probeActed = seq ∧ t.ctxs = s.ctxs ∧ t.ports = s.ports ∧
      (seq = s.tim.probeActed → t.sent = [] ∧ t.tim.txq = s.tim.txq) ∧
      ∀ h : port.toNat < 25, seq ≠ s.tim.probeActed → s.exchanges port.toNat = true →
        let l := Map.get [] s.tim.txq (portRegion port.toNat)
        let at_ := s.txStamp port.toNat stamp
        t.sent = [{ dest := .link ⟨port.toNat, h⟩, op := .msg, kind := 7, args := [id.toNat] }] ∧
        (l.length < 16 → Map.get [] t.tim.txq (portRegion port.toNat) = l ++ [{
          port := port, id := id, ns := BitVec.ofNat 64 (at_ / nsUnit), frac := BitVec.ofNat 32 at_ }]) ∧
        (16 ≤ l.length → t.tim.txq = s.tim.txq ∧ t.tim.txqOvf.getLsbD (portRegion port.toNat) = true)) ∧
  (∀ (rq : Req) (q : Fin 4) (s : State), s.served rq false .both = true →
    (s.keptAnswer rq (0x3088 + 16 * q.val) = none →
      ∃ t, exec (.txqTimeRead rq q) s = .next t ∧
        t.answeredOnly s rq .ok 0 (natLe 8 ((((Map.get [] s.tim.txq q.val).head?.map fun (x : TxStamp) => x.ns).getD 0).toNat)) ∧
        Map.get [] t.tim.txq q.val = (Map.get [] s.tim.txq q.val).drop 1 ∧
        ∀ k, k ≠ q.val → Map.get [] t.tim.txq k = Map.get [] s.tim.txq k) ∧
    ∀ a, s.keptAnswer rq (0x3088 + 16 * q.val) = some a →
      exec (.txqTimeRead rq q) s = .next (s.begin.again rq a.answer)) ∧
  (∀ (p : Fin 25) (id : BitVec 16) (stamp : MacStamp) (echo : Stamp) (s : State), s.exchanges p = true →
    exec (.probeReceived p id stamp) s = .next (s.begin.send
      { dest := .link p, op := .msg, kind := 8, args := [id.toNat, s.rxStamp p stamp] }) ∧
    exec (.probeEchoReceived p echo) s = .next { s.begin with tim.probeEcho := BitVec.ofNat 64 (echo / nsUnit) }) ∧
  (∀ (p : Fin 25) (t1 : MacStamp) (s : State), s.exchanges p = true →
    let ms := s.now.toNat / 1000000
    ((s.peerTime p).sentMs = some ms → exec (.syncTimer p t1) s = .next s.begin) ∧
    ((s.peerTime p).sentMs ≠ some ms → ∃ t m, exec (.syncTimer p t1) s = .next t ∧ t.sent = [m] ∧ m.dest = .link p ∧ m.kind = 5 ∧
      m.args = [s.timeHops.toNat, (s.peerTime p).nextSeq.toNat, s.timeRoot.toNat, 0, 0, 0,
        if p.val < 9 then (s.peerTime p).adj.toNat else 0] ∧
      t.peerTime p = { s.peerTime p with
        sentMs := some ms, nextSeq := (s.peerTime p).nextSeq + 1
        sentReq := (s.peerTime p).sentReq ++ [((s.peerTime p).nextSeq, s.txStamp p t1)], adj := 0 } ∧
      (∀ k, k ≠ p.val → t.peerTime k = s.peerTime k) ∧ t.ports = s.ports)) ∧
  (∀ (p : Fin 25) (m : SyncMsg) (epoch : BitVec 32) (t2 t3 : MacStamp) (s : State), 9 ≤ p.val → s.exchanges p = true →
    ∃ t r, exec (.syncReqReceived p m epoch t2 t3) s = .next t ∧ t.sent = [r] ∧ r.dest = .link p ∧ r.kind = 6 ∧
      r.args = [s.timeHops.toNat, m.seq.toNat, s.timeRoot.toNat, s.rxStamp p t2, (s.peerTime p).prevSeq.toNat, (s.peerTime p).prevT3, 0] ∧
      t.peerTime p = { s.peerTime p with hops := m.hops, root := m.root, prevSeq := m.seq, prevT3 := s.txStamp p t3 } ∧ t.ports = s.ports) ∧
  (∀ (p : Fin 25) (m : SyncMsg) (epoch : BitVec 32) (t2 t3 : MacStamp) (s : State), p.val < 9 →
    ∃ t r, exec (.syncReqReceived p m epoch t2 t3) s = .next t ∧ t.sent = [r] ∧ r.kind = 6 ∧
      (t.yobel p).timeOff = (if epoch = (s.yobel p).epoch then (s.yobel p).timeOff + m.adj else (s.yobel p).timeOff) ∧
      (t.yobel p).timeValid = true ∧ (∀ k, k ≠ p.val → t.yobel k = s.yobel k) ∧ t.tim = s.tim) ∧
  (∀ (p : Fin 25) (m : SyncMsg) (t4 : MacStamp) (s : State), s.exchanges p = true →
    (∀ x ∈ (s.peerTime p).sentReq, x.1 ≠ m.prevSeq) →
    ∃ t, exec (.syncRespReceived p m t4) s = .next t ∧ t.peerTime p = { s.peerTime p with
      hops := m.hops, root := m.root, waiting := (s.peerTime p).waiting ++ [(m.seq, m.t2, s.rxStamp p t4)] } ∧ t.ports = s.ports) ∧
  (∀ (p : Fin 25) (m : SyncMsg) (t4 : MacStamp) (t1 t2 t4' : Stamp) (s : State), s.exchanges p = true → s.tim.source ≠ 0 → m.seq ≠ m.prevSeq →
    (s.peerTime p).sentReq = [(m.prevSeq, t1)] → (s.peerTime p).waiting = [(m.prevSeq, t2, t4')] →
    let asym : Int := if p.val < 9 then 0 else (Map.get (0 : BitVec 32) s.tim.asym p).toInt
    let d : Int := ((t2 : Int) - t1) - ((t4' : Int) - m.t3prev)
    ∃ t, exec (.syncRespReceived p m t4) s = .next t ∧
      (t.peerTime p).theta = BitVec.ofInt 48 ((d * 1000 - asym * 4294967296) / (2 * 1000 * 16777216)) ∧
      (t.peerTime p).lastDone = some s.now ∧ (t.peerTime p).sentReq = [] ∧ (t.peerTime p).waiting = [(m.seq, m.t2, s.rxStamp p t4)] ∧
      (p.val < 9 → (t.peerTime p).adj = BitVec.ofInt 64 (-(d / (2 * 65536)))) ∧ t.ctxs = s.ctxs)

/-- O56. An accepted assertion of an input that is used, not masked and outside MIN_PERIOD is acted on: ASSERTED, ACCEPTED;
inside it, it counts in FAST and ASSERTED stays; masked, nothing but its level; a deassertion clears ASSERTED; an unused
input changes nothing. An input still asserted at the end of HOLD is masked and counted in STUCK; QUIET deasserted, or
UNMASK, clears the mask. EVR_CURSOR stores a SEQ, or OLDEST for an older one; a read of EVR_REC7 gives the last word of the
cursor's record, zeros without one, and moves on, once for a repeated request. FREEZE notes its time; clearing it, or 60 s,
writes the queue in order, its last record open; the 60 s record EVR-001. (R397, R398, R399, R400, R412) -/
def Obligations.InputsAndEventRecorder : Prop :=
  (∀ (i : Fin 16) (start : Word) (s : State), s.inputCfg i ≠ {} → (∀ p, s.isSpillPeer p = false) →
    ((s.input i).level = true → (∃ t, exec (.faultInAccept i false start) s = .next t ∧
        t.input i = { s.input i with level := false, asserted := false, since := start } ∧ ∀ k, k ≠ i.val → t.input k = s.input k) ∧
      exec (.faultInAccept i true start) s = .next s.begin) ∧
    ((s.input i).level = false → (s.input i).masked = true → ∃ t, exec (.faultInAccept i true start) s = .next t ∧
      t.input i = { s.input i with level := true, since := start } ∧ t.ports = s.ports ∧ t.evr.opened = s.evr.opened) ∧
    ((s.input i).level = false → (s.input i).masked = false →
      (∀ a, (s.input i).lastActed = some a → start.toNat < a.toNat ∨ a.toNat + 1000 * (s.inputCfg i).minPeriod.toNat ≤ start.toNat) →
      ∃ t, exec (.faultInAccept i true start) s = .next t ∧ t.input i = { s.input i with
        level := true, asserted := true, accepted := satInc (s.input i).accepted, lastActed := some start
        since := start } ∧
        ∀ k, k ≠ i.val → t.input k = s.input k) ∧
    (∀ a, (s.input i).level = false → (s.input i).masked = false → (s.input i).lastActed = some a → a.toNat ≤ start.toNat →
      start.toNat < a.toNat + 1000 * (s.inputCfg i).minPeriod.toNat →
      ∃ t, exec (.faultInAccept i true start) s = .next t ∧ t.ports = s.ports ∧ t.input i = { s.input i with
        level := true, fast := satInc (s.input i).fast, fastSince := some a, since := start })) ∧
  (∀ (i : Fin 16) (level : Bool) (start : Word) (s : State), s.inputCfg i = {} →
    exec (.faultInAccept i level start) s = .next s.begin) ∧
  (∀ (i : Fin 16) (s : State), (∀ p, s.isSpillPeer p = false) →
    let hold := s.outside (s.input i).since (1000000 * (s.inputCfg i).hold.toNat)
    let quiet := s.outside (s.input i).since (1000000 * (s.inputCfg i).quiet.toNat)
    ((s.input i).level = true → (s.input i).masked = false → hold = true → ∃ t, exec (.faultInStuck i) s = .next t ∧
      t.input i = { s.input i with masked := true, asserted := false, stuck := satInc (s.input i).stuck } ∧
      ∀ k, k ≠ i.val → t.input k = s.input k) ∧
    ((s.input i).level = false ∨ (s.input i).masked = true ∨ hold = false → exec (.faultInStuck i) s = .next s.begin) ∧
    ((s.input i).level = false → (s.input i).masked = true → quiet = true → ∃ t, exec (.faultInQuiet i) s = .next t ∧
      t.input i = { s.input i with masked := false } ∧ t.ports = s.ports ∧ ∀ k, k ≠ i.val → t.input k = s.input k) ∧
    ((s.input i).level = true ∨ (s.input i).masked = false ∨ quiet = false → exec (.faultInQuiet i) s = .next s.begin)) ∧
  (∀ (rq : Req) (m : BitVec 16) (s : State), s.served rq true .both = true →
    ∃ t, exec (.unmask rq m) s = .next t ∧ t.answeredOnly s rq .ok ∧ t.ports = s.ports ∧ t.ctxs = s.ctxs ∧
      ∀ i : Fin 16, t.input i = { s.input i with
        masked := (s.input i).masked && !m.getLsbD i
        since := if (s.input i).masked && m.getLsbD i && (s.input i).level then s.now else (s.input i).since }) ∧
  (∀ (rq : Req) (data : Word) (s : State), s.served rq true .both = true →
    let q := data.extractLsb' 0 32
    let o := Evr.oldest s.evr
    exec (.evrCursorWrite rq data) s = .next ({ s.begin with
      evr.cursor := if (q - o).toNat < 2147483648 then q else o
      }.answer rq .ok)) ∧
  (∀ (rq : Req) (s : State), s.served rq true .both = true →
    let found := (s.evr.stored ++ s.evr.opened.toList ++ s.evr.queue).find? fun r => r.seq = s.evr.cursor
    (s.keptAnswer rq 0xE078 = none → ∃ t, exec (.evrRec7Read rq) s = .next t ∧
      t.evr = { s.evr with cursor := s.evr.cursor + 1 } ∧
      (found = none → t.answeredOnly s rq .ok 0 (List.replicate 8 0)) ∧
      ∀ r, found = some r →
        t.answeredOnly s rq .ok 0 (natLe 4 r.w2.toNat ++ natLe 4 (State.crc32c ((State.recordBytes r).take 60)).toNat)) ∧
    ∀ a, s.keptAnswer rq 0xE078 = some a → exec (.evrRec7Read rq) s = .next (s.begin.again rq a.answer)) ∧
  (∀ (rq : Req) (s : State), s.served rq true .both = true →
    (s.evr.freeze = false → exec (.evrFreeze rq true) s = .next ({ s.begin with
      evr.freeze := true
      evr.freezeAt := s.now
      evr.lostAtFreeze := s.evr.lost
      }.answer rq .ok)) ∧
    (s.evr.freeze = true → exec (.evrFreeze rq true) s = .next (s.begin.answer rq .ok)) ∧
    (s.evr.freeze = false → exec (.evrFreeze rq false) s = .next (s.begin.answer rq .ok)) ∧
    (s.evr.freeze = true → s.evr.lost = s.evr.lostAtFreeze → s.evr.stopped.contains 2 = false →
      s.evr.stored.length + 257 ≤ recorderRecords →
      ∃ t, exec (.evrFreeze rq false) s = .next t ∧ t.answeredOnly s rq .ok ∧ t.evr.freeze = false ∧ t.evr.queue = [] ∧
        (s.evr.queue.length ≤ 256 → s.evr.queue ≠ [] → t.evr.opened = s.evr.queue.getLast? ∧
          t.evr.stored = s.evr.stored ++ s.evr.opened.toList ++ s.evr.queue.dropLast) ∧
        (s.evr.queue = [] → t.evr.opened = s.evr.opened ∧ t.evr.stored = s.evr.stored))) ∧
  (∀ s : State, s.evr.freeze = true → s.evr.lost = s.evr.lostAtFreeze →
    (s.outside s.evr.freezeAt (60 * second) = false → exec .freezeTimeout s = .next s.begin) ∧
    (s.outside s.evr.freezeAt (60 * second) = true → ∃ t r, exec .freezeTimeout s = .next t ∧ t.evr.freeze = false ∧
      t.evr.queue = [] ∧ t.evr.opened = some r ∧ r.cls = 22 ∧ r.number = 1 ∧ t.ctxs = s.ctxs))

/-- O57. A scrubbed line without a detection changes nothing but the scrub's place and its passes; one on a clean line is
counted in its stack; one in a mirror copy asks the partner that stands at the same version for the page; one in a context's
escrow abandons its checkpoint. A stack's second failed retrain in a row fails it. A journal record holds the tallies,
erases and the highest erase count among them; and whether the record is damaged, the one before it kept where it was not; a
stopped partition takes none, a failed block takes a spare. A telemetry window is pushed, and shown unless HOLD is set, when
it is counted in SKIPPED; HOLD ends after 1 s. NACK_RETRY has the epoch adopted and the request sent again, a transient
cause leaves it, any final answer under the epoch held ends it; the last one a bind or an activation waited for completes
it. A timeout repeats the request and doubles its wait, to 10 ms at most. Answers kept 1 s ago or earlier are dropped. A
request at a port for which as many unanswered ones are held as the model holds (log entry 103) answers NACK_BUSY with cause
QUEUE_FULL. (R229, R269, R371, R387, R388, R391, R392, R394, R396, R409, R411, R412) -/
def Obligations.BackgroundWorkAndRequesters : Prop :=
  (∀ (last good : Bool) (s : State), s.die.retireDue = [] → (∀ k : Fin 8, (s.hbm k).retiredPages ≤ 1024) →
    s.scrubOwed = none → ∃ t, exec (.scrubLine last none good) s = .next t ∧
    t = { s.begin with
      die.scrubPage := t.die.scrubPage
      die.scrubMissed := t.die.scrubMissed
      tel.passes := t.tel.passes }) ∧
  (∀ s : State, s.die.retireDue = [] → (∀ k : Fin 8, (s.hbm k).retiredPages ≤ 1024) → s.scrubOwed = none →
    s.scrubFrom s.die.scrubPage 8 / State.stackPagesHeld < 8 →
    let i := s.scrubFrom s.die.scrubPage 8 / State.stackPagesHeld
    (s.hbm i).detTimes.length < 64 →
    (∃ t, exec (.scrubLine false (some .clean) true) s = .next t ∧ t.tel.detected = satInc s.tel.detected ∧
      (t.hbm i).scrubDet = satInc (s.hbm i).scrubDet ∧ (t.hbm i).failed = (s.hbm i).failed ∧
      (∀ k, k ≠ i → t.hbm k = s.hbm k) ∧ t.ctxs = s.ctxs ∧ t.mir = s.mir ∧ t.sent = []) ∧
    (∀ (e : BitVec 16) (page line : Nat), (s.entry e.toNat).st ≠ .free → page < (s.entry e.toNat).pages.toNat →
      (s.entry e.toNat).role = true → (s.entry e.toNat).degradedL = false → (s.entry e.toNat).degradedP = false →
      ∃ t m, exec (.scrubLine false (some (.mirror e page line)) true) s = .next t ∧ t.sent = [m] ∧
        m.dest = .node (ctxFin (s.entry e.toNat).ctx.toNat) (s.entry e.toNat).peer ∧ m.kind = 0x20 ∧
        m.args.take 2 = [State.syncNum .line, e.toNat] ∧ (m.args.drop 4).head? = some page ∧ t.ctxs = s.ctxs ∧
        t.entryOnly s e.toNat ∧ t.entry e.toNat = { s.entry e.toNat with
          scrubLines := State.putOnce (s.entry e.toNat).scrubLines (page, line) }) ∧
    (∀ c : Fin 16, (s.ctx c).esc.curSeq ≠ 0 → ∃ t, exec (.scrubLine false (some (.escrow c)) true) s = .next t ∧ t.ckptEnded c ∧
      (t.ctx c).esc.abandonCause = 2 ∧ t.esc.abandoned = satInc s.esc.abandoned)) ∧
  (∀ (i : Fin 8) (s : State), (s.hbm i).failed = false →
    (∃ t, exec (.hbmRetrain i true) s = .next t ∧ t.hbm i = { s.hbm i with
        retrains := satInc (s.hbm i).retrains, retrainFails := 0 } ∧ (∀ k, k ≠ i.val → t.hbm k = s.hbm k) ∧ t.ctxs = s.ctxs) ∧
    ((s.hbm i).retrainFails = 0 → ∃ t, exec (.hbmRetrain i false) s = .next t ∧ (t.hbm i).failed = false ∧
      (t.hbm i).retrainFails = 1 ∧ t.ctxs = s.ctxs ∧ t.mir = s.mir) ∧
    ((s.hbm i).retrainFails = 1 → s.ctxs = [] → s.mir.entries = [] → s.alc.waiters = [] →
      ∃ t, exec (.hbmRetrain i false) s = .next t ∧ (t.hbm i).failed = true ∧ (t.hbm i).cleanMirror = 0)) ∧
  (∀ (erases worst : Nat) (intact : Bool) (s : State),
    (s.evr.stopped.contains 3 = false → ∃ t, exec (.tallyJournalWrite erases worst [] intact) s = .next t ∧
      t.tally 21 = satAdd (s.tally 21) erases ∧
      t.tally 22 = (if (s.tally 22).toNat < worst then BitVec.ofNat 64 worst else s.tally 22) ∧
      t.evr.journal = t.evr.tallies ∧ t.evr.journalDamaged = !intact ∧
      t.evr.journalPrev = (if s.evr.journalDamaged then s.evr.journalPrev else s.evr.journal) ∧
      t.evr.journalSeq = s.evr.journalSeq + 1 ∧
      (∀ k, k ≠ 21 → k ≠ 22 → t.tally k = s.tally k) ∧ t.ctxs = s.ctxs) ∧
    (s.evr.stopped.contains 3 = true → ∃ t, exec (.tallyJournalWrite erases worst [] intact) s = .next t ∧
      t.evr.journal = s.evr.journal ∧ t.evr.journalSeq = s.evr.journalSeq) ∧
    ∀ part : Fin 4, s.evr.stopped.contains part.val = false → s.evr.spareUsed < State.spareTotal →
      ∃ t, exec (.tallyJournalWrite erases worst [part] intact) s = .next t ∧ t.evr.spareUsed = s.evr.spareUsed + 1 ∧
        t.evr.stopped = s.evr.stopped ∧ t.tally 23 = satInc (s.tally 23)) ∧
  (∀ (x : TelSample) (s : State), ∃ t m, exec (.telemetrySnapshot x) s = .next t ∧ t.sent = [m] ∧ m.dest = .firmware ∧
    (s.tel.hold = false → t.tel = { s.tel with seq := s.tel.seq + 2, time := s.now, snap := t.tel.snap } ∧
      m.data = State.snapBytes t.tel.snap ∧ Map.get 0 t.tel.snap 0x1448 = x.pkg) ∧
    (s.tel.hold = true → t.tel = { s.tel with skipped := satInc s.tel.skipped }) ∧ t.ctxs = s.ctxs) ∧
  (∀ s : State, s.tel.hold = true → exec .telHoldTimeout s = .next (if s.outside s.tel.holdAt second then
    { s.begin with tel.hold := false } else s.begin)) ∧
  (∀ (id : BitVec 32) (r : Result) (cause : BitVec 8) (epoch : BitVec 32) (d : Bytes) (s : State),
    (∀ o ∈ s.ctl.out, o.id ≠ id) → exec (.respReceived id r cause epoch d) s = .next s.begin) ∧
  (∀ (o : Outstanding) (r : Result) (cause : BitVec 8) (epoch : BitVec 32) (d : Bytes) (s : State), s.ctl.out = [o] →
    o.msg.op = .wr → o.msg.addr ≠ 0x1000 → o.msg.addr / 17592186044416 ≠ 6 → (∀ k : Fin 9, o.msg.dest = .yobel k →
    (r = .nackRetry → s.heldFor o.msg.dest (s.msgScope o.msg) = none →
      State.newerHalf 0 (epoch.extractLsb' 16 16) = true →
      ∃ t, exec (.respReceived o.id r cause epoch d) s = .next t ∧ t.sent = [o.msg] ∧ t.ctl.out = [o] ∧
        t.heldEpoch o.msg.dest (s.msgScope o.msg) = epoch ∧ t.ctxs = s.ctxs) ∧
    (r = .nackBusy → State.transientCause cause = true → s.heldEpoch o.msg.dest (s.msgScope o.msg) = epoch →
      exec (.respReceived o.id r cause epoch d) s = .next s.begin) ∧
    (r = .ok → s.heldEpoch o.msg.dest (s.msgScope o.msg) = epoch → (∀ e ∈ s.mir.entries, ∀ w ∈ e.2.windowWrites, o.id ∉ w.ids) →
      (∀ n : Fin 16, o.id ∉ (s.ctx n).life.transfers) →
      (∀ n : Fin 16, (s.ctx n).bind.ids = [o.id] → (∀ j : Fin 16, j ≠ n → o.id ∉ (s.ctx j).bind.ids) →
        ∃ t, exec (.respReceived o.id r cause epoch d) s = .next t ∧ t.ctl.out = [] ∧ (t.ctx n).bind.st = 2 ∧
          (t.ctx n).bind.ids = [] ∧ t.otherCtxs s n ∧ t.mir = s.mir) ∧
      ((∀ n : Fin 16, o.id ∉ (s.ctx n).bind.ids) →
        exec (.respReceived o.id r cause epoch d) s = .next { s.begin with ctl.out := [] })) ∧
    (∀ n : Fin 16, r = .ok → s.heldEpoch o.msg.dest (s.msgScope o.msg) = epoch → (s.ctx n).life.transfers = [o.id] →
      (s.ctx n).life.activating = true → (∀ j : Fin 16, j ≠ n → o.id ∉ (s.ctx j).life.transfers) →
      (∀ j : Fin 16, o.id ∉ (s.ctx j).bind.ids) → (∀ e ∈ s.mir.entries, ∀ w ∈ e.2.windowWrites, o.id ∉ w.ids) →
      ∃ t, exec (.respReceived o.id r cause epoch d) s = .next t ∧ t.ctl.out = [] ∧ (t.ctx n).life.st = .active ∧
        (t.ctx n).epoch = (s.ctx n).epoch + 1 ∧ t.otherCtxs s n ∧ t.mir = s.mir))) ∧
  (∀ (o : Outstanding) (s : State), s.ctl.out = [o] → s.outside o.since (1000 * o.wait) = false →
    exec (.requestTimeout o.id) s = .next s.begin) ∧
  (∀ (o : Outstanding) (s : State), s.ctl.out = [o] → s.outside o.since (1000 * o.wait) = true →
    ∃ t, exec (.requestTimeout o.id) s = .next t ∧ t.sent = [o.msg] ∧
      t.ctl.out = [{ o with tries := o.tries + 1, wait := max o.wait (min 10000 (2 * o.wait)), since := s.now }] ∧
      t.esc.resent = (if o.msg.op = .wrc ∧ o.msg.addr / 17592186044416 = 6 then satInc s.esc.resent else s.esc.resent) ∧
      t.ctxs = s.ctxs ∧ t.mir = s.mir) ∧
  (∀ s : State, exec .keptAnswerExpiry s = .next { s.begin with
    ctl.kept := s.ctl.kept.filter fun a => !s.outside a.time second }) ∧
  (∀ (p : Fin 25) (rq : Req) (off len : Nat) (s : State), rq.path = .port p → s.kin.power = .ready → s.portUp p = true →
    s.rst.drained = false → rq.ctxv = true → (s.port p).closedFor.contains rq.ctx = false → s.sourceOk p rq = true →
    rq.epoch = s.epochOf true rq.ctx → s.queueFull p = true →
    exec (.mirrorWindowRd rq off len) s = .next (s.begin.answer rq .nackBusy 0x16))

/-- O58. A request that reaches control space: an operation other than RD and WR answers NACK_ACCESS, an access that is
misaligned, empty or leaves its block NACK_ADDRESS, one by a requester R343 does not allow NACK_ACCESS. RD gives the
registers' values; WR of PWR_LIMIT stores the nearer limit, of TST_GRANT_START and END both words, of a W1C bit clears it
once for a repeated request, of an RO register answers NACK_ACCESS and changes nothing, as a management write of
CTX_BIND_CMD does. An SGMII datagram to control space is the same access by its path; other spaces answer NACK_ACCESS,
undecoded ones NACK_ADDRESS. An I3C write of 4 bytes sets the offset, one of 12 writes the register, another length leaves
RESULT 5; a read gives the RESULT and the 8 bytes at the offset. (R6, R343, R403, R412, R413, R414, R415, R416) -/
def Obligations.ControlSpaceAccesses : Prop :=
  (∀ (rq : Req) (op : OpCode) (a len : Nat) (data : Bytes) (env : WriteEnv) (s : State), s.reaches rq false = true →
    let n := if op = .rd then len else data.length
    (op ≠ .rd → op ≠ .wr → exec (.registerWrite rq op a len data env) s = .next (s.begin.answer rq .nackAccess)) ∧
    (op = .rd ∨ op = .wr → (a % 8 ≠ 0 ∨ n % 8 ≠ 0 ∨ n = 0 ∨ State.inBlock a n = false) →
      exec (.registerWrite rq op a len data env) s = .next (s.begin.answer rq .nackAddress)) ∧
    (op = .rd ∨ op = .wr → State.inBlock a n = true → n ≤ 256 → s.mayAccess rq op a = false →
      exec (.registerWrite rq op a len data env) s = .next (s.begin.answer rq .nackAccess))) ∧
  (∀ (rq : Req) (env : WriteEnv) (s : State), s.reaches rq false = true →
    exec (.registerWrite rq .rd 0 8 [] env) s = .next (s.begin.answer rq .ok 0 (natLe 8
      (Word.pack [(0, 0x8160), (16, s.ident.stepping.toNat), (24, s.ident.pkgRev.toNat)]).toNat)) ∧
    exec (.registerWrite rq .rd 0x8 8 [] env) s = .next (s.begin.answer rq .ok 0 (natLe 8 s.ident.serial.toNat))) ∧
  (∀ (rq : Req) (env : WriteEnv) (s : State), s.served rq false .both = true → s.sec.lc ≠ .retired →
    exec (.registerWrite rq .rd 0x3008 8 [] env) s = .next (s.begin.answer rq .ok 0 (natLe 8 s.now.toNat)) ∧
    exec (.registerWrite rq .rd 0x1008 8 [] env) s = .next (s.begin.answer rq .ok 0 (natLe 8 s.pwr.limit.toNat))) ∧
  (∀ (rq : Req) (v w : Word) (env : WriteEnv) (s : State), s.served rq false .both = true →
    (∃ t, exec (.registerWrite rq .wr 0x1008 0 (natLe 8 v.toNat) env) s = .next t ∧ t.answeredOnly s rq .ok ∧
      t.pwr.limit.toNat = max 300 (min 1100 (v.extractLsb' 0 11).toNat) ∧ t.pwr = { s.pwr with limit := t.pwr.limit } ∧
      t.ctxs = s.ctxs ∧ t.tim = s.tim ∧ t.mir = s.mir) ∧
    (∃ t, exec (.registerWrite rq .wr 0xD0A8 0 (natLe 8 v.toNat ++ natLe 8 w.toNat) env) s = .next t ∧ t.answeredOnly s rq .ok ∧
      t.tst = { s.tst with grantStart := v, grantEnd := w } ∧ t.ctxs = s.ctxs) ∧
    (∀ a, a = 0x0008 ∨ a = 0x1000 ∨ a = 0x3008 →
      exec (.registerWrite rq .wr a 0 (natLe 8 v.toNat) env) s = .next (s.begin.answer rq .nackAccess)) ∧
    (s.keptAnswer rq 0x3028 = none → (v &&& 0xF0) ≠ 0 →
      ∃ t, exec (.registerWrite rq .wr 0x3028 0 (natLe 8 v.toNat) env) s = .next t ∧ t.answeredOnly s rq .ok ∧
        t.tim = { s.tim with txqOvf := s.tim.txqOvf &&& ~~~(v.extractLsb' 4 4) } ∧ t.ctxs = s.ctxs) ∧
    (∀ k, s.keptAnswer rq 0x3028 = some k → (v &&& 0xF0) ≠ 0 →
      exec (.registerWrite rq .wr 0x3028 0 (natLe 8 v.toNat) env) s = .next (s.begin.again rq k.answer)) ∧
    (State.management rq = true →
      exec (.registerWrite rq .wr 0x90D0 0 (natLe 8 v.toNat) env) s = .next (s.begin.answer rq .nackAccess))) ∧
  (∀ (rq : Req) (op : OpCode) (addr len : Nat) (data : Bytes) (env : WriteEnv) (s : State),
    (addr < 2 ^ 44 → exec (.sgmiiDatagram rq op addr len data env) s =
      exec (.registerWrite { rq with path := .sgmii } op addr len data env) s) ∧
    (2 ^ 44 ≤ addr → s.reaches { rq with path := .sgmii } false = true →
      exec (.sgmiiDatagram rq op addr len data env) s =
        .next (s.begin.answer { rq with path := .sgmii } (if addr < 6 * 2 ^ 44 then .nackAccess else .nackAddress)))) ∧
  (∀ (data : Bytes) (env : WriteEnv) (s : State), s.kin.power ≠ .off → s.kin.power ≠ .railLost →
    (data.length = 4 → exec (.i3cPrivateWrite data env) s = .next { s.begin with
      ctl.i3cOffset := BitVec.ofNat 32 (Bytes.le data 0 4)
      ctl.i3cResult := 0 }) ∧
    (data.length ≠ 4 → data.length ≠ 12 → exec (.i3cPrivateWrite data env) s = .next { s.begin with ctl.i3cResult := 5 })) ∧
  (∀ (v : Word) (env : WriteEnv) (s : State), s.kin.power = .ready →
    ∃ t, exec (.i3cPrivateWrite (natLe 4 0x1008 ++ natLe 8 v.toNat) env) s = .next t ∧ t.answers = [] ∧
      t.pwr.limit.toNat = max 300 (min 1100 (v.extractLsb' 0 11).toNat) ∧ t.ctl.i3cOffset = 0x1008 ∧ t.ctl.i3cResult = 1 ∧
      t.ctxs = s.ctxs) ∧
  (∀ s : State, s.kin.power = .ready → s.sec.lc ≠ .retired → s.ctl.i3cOffset = 0x1008 →
    ∃ t, exec .i3cPrivateRead s = .next t ∧ t.ctl.i3cResult = 0 ∧ t.ctl.i3cOffset = s.ctl.i3cOffset ∧ t.ctxs = s.ctxs ∧
      t.answers.map (fun x => x.data) = [natLe 1 (if s.ctl.i3cResult = 0 then 1 else s.ctl.i3cResult.toNat) ++
        natLe 8 s.pwr.limit.toNat]) ∧
  (∀ (data : Bytes) (env : WriteEnv) (s : State), s.kin.power = .off →
    exec (.i3cPrivateWrite data env) s = .next s.begin)

/-- O59. After reset no command waits, every context is EMPTY with epoch 1 and no accepted attempt, every shard ledger entry
is FREE, the spare hearths are 16, 33, 50 and 67 and all others of 0 to 67 are active, every region is powered and every
stack in service, the registers with a default hold it (TIME_INCREMENT 10 ns, PARENT 0x1F, the peers' HOPS 0xFF, PWR_LIMIT
1100 W, ALC_CFG0 and ALC_CFG1, MIR_CFG, ESC_CFG, TST_CFG0 and TST_CFG1, PERIOD_H 24, a segment's MAXEXP 0x8000), the tables
are in canonical form and the clamped registers within their ranges. That the device stands at READY, owned, with an image
of defaults, is the model's choice (log entries 1 and 2). The state in which Azard leaves the factory, without power, is
State.factory: PROVISIONED, its identity key and chain stored, no operator key, no context, every tally 0 and the date of
first operation unset. (R4, R14, R55, R105, R108, R139, R219, R264, R285, R326, R334, R386) -/
def Obligations.ResetState : Prop :=
  State.reset.pending = [] ∧ State.reset.answers = [] ∧ State.reset.sent = [] ∧
  (∀ n : Nat, (State.reset.ctx n).life.st = .empty ∧ (State.reset.ctx n).epoch = 1 ∧ (State.reset.ctx n).step.accepted = [] ∧
    (State.reset.ctx n).step.phase = .none) ∧
  (∀ n k : Nat, (Map.get ({} : Seg) (State.reset.ctx n).clr.segs k).maxexp = 0x8000) ∧
  (∀ i : Nat, (State.reset.entry i).st = .free) ∧
  (∀ h : Nat, (State.reset.hearth h).role = if h = 16 ∨ h = 33 ∨ h = 50 ∨ h = 67 then .spare else .active) ∧
  (∀ q : Nat, (State.reset.region q).power = .on ∧ (State.reset.region q).outgoing = 0x7F) ∧
  (∀ i : Nat, (State.reset.hbm i).failed = false) ∧
  (∀ p : Nat, (State.reset.port p).verdict = .none) ∧
  (∀ p : Nat, (Map.get ({} : PeerTime) State.reset.tim.peer p).hops = 0xFF) ∧
  State.reset.tim.inc = 0x0000000A00000000 ∧ State.reset.tim.parent = 0x1F ∧ State.reset.tim.hops = 0xFF ∧
  State.reset.pwr.limit = 1100 ∧
  (State.reset.alc.wipePct = 25 ∧ State.reset.alc.wipeUrgent = 50 ∧ State.reset.alc.migratePct = 5 ∧
    State.reset.alc.migratePages = 512 ∧ State.reset.alc.wakeGuard = 10 ∧ State.reset.alc.gateIdle = 10 ∧
    State.reset.alc.vcMaxPct = 50 ∧ State.reset.alc.replaySpill = 256) ∧
  (State.reset.mir.digestWait = 1000 ∧ State.reset.mir.repairTries = 3) ∧
  (State.reset.esc.poolGib = 64 ∧ State.reset.esc.lowWater = 25 ∧ State.reset.esc.damperPct = 10 ∧
    State.reset.esc.fullPct = 100 ∧ State.reset.esc.outstanding = 16) ∧
  (State.reset.tst.slack = 4 ∧ State.reset.tst.deferH = 72 ∧ State.reset.tst.accelH = 24 ∧ State.reset.tst.rotateMin = 60 ∧
    State.reset.tst.oddPages = 2 ∧ State.reset.tst.capLimit = 1 ∧ State.reset.tst.pairLimit = 1) ∧
  State.reset.tel.periodH = 24 ∧ State.reset.tablesWf = true ∧ State.reset.rangesOk = true ∧
  State.factory.sec.lc = .provisioned ∧ State.factory.sec.identityKey = Config.factoryKey ∧
  State.factory.sec.identityChain = Config.factoryChain ∧ State.factory.sec.opKey = [] ∧ State.factory.ctxs = [] ∧
  State.factory.kin.power = .off ∧ (∀ i : Nat, State.factory.tally i = 0) ∧ State.factory.tablesWf = true

/-- O60. In every state whose tables are in canonical form and whose clamped registers (PWR_LIMIT, TIME_INCREMENT, ALC_CFG0
and ALC_CFG1, MIR_CFG, ESC_CFG, TST_CFG0 and TST_CFG1, PERIOD_H) are within their ranges, any step, whatever command stands
at the front of the queue, leaves a state of which the same holds; the ID_ registers are as before, and the queue has lost
its front command and nothing else. (R139, R219, R264, R285, R309, R396, R415, R416) -/
def Obligations.EveryStepKeepsTheMachineSound : Prop :=
  ∀ s t : State, s.tablesWf = true → s.rangesOk = true → step s = .next t →
    t.tablesWf = true ∧ t.rangesOk = true ∧ t.ident = s.ident ∧ t.pending = s.pending.tail

end
end

