-- ==== Sys2Proof/Laws/Map.lean ====
section
/-!
SUPPORT. Sys2Proof/Laws/Map.lean: the laws of the sparse tables and byte memories: what is read after a write, what a write
leaves alone, and that every operation keeps the canonical form.
-/

namespace Sys2Proof.Machine

variable {α : Type}

/-! ## Reading after writing -/

theorem Map.get_erase_same (d : α) (m : Map α) (k : Nat) : Map.get d (Map.erase m k) k = d := by
  induction m with
  | nil => rfl
  | cons x r ih => by_cases h : x.1 = k <;> simp [Map.erase, Map.get, h, ih]

theorem Map.get_erase_ne (d : α) (m : Map α) {j k : Nat} (h : j ≠ k) : Map.get d (Map.erase m k) j = Map.get d m j := by
  induction m with
  | nil => rfl
  | cons x r ih =>
    by_cases hk : x.1 = k
    · have hj : x.1 ≠ j := fun e => h (e.symm.trans hk)
      simp [Map.erase, Map.get, hk, ih, Ne.symm h]
    · simp [Map.erase, Map.get, hk, ih]

theorem Map.get_put_same (d : α) (m : Map α) (k : Nat) (v : α) : Map.get d (Map.put m k v) k = v := by
  induction m with
  | nil => simp [Map.put, Map.get]
  | cons x r ih =>
    simp only [Map.put]
    split
    · next h => simp [Map.get, Nat.ne_of_lt h, ih]
    · split <;> simp [Map.get]

theorem Map.get_put_ne (d : α) (m : Map α) {j k : Nat} (v : α) (h : j ≠ k) :
    Map.get d (Map.put m k v) j = Map.get d m j := by
  induction m with
  | nil => simp [Map.put, Map.get, Ne.symm h]
  | cons x r ih =>
    simp only [Map.put]
    split
    · simp [Map.get, ih]
    · split
      · next e => simp [Map.get, Ne.symm h, e]
      · simp [Map.get, Ne.symm h]

/-- What is read back from the key just written is the value written. -/
theorem Map.get_set_same [DecidableEq α] (d : α) (m : Map α) (k : Nat) (v : α) : Map.get d (Map.set d m k v) k = v := by
  unfold Map.set
  split
  · next h => rw [Map.get_erase_same, h]
  · exact Map.get_put_same d m k v

/-- A write leaves every other key's value alone. -/
theorem Map.get_set_ne [DecidableEq α] (d : α) (m : Map α) {j k : Nat} (v : α) (h : j ≠ k) :
    Map.get d (Map.set d m k v) j = Map.get d m j := by
  unfold Map.set
  split
  · exact Map.get_erase_ne d m h
  · exact Map.get_put_ne d m v h

/-- Both laws in one. -/
theorem Map.get_set [DecidableEq α] (d : α) (m : Map α) (j k : Nat) (v : α) :
    Map.get d (Map.set d m k v) j = if j = k then v else Map.get d m j := by
  split
  · next h => rw [h, Map.get_set_same]
  · next h => exact Map.get_set_ne d m v h

/-! ## The canonical form -/

/-- The canonical form in the two facts that it joins. -/
theorem Map.wf_iff [DecidableEq α] (d : α) (m : Map α) :
    Map.wf d m = true ↔ m.Pairwise (fun a b => a.1 < b.1) ∧ ∀ x ∈ m, x.2 ≠ d := by
  induction m with
  | nil => simp [Map.wf]
  | cons x r ih =>
    cases r with
    | nil => simp [Map.wf]
    | cons y t =>
      simp only [Map.wf, Bool.and_eq_true, decide_eq_true_eq, ih, List.pairwise_cons]
      constructor
      · rintro ⟨⟨hx, hlt⟩, ⟨hy, ht⟩, hall⟩
        refine ⟨⟨?_, hy, ht⟩, ?_⟩
        · intro z hz
          rcases List.mem_cons.mp hz with rfl | hz
          · exact hlt
          · exact Nat.lt_trans hlt (hy z hz)
        · intro z hz
          rcases List.mem_cons.mp hz with rfl | hz
          · simpa using hx
          · exact hall z hz
      · rintro ⟨⟨hlt, hy, ht⟩, hall⟩
        exact ⟨⟨by simpa using hall x (by simp), hlt y (by simp)⟩, ⟨hy, ht⟩, fun z hz => hall z (by simp [hz])⟩

theorem Map.erase_eq_filter (m : Map α) (k : Nat) : Map.erase m k = m.filter fun x => x.1 ≠ k := by
  induction m with
  | nil => rfl
  | cons x r ih => by_cases h : x.1 = k <;> simp [Map.erase, h, ih]

theorem Map.mem_put {m : Map α} {k : Nat} {v : α} {x : Nat × α} (h : x ∈ Map.put m k v) : x = (k, v) ∨ x ∈ m := by
  induction m with
  | nil => simpa [Map.put] using h
  | cons y r ih =>
    simp only [Map.put] at h
    split at h
    · rcases List.mem_cons.mp h with rfl | h
      · simp
      · rcases ih h with h | h <;> simp [h]
    · split at h
      · rcases List.mem_cons.mp h with h | h <;> simp [h]
      · rcases List.mem_cons.mp h with h | h
        · simp [h]
        · right; exact h

theorem Map.wf_erase [DecidableEq α] {d : α} {m : Map α} (k : Nat) (h : Map.wf d m = true) :
    Map.wf d (Map.erase m k) = true := by
  rw [Map.wf_iff] at *
  rw [Map.erase_eq_filter]
  exact ⟨h.1.filter _, fun x hx => h.2 x (List.mem_filter.mp hx).1⟩

theorem Map.wf_put [DecidableEq α] {d : α} {m : Map α} (k : Nat) {v : α} (hv : v ≠ d) (h : Map.wf d m = true) :
    Map.wf d (Map.put m k v) = true := by
  rw [Map.wf_iff] at *
  refine ⟨?_, fun x hx => ?_⟩
  · have hs := h.1
    clear h
    induction m with
    | nil => simp [Map.put]
    | cons y r ih =>
      obtain ⟨hy, hr⟩ := List.pairwise_cons.mp hs
      simp only [Map.put]
      split
      · next hlt =>
        refine List.pairwise_cons.mpr ⟨fun z hz => ?_, ih hr⟩
        rcases Map.mem_put hz with rfl | hz
        · exact hlt
        · exact hy z hz
      · split
        · next e => exact List.pairwise_cons.mpr ⟨fun z hz => e ▸ hy z hz, hr⟩
        · next h1 h2 =>
          have hlt : k < y.1 := by omega
          refine List.pairwise_cons.mpr ⟨fun z hz => ?_, hs⟩
          rcases List.mem_cons.mp hz with rfl | hz
          · exact hlt
          · exact Nat.lt_trans hlt (hy z hz)
  · rcases Map.mem_put hx with rfl | hx
    · exact hv
    · exact h.2 x hx

/-- A write keeps the canonical form. -/
theorem Map.wf_set [DecidableEq α] {d : α} {m : Map α} (k : Nat) (v : α) (h : Map.wf d m = true) :
    Map.wf d (Map.set d m k v) = true := by
  unfold Map.set
  split
  · exact Map.wf_erase k h
  · next hv => exact Map.wf_put k hv h

theorem Map.wf_mod [DecidableEq α] {d : α} {m : Map α} (k : Nat) (f : α → α) (h : Map.wf d m = true) :
    Map.wf d (Map.mod d m k f) = true := Map.wf_set k _ h

/-- A change of every listed value keeps the canonical form. -/
theorem Map.wf_mapVals [DecidableEq α] {d : α} {m : Map α} (f : Nat → α → α) (h : Map.wf d m = true) :
    Map.wf d (Map.mapVals d m f) = true := by
  rw [Map.wf_iff] at *
  refine ⟨List.Pairwise.filter _ ?_, fun x hx => by simpa using (List.mem_filter.mp hx).2⟩
  exact List.pairwise_map.mpr h.1

/-! ## Byte memories -/

theorem Mem.byte_setByte (m : Mem) (a j : Nat) (b : Byte) :
    Mem.byte (Mem.setByte m a b) j = if j = a then b else Mem.byte m j := Map.get_set 0 m j a b

theorem Mem.wf_setByte {m : Mem} (a : Nat) (b : Byte) (h : m.wf = true) : (Mem.setByte m a b).wf = true := Map.wf_set a b h

/-- Storing bytes keeps a memory's canonical form. -/
theorem Mem.wf_write {m : Mem} (a : Nat) (bs : Bytes) (h : m.wf = true) : (Mem.write m a bs).wf = true := by
  induction bs generalizing m a with
  | nil => exact h
  | cons b r ih => exact ih (a + 1) (Mem.wf_setByte a b h)

/-- A byte outside the bytes stored reads as before. -/
theorem Mem.byte_write_outside (m : Mem) (a j : Nat) (bs : Bytes) (h : j < a ∨ a + bs.length ≤ j) :
    Mem.byte (Mem.write m a bs) j = Mem.byte m j := by
  induction bs generalizing m a with
  | nil => rfl
  | cons b r ih =>
    simp only [List.length_cons] at h
    rw [Mem.write, ih _ _ (by omega), Mem.byte_setByte, if_neg (by omega)]

/-- A byte stored reads back. -/
theorem Mem.byte_write_inside (m : Mem) (a : Nat) (bs : Bytes) (i : Nat) (h : i < bs.length) :
    Mem.byte (Mem.write m a bs) (a + i) = bs[i] := by
  induction bs generalizing m a i with
  | nil => simp at h
  | cons b r ih =>
    cases i with
    | zero => rw [Mem.write, Mem.byte_write_outside _ _ _ _ (by omega), Mem.byte_setByte]; simp
    | succ i =>
      have := ih (Mem.setByte m a b) (a + 1) i (by simpa using h)
      rw [Mem.write]
      simpa [Nat.add_assoc, Nat.add_comm 1 i] using this

/-- The bytes stored are the bytes read. -/
theorem Mem.read_write (m : Mem) (a : Nat) (bs : Bytes) : Mem.read (Mem.write m a bs) a bs.length = bs := by
  have read_eq : ∀ (m : Mem) (n a : Nat), Mem.read m a n = (List.range n).map fun i => Mem.byte m (a + i) := by
    intro m n
    induction n with
    | zero => intro a; rfl
    | succ n ih =>
      intro a
      rw [Mem.read, ih, List.range_succ_eq_map]
      simp [Nat.add_assoc, Nat.add_comm 1]
  rw [read_eq]
  apply List.ext_getElem
  · simp
  · intro i h1 h2
    simp [Mem.byte_write_inside _ _ _ _ h2]

end Sys2Proof.Machine
end

