-- ==== Sys2Proof/Laws/State.lean ====
section
/-!
SUPPORT. Sys2Proof/Laws/State.lean: one lemma per field per update of State, each true by unfolding, so that no proof unfolds a
record update.  The shorthands for one update (a part changed by a function, an event, an answer) rewrite to it.
-/

namespace Sys2Proof.Machine.State

variable (s : State)

/-! ## Shorthands -/

@[simp] theorem modPort_eq (p : Nat) (f : Port → Port) : s.modPort p f = s.setPort p (f (s.port p)) := rfl
@[simp] theorem modCtx_eq (n : Nat) (f : Ctx → Ctx) : s.modCtx n f = s.setCtx n (f (s.ctx n)) := rfl
@[simp] theorem modHearth_eq (h : Nat) (f : Hearth → Hearth) : s.modHearth h f = s.setHearth h (f (s.hearth h)) := rfl
@[simp] theorem modRegion_eq (q : Nat) (f : Region → Region) : s.modRegion q f = s.setRegion q (f (s.region q)) := rfl
@[simp] theorem modHbm_eq (i : Nat) (f : HbmStack → HbmStack) : s.modHbm i f = s.setHbm i (f (s.hbm i)) := rfl
@[simp] theorem modEntry_eq (e : Nat) (f : Entry → Entry) : s.modEntry e f = s.setEntry e (f (s.entry e)) := rfl
@[simp] theorem modEngine_eq (h : Nat) (f : Engine → Engine) : s.modEngine h f = s.setEngine h (f (s.engine h)) := rfl
@[simp] theorem modYobel_eq (k : Nat) (f : Yobel → Yobel) : s.modYobel k f = s.setYobel k (f (s.yobel k)) := rfl
@[simp] theorem modTstPort_eq (k : Nat) (f : TstPort → TstPort) : s.modTstPort k f = s.setTstPort k (f (s.tstPort k)) := rfl
@[simp] theorem modInput_eq (i : Nat) (f : Input → Input) : s.modInput i f = s.setInput i (f (s.input i)) := rfl
@[simp] theorem bumpTally_eq (i : Nat) : s.bumpTally i = s.setTally i (satInc (s.tally i)) := rfl
@[simp] theorem addTally_eq (i n : Nat) : s.addTally i n = s.setTally i (satAdd (s.tally i) n) := rfl
@[simp] theorem event_eq (c n : Nat) (x : BitVec 32) : s.event c n x = s.record c n x 0 0 0 := rfl
@[simp] theorem eventCode_eq (c n : Nat) (x : BitVec 32) (k : Nat) :
    s.eventCode c n x k = s.record c n x (BitVec.ofNat 32 k) 0 0 := rfl
@[simp] theorem ok_eq (rq : Req) : s.ok rq = s.answer rq .ok 0 [] := rfl
@[simp] theorem busy_eq (rq : Req) (c : Nat) : s.busy rq c = s.answer rq .nackBusy (BitVec.ofNat 8 c) [] := rfl
@[simp] theorem nackAccess_eq (rq : Req) : s.nackAccess rq = s.answer rq .nackAccess 0 [] := rfl
@[simp] theorem nackAddress_eq (rq : Req) : s.nackAddress rq = s.answer rq .nackAddress 0 [] := rfl
@[simp] theorem nackClaim_eq (rq : Req) : s.nackClaim rq = s.answer rq .nackClaim 0 [] := rfl
@[simp] theorem nackRetry_eq (rq : Req) : s.nackRetry rq = s.answer rq .nackRetry 0 [] := rfl

/-! ## begin -/

@[simp] theorem begin_tim : (s.begin).tim = s.tim := rfl
@[simp] theorem begin_kin : (s.begin).kin = s.kin := rfl
@[simp] theorem begin_rst : (s.begin).rst = s.rst := rfl
@[simp] theorem begin_pwr : (s.begin).pwr = s.pwr := rfl
@[simp] theorem begin_die : (s.begin).die = s.die := rfl
@[simp] theorem begin_ports : (s.begin).ports = s.ports := rfl
@[simp] theorem begin_egress : (s.begin).egress = s.egress := rfl
@[simp] theorem begin_fabric : (s.begin).fabric = s.fabric := rfl
@[simp] theorem begin_alc : (s.begin).alc = s.alc := rfl
@[simp] theorem begin_ctxs : (s.begin).ctxs = s.ctxs := rfl
@[simp] theorem begin_clr : (s.begin).clr = s.clr := rfl
@[simp] theorem begin_mir : (s.begin).mir = s.mir := rfl
@[simp] theorem begin_esc : (s.begin).esc = s.esc := rfl
@[simp] theorem begin_tst : (s.begin).tst = s.tst := rfl
@[simp] theorem begin_evr : (s.begin).evr = s.evr := rfl
@[simp] theorem begin_tel : (s.begin).tel = s.tel := rfl
@[simp] theorem begin_sec : (s.begin).sec = s.sec := rfl
@[simp] theorem begin_engines : (s.begin).engines = s.engines := rfl
@[simp] theorem begin_yobels : (s.begin).yobels = s.yobels := rfl
@[simp] theorem begin_flues : (s.begin).flues = s.flues := rfl
@[simp] theorem begin_ctl : (s.begin).ctl = s.ctl := rfl
@[simp] theorem begin_ident : (s.begin).ident = s.ident := rfl
@[simp] theorem begin_free : (s.begin).free = s.free := rfl
@[simp] theorem begin_pending : (s.begin).pending = s.pending := rfl
@[simp] theorem begin_answers : s.begin.answers = [] := rfl
@[simp] theorem begin_sent : s.begin.sent = [] := rfl
@[simp] theorem begin_port (j : Nat) : (s.begin).port j = s.port j := rfl
@[simp] theorem begin_ctx (j : Nat) : (s.begin).ctx j = s.ctx j := rfl
@[simp] theorem begin_hearth (j : Nat) : (s.begin).hearth j = s.hearth j := rfl
@[simp] theorem begin_region (j : Nat) : (s.begin).region j = s.region j := rfl
@[simp] theorem begin_hbm (j : Nat) : (s.begin).hbm j = s.hbm j := rfl
@[simp] theorem begin_entry (j : Nat) : (s.begin).entry j = s.entry j := rfl
@[simp] theorem begin_engine (j : Nat) : (s.begin).engine j = s.engine j := rfl
@[simp] theorem begin_yobel (j : Nat) : (s.begin).yobel j = s.yobel j := rfl
@[simp] theorem begin_tstPort (j : Nat) : (s.begin).tstPort j = s.tstPort j := rfl
@[simp] theorem begin_input (j : Nat) : (s.begin).input j = s.input j := rfl
@[simp] theorem begin_flue (j : Nat) : (s.begin).flue j = s.flue j := rfl
@[simp] theorem begin_tally (j : Nat) : (s.begin).tally j = s.tally j := rfl
@[simp] theorem begin_now : (s.begin).now = s.now := rfl
@[simp] theorem begin_epochOf (b : Bool) (j : Nat) : (s.begin).epochOf b j = s.epochOf b j := rfl

/-! ## setPort -/

@[simp] theorem setPort_tim (p : Nat) (v : Port) : (s.setPort p v).tim = s.tim := rfl
@[simp] theorem setPort_kin (p : Nat) (v : Port) : (s.setPort p v).kin = s.kin := rfl
@[simp] theorem setPort_rst (p : Nat) (v : Port) : (s.setPort p v).rst = s.rst := rfl
@[simp] theorem setPort_pwr (p : Nat) (v : Port) : (s.setPort p v).pwr = s.pwr := rfl
@[simp] theorem setPort_die (p : Nat) (v : Port) : (s.setPort p v).die = s.die := rfl
@[simp] theorem setPort_egress (p : Nat) (v : Port) : (s.setPort p v).egress = s.egress := rfl
@[simp] theorem setPort_fabric (p : Nat) (v : Port) : (s.setPort p v).fabric = s.fabric := rfl
@[simp] theorem setPort_alc (p : Nat) (v : Port) : (s.setPort p v).alc = s.alc := rfl
@[simp] theorem setPort_ctxs (p : Nat) (v : Port) : (s.setPort p v).ctxs = s.ctxs := rfl
@[simp] theorem setPort_clr (p : Nat) (v : Port) : (s.setPort p v).clr = s.clr := rfl
@[simp] theorem setPort_mir (p : Nat) (v : Port) : (s.setPort p v).mir = s.mir := rfl
@[simp] theorem setPort_esc (p : Nat) (v : Port) : (s.setPort p v).esc = s.esc := rfl
@[simp] theorem setPort_tst (p : Nat) (v : Port) : (s.setPort p v).tst = s.tst := rfl
@[simp] theorem setPort_evr (p : Nat) (v : Port) : (s.setPort p v).evr = s.evr := rfl
@[simp] theorem setPort_tel (p : Nat) (v : Port) : (s.setPort p v).tel = s.tel := rfl
@[simp] theorem setPort_sec (p : Nat) (v : Port) : (s.setPort p v).sec = s.sec := rfl
@[simp] theorem setPort_engines (p : Nat) (v : Port) : (s.setPort p v).engines = s.engines := rfl
@[simp] theorem setPort_yobels (p : Nat) (v : Port) : (s.setPort p v).yobels = s.yobels := rfl
@[simp] theorem setPort_flues (p : Nat) (v : Port) : (s.setPort p v).flues = s.flues := rfl
@[simp] theorem setPort_ctl (p : Nat) (v : Port) : (s.setPort p v).ctl = s.ctl := rfl
@[simp] theorem setPort_ident (p : Nat) (v : Port) : (s.setPort p v).ident = s.ident := rfl
@[simp] theorem setPort_answers (p : Nat) (v : Port) : (s.setPort p v).answers = s.answers := rfl
@[simp] theorem setPort_sent (p : Nat) (v : Port) : (s.setPort p v).sent = s.sent := rfl
@[simp] theorem setPort_free (p : Nat) (v : Port) : (s.setPort p v).free = s.free := rfl
@[simp] theorem setPort_pending (p : Nat) (v : Port) : (s.setPort p v).pending = s.pending := rfl
@[simp] theorem setPort_port (p : Nat) (v : Port) (j : Nat) : (s.setPort p v).port j = if j = p then v else s.port j :=
  Map.get_set _ _ j p v
theorem setPort_port_same (p : Nat) (v : Port) : (s.setPort p v).port p = v := by simp
@[simp] theorem setPort_ctx (p : Nat) (v : Port) (j : Nat) : (s.setPort p v).ctx j = s.ctx j := rfl
@[simp] theorem setPort_hearth (p : Nat) (v : Port) (j : Nat) : (s.setPort p v).hearth j = s.hearth j := rfl
@[simp] theorem setPort_region (p : Nat) (v : Port) (j : Nat) : (s.setPort p v).region j = s.region j := rfl
@[simp] theorem setPort_hbm (p : Nat) (v : Port) (j : Nat) : (s.setPort p v).hbm j = s.hbm j := rfl
@[simp] theorem setPort_entry (p : Nat) (v : Port) (j : Nat) : (s.setPort p v).entry j = s.entry j := rfl
@[simp] theorem setPort_engine (p : Nat) (v : Port) (j : Nat) : (s.setPort p v).engine j = s.engine j := rfl
@[simp] theorem setPort_yobel (p : Nat) (v : Port) (j : Nat) : (s.setPort p v).yobel j = s.yobel j := rfl
@[simp] theorem setPort_tstPort (p : Nat) (v : Port) (j : Nat) : (s.setPort p v).tstPort j = s.tstPort j := rfl
@[simp] theorem setPort_input (p : Nat) (v : Port) (j : Nat) : (s.setPort p v).input j = s.input j := rfl
@[simp] theorem setPort_flue (p : Nat) (v : Port) (j : Nat) : (s.setPort p v).flue j = s.flue j := rfl
@[simp] theorem setPort_tally (p : Nat) (v : Port) (j : Nat) : (s.setPort p v).tally j = s.tally j := rfl
@[simp] theorem setPort_now (p : Nat) (v : Port) : (s.setPort p v).now = s.now := rfl
@[simp] theorem setPort_epochOf (p : Nat) (v : Port) (b : Bool) (j : Nat) : (s.setPort p v).epochOf b j = s.epochOf b j := rfl

/-! ## setCtx -/

@[simp] theorem setCtx_tim (n : Nat) (v : Ctx) : (s.setCtx n v).tim = s.tim := rfl
@[simp] theorem setCtx_kin (n : Nat) (v : Ctx) : (s.setCtx n v).kin = s.kin := rfl
@[simp] theorem setCtx_rst (n : Nat) (v : Ctx) : (s.setCtx n v).rst = s.rst := rfl
@[simp] theorem setCtx_pwr (n : Nat) (v : Ctx) : (s.setCtx n v).pwr = s.pwr := rfl
@[simp] theorem setCtx_die (n : Nat) (v : Ctx) : (s.setCtx n v).die = s.die := rfl
@[simp] theorem setCtx_ports (n : Nat) (v : Ctx) : (s.setCtx n v).ports = s.ports := rfl
@[simp] theorem setCtx_egress (n : Nat) (v : Ctx) : (s.setCtx n v).egress = s.egress := rfl
@[simp] theorem setCtx_fabric (n : Nat) (v : Ctx) : (s.setCtx n v).fabric = s.fabric := rfl
@[simp] theorem setCtx_alc (n : Nat) (v : Ctx) : (s.setCtx n v).alc = s.alc := rfl
@[simp] theorem setCtx_clr (n : Nat) (v : Ctx) : (s.setCtx n v).clr = s.clr := rfl
@[simp] theorem setCtx_mir (n : Nat) (v : Ctx) : (s.setCtx n v).mir = s.mir := rfl
@[simp] theorem setCtx_esc (n : Nat) (v : Ctx) : (s.setCtx n v).esc = s.esc := rfl
@[simp] theorem setCtx_tst (n : Nat) (v : Ctx) : (s.setCtx n v).tst = s.tst := rfl
@[simp] theorem setCtx_evr (n : Nat) (v : Ctx) : (s.setCtx n v).evr = s.evr := rfl
@[simp] theorem setCtx_tel (n : Nat) (v : Ctx) : (s.setCtx n v).tel = s.tel := rfl
@[simp] theorem setCtx_sec (n : Nat) (v : Ctx) : (s.setCtx n v).sec = s.sec := rfl
@[simp] theorem setCtx_engines (n : Nat) (v : Ctx) : (s.setCtx n v).engines = s.engines := rfl
@[simp] theorem setCtx_yobels (n : Nat) (v : Ctx) : (s.setCtx n v).yobels = s.yobels := rfl
@[simp] theorem setCtx_flues (n : Nat) (v : Ctx) : (s.setCtx n v).flues = s.flues := rfl
@[simp] theorem setCtx_ctl (n : Nat) (v : Ctx) : (s.setCtx n v).ctl = s.ctl := rfl
@[simp] theorem setCtx_ident (n : Nat) (v : Ctx) : (s.setCtx n v).ident = s.ident := rfl
@[simp] theorem setCtx_answers (n : Nat) (v : Ctx) : (s.setCtx n v).answers = s.answers := rfl
@[simp] theorem setCtx_sent (n : Nat) (v : Ctx) : (s.setCtx n v).sent = s.sent := rfl
@[simp] theorem setCtx_free (n : Nat) (v : Ctx) : (s.setCtx n v).free = s.free := rfl
@[simp] theorem setCtx_pending (n : Nat) (v : Ctx) : (s.setCtx n v).pending = s.pending := rfl
@[simp] theorem setCtx_port (n : Nat) (v : Ctx) (j : Nat) : (s.setCtx n v).port j = s.port j := rfl
@[simp] theorem setCtx_ctx (n : Nat) (v : Ctx) (j : Nat) : (s.setCtx n v).ctx j = if j = n then v else s.ctx j :=
  Map.get_set _ _ j n v
theorem setCtx_ctx_same (n : Nat) (v : Ctx) : (s.setCtx n v).ctx n = v := by simp
@[simp] theorem setCtx_hearth (n : Nat) (v : Ctx) (j : Nat) : (s.setCtx n v).hearth j = s.hearth j := rfl
@[simp] theorem setCtx_region (n : Nat) (v : Ctx) (j : Nat) : (s.setCtx n v).region j = s.region j := rfl
@[simp] theorem setCtx_hbm (n : Nat) (v : Ctx) (j : Nat) : (s.setCtx n v).hbm j = s.hbm j := rfl
@[simp] theorem setCtx_entry (n : Nat) (v : Ctx) (j : Nat) : (s.setCtx n v).entry j = s.entry j := rfl
@[simp] theorem setCtx_engine (n : Nat) (v : Ctx) (j : Nat) : (s.setCtx n v).engine j = s.engine j := rfl
@[simp] theorem setCtx_yobel (n : Nat) (v : Ctx) (j : Nat) : (s.setCtx n v).yobel j = s.yobel j := rfl
@[simp] theorem setCtx_tstPort (n : Nat) (v : Ctx) (j : Nat) : (s.setCtx n v).tstPort j = s.tstPort j := rfl
@[simp] theorem setCtx_input (n : Nat) (v : Ctx) (j : Nat) : (s.setCtx n v).input j = s.input j := rfl
@[simp] theorem setCtx_flue (n : Nat) (v : Ctx) (j : Nat) : (s.setCtx n v).flue j = s.flue j := rfl
@[simp] theorem setCtx_tally (n : Nat) (v : Ctx) (j : Nat) : (s.setCtx n v).tally j = s.tally j := rfl
@[simp] theorem setCtx_now (n : Nat) (v : Ctx) : (s.setCtx n v).now = s.now := rfl

/-! ## setHearth -/

@[simp] theorem setHearth_tim (h : Nat) (v : Hearth) : (s.setHearth h v).tim = s.tim := rfl
@[simp] theorem setHearth_kin (h : Nat) (v : Hearth) : (s.setHearth h v).kin = s.kin := rfl
@[simp] theorem setHearth_rst (h : Nat) (v : Hearth) : (s.setHearth h v).rst = s.rst := rfl
@[simp] theorem setHearth_pwr (h : Nat) (v : Hearth) : (s.setHearth h v).pwr = s.pwr := rfl
@[simp] theorem setHearth_ports (h : Nat) (v : Hearth) : (s.setHearth h v).ports = s.ports := rfl
@[simp] theorem setHearth_egress (h : Nat) (v : Hearth) : (s.setHearth h v).egress = s.egress := rfl
@[simp] theorem setHearth_fabric (h : Nat) (v : Hearth) : (s.setHearth h v).fabric = s.fabric := rfl
@[simp] theorem setHearth_alc (h : Nat) (v : Hearth) : (s.setHearth h v).alc = s.alc := rfl
@[simp] theorem setHearth_ctxs (h : Nat) (v : Hearth) : (s.setHearth h v).ctxs = s.ctxs := rfl
@[simp] theorem setHearth_clr (h : Nat) (v : Hearth) : (s.setHearth h v).clr = s.clr := rfl
@[simp] theorem setHearth_mir (h : Nat) (v : Hearth) : (s.setHearth h v).mir = s.mir := rfl
@[simp] theorem setHearth_esc (h : Nat) (v : Hearth) : (s.setHearth h v).esc = s.esc := rfl
@[simp] theorem setHearth_tst (h : Nat) (v : Hearth) : (s.setHearth h v).tst = s.tst := rfl
@[simp] theorem setHearth_evr (h : Nat) (v : Hearth) : (s.setHearth h v).evr = s.evr := rfl
@[simp] theorem setHearth_tel (h : Nat) (v : Hearth) : (s.setHearth h v).tel = s.tel := rfl
@[simp] theorem setHearth_sec (h : Nat) (v : Hearth) : (s.setHearth h v).sec = s.sec := rfl
@[simp] theorem setHearth_engines (h : Nat) (v : Hearth) : (s.setHearth h v).engines = s.engines := rfl
@[simp] theorem setHearth_yobels (h : Nat) (v : Hearth) : (s.setHearth h v).yobels = s.yobels := rfl
@[simp] theorem setHearth_flues (h : Nat) (v : Hearth) : (s.setHearth h v).flues = s.flues := rfl
@[simp] theorem setHearth_ctl (h : Nat) (v : Hearth) : (s.setHearth h v).ctl = s.ctl := rfl
@[simp] theorem setHearth_ident (h : Nat) (v : Hearth) : (s.setHearth h v).ident = s.ident := rfl
@[simp] theorem setHearth_answers (h : Nat) (v : Hearth) : (s.setHearth h v).answers = s.answers := rfl
@[simp] theorem setHearth_sent (h : Nat) (v : Hearth) : (s.setHearth h v).sent = s.sent := rfl
@[simp] theorem setHearth_free (h : Nat) (v : Hearth) : (s.setHearth h v).free = s.free := rfl
@[simp] theorem setHearth_pending (h : Nat) (v : Hearth) : (s.setHearth h v).pending = s.pending := rfl
@[simp] theorem setHearth_port (h : Nat) (v : Hearth) (j : Nat) : (s.setHearth h v).port j = s.port j := rfl
@[simp] theorem setHearth_ctx (h : Nat) (v : Hearth) (j : Nat) : (s.setHearth h v).ctx j = s.ctx j := rfl
@[simp] theorem setHearth_hearth (h : Nat) (v : Hearth) (j : Nat) : (s.setHearth h v).hearth j = if j = h then v else s.hearth j :=
  Map.get_set _ _ j h v
theorem setHearth_hearth_same (h : Nat) (v : Hearth) : (s.setHearth h v).hearth h = v := by simp
@[simp] theorem setHearth_region (h : Nat) (v : Hearth) (j : Nat) : (s.setHearth h v).region j = s.region j := rfl
@[simp] theorem setHearth_hbm (h : Nat) (v : Hearth) (j : Nat) : (s.setHearth h v).hbm j = s.hbm j := rfl
@[simp] theorem setHearth_entry (h : Nat) (v : Hearth) (j : Nat) : (s.setHearth h v).entry j = s.entry j := rfl
@[simp] theorem setHearth_engine (h : Nat) (v : Hearth) (j : Nat) : (s.setHearth h v).engine j = s.engine j := rfl
@[simp] theorem setHearth_yobel (h : Nat) (v : Hearth) (j : Nat) : (s.setHearth h v).yobel j = s.yobel j := rfl
@[simp] theorem setHearth_tstPort (h : Nat) (v : Hearth) (j : Nat) : (s.setHearth h v).tstPort j = s.tstPort j := rfl
@[simp] theorem setHearth_input (h : Nat) (v : Hearth) (j : Nat) : (s.setHearth h v).input j = s.input j := rfl
@[simp] theorem setHearth_flue (h : Nat) (v : Hearth) (j : Nat) : (s.setHearth h v).flue j = s.flue j := rfl
@[simp] theorem setHearth_tally (h : Nat) (v : Hearth) (j : Nat) : (s.setHearth h v).tally j = s.tally j := rfl
@[simp] theorem setHearth_now (h : Nat) (v : Hearth) : (s.setHearth h v).now = s.now := rfl
@[simp] theorem setHearth_epochOf (h : Nat) (v : Hearth) (b : Bool) (j : Nat) : (s.setHearth h v).epochOf b j = s.epochOf b j := rfl

/-! ## setRegion -/

@[simp] theorem setRegion_tim (q : Nat) (v : Region) : (s.setRegion q v).tim = s.tim := rfl
@[simp] theorem setRegion_kin (q : Nat) (v : Region) : (s.setRegion q v).kin = s.kin := rfl
@[simp] theorem setRegion_rst (q : Nat) (v : Region) : (s.setRegion q v).rst = s.rst := rfl
@[simp] theorem setRegion_pwr (q : Nat) (v : Region) : (s.setRegion q v).pwr = s.pwr := rfl
@[simp] theorem setRegion_ports (q : Nat) (v : Region) : (s.setRegion q v).ports = s.ports := rfl
@[simp] theorem setRegion_egress (q : Nat) (v : Region) : (s.setRegion q v).egress = s.egress := rfl
@[simp] theorem setRegion_fabric (q : Nat) (v : Region) : (s.setRegion q v).fabric = s.fabric := rfl
@[simp] theorem setRegion_alc (q : Nat) (v : Region) : (s.setRegion q v).alc = s.alc := rfl
@[simp] theorem setRegion_ctxs (q : Nat) (v : Region) : (s.setRegion q v).ctxs = s.ctxs := rfl
@[simp] theorem setRegion_clr (q : Nat) (v : Region) : (s.setRegion q v).clr = s.clr := rfl
@[simp] theorem setRegion_mir (q : Nat) (v : Region) : (s.setRegion q v).mir = s.mir := rfl
@[simp] theorem setRegion_esc (q : Nat) (v : Region) : (s.setRegion q v).esc = s.esc := rfl
@[simp] theorem setRegion_tst (q : Nat) (v : Region) : (s.setRegion q v).tst = s.tst := rfl
@[simp] theorem setRegion_evr (q : Nat) (v : Region) : (s.setRegion q v).evr = s.evr := rfl
@[simp] theorem setRegion_tel (q : Nat) (v : Region) : (s.setRegion q v).tel = s.tel := rfl
@[simp] theorem setRegion_sec (q : Nat) (v : Region) : (s.setRegion q v).sec = s.sec := rfl
@[simp] theorem setRegion_engines (q : Nat) (v : Region) : (s.setRegion q v).engines = s.engines := rfl
@[simp] theorem setRegion_yobels (q : Nat) (v : Region) : (s.setRegion q v).yobels = s.yobels := rfl
@[simp] theorem setRegion_flues (q : Nat) (v : Region) : (s.setRegion q v).flues = s.flues := rfl
@[simp] theorem setRegion_ctl (q : Nat) (v : Region) : (s.setRegion q v).ctl = s.ctl := rfl
@[simp] theorem setRegion_ident (q : Nat) (v : Region) : (s.setRegion q v).ident = s.ident := rfl
@[simp] theorem setRegion_answers (q : Nat) (v : Region) : (s.setRegion q v).answers = s.answers := rfl
@[simp] theorem setRegion_sent (q : Nat) (v : Region) : (s.setRegion q v).sent = s.sent := rfl
@[simp] theorem setRegion_free (q : Nat) (v : Region) : (s.setRegion q v).free = s.free := rfl
@[simp] theorem setRegion_pending (q : Nat) (v : Region) : (s.setRegion q v).pending = s.pending := rfl
@[simp] theorem setRegion_port (q : Nat) (v : Region) (j : Nat) : (s.setRegion q v).port j = s.port j := rfl
@[simp] theorem setRegion_ctx (q : Nat) (v : Region) (j : Nat) : (s.setRegion q v).ctx j = s.ctx j := rfl
@[simp] theorem setRegion_hearth (q : Nat) (v : Region) (j : Nat) : (s.setRegion q v).hearth j = s.hearth j := rfl
@[simp] theorem setRegion_region (q : Nat) (v : Region) (j : Nat) : (s.setRegion q v).region j = if j = q then v else s.region j :=
  Map.get_set _ _ j q v
theorem setRegion_region_same (q : Nat) (v : Region) : (s.setRegion q v).region q = v := by simp
@[simp] theorem setRegion_hbm (q : Nat) (v : Region) (j : Nat) : (s.setRegion q v).hbm j = s.hbm j := rfl
@[simp] theorem setRegion_entry (q : Nat) (v : Region) (j : Nat) : (s.setRegion q v).entry j = s.entry j := rfl
@[simp] theorem setRegion_engine (q : Nat) (v : Region) (j : Nat) : (s.setRegion q v).engine j = s.engine j := rfl
@[simp] theorem setRegion_yobel (q : Nat) (v : Region) (j : Nat) : (s.setRegion q v).yobel j = s.yobel j := rfl
@[simp] theorem setRegion_tstPort (q : Nat) (v : Region) (j : Nat) : (s.setRegion q v).tstPort j = s.tstPort j := rfl
@[simp] theorem setRegion_input (q : Nat) (v : Region) (j : Nat) : (s.setRegion q v).input j = s.input j := rfl
@[simp] theorem setRegion_flue (q : Nat) (v : Region) (j : Nat) : (s.setRegion q v).flue j = s.flue j := rfl
@[simp] theorem setRegion_tally (q : Nat) (v : Region) (j : Nat) : (s.setRegion q v).tally j = s.tally j := rfl
@[simp] theorem setRegion_now (q : Nat) (v : Region) : (s.setRegion q v).now = s.now := rfl
@[simp] theorem setRegion_epochOf (q : Nat) (v : Region) (b : Bool) (j : Nat) : (s.setRegion q v).epochOf b j = s.epochOf b j := rfl

/-! ## setHbm -/

@[simp] theorem setHbm_tim (i : Nat) (v : HbmStack) : (s.setHbm i v).tim = s.tim := rfl
@[simp] theorem setHbm_kin (i : Nat) (v : HbmStack) : (s.setHbm i v).kin = s.kin := rfl
@[simp] theorem setHbm_rst (i : Nat) (v : HbmStack) : (s.setHbm i v).rst = s.rst := rfl
@[simp] theorem setHbm_pwr (i : Nat) (v : HbmStack) : (s.setHbm i v).pwr = s.pwr := rfl
@[simp] theorem setHbm_ports (i : Nat) (v : HbmStack) : (s.setHbm i v).ports = s.ports := rfl
@[simp] theorem setHbm_egress (i : Nat) (v : HbmStack) : (s.setHbm i v).egress = s.egress := rfl
@[simp] theorem setHbm_fabric (i : Nat) (v : HbmStack) : (s.setHbm i v).fabric = s.fabric := rfl
@[simp] theorem setHbm_alc (i : Nat) (v : HbmStack) : (s.setHbm i v).alc = s.alc := rfl
@[simp] theorem setHbm_ctxs (i : Nat) (v : HbmStack) : (s.setHbm i v).ctxs = s.ctxs := rfl
@[simp] theorem setHbm_clr (i : Nat) (v : HbmStack) : (s.setHbm i v).clr = s.clr := rfl
@[simp] theorem setHbm_mir (i : Nat) (v : HbmStack) : (s.setHbm i v).mir = s.mir := rfl
@[simp] theorem setHbm_esc (i : Nat) (v : HbmStack) : (s.setHbm i v).esc = s.esc := rfl
@[simp] theorem setHbm_tst (i : Nat) (v : HbmStack) : (s.setHbm i v).tst = s.tst := rfl
@[simp] theorem setHbm_evr (i : Nat) (v : HbmStack) : (s.setHbm i v).evr = s.evr := rfl
@[simp] theorem setHbm_tel (i : Nat) (v : HbmStack) : (s.setHbm i v).tel = s.tel := rfl
@[simp] theorem setHbm_sec (i : Nat) (v : HbmStack) : (s.setHbm i v).sec = s.sec := rfl
@[simp] theorem setHbm_engines (i : Nat) (v : HbmStack) : (s.setHbm i v).engines = s.engines := rfl
@[simp] theorem setHbm_yobels (i : Nat) (v : HbmStack) : (s.setHbm i v).yobels = s.yobels := rfl
@[simp] theorem setHbm_flues (i : Nat) (v : HbmStack) : (s.setHbm i v).flues = s.flues := rfl
@[simp] theorem setHbm_ctl (i : Nat) (v : HbmStack) : (s.setHbm i v).ctl = s.ctl := rfl
@[simp] theorem setHbm_ident (i : Nat) (v : HbmStack) : (s.setHbm i v).ident = s.ident := rfl
@[simp] theorem setHbm_answers (i : Nat) (v : HbmStack) : (s.setHbm i v).answers = s.answers := rfl
@[simp] theorem setHbm_sent (i : Nat) (v : HbmStack) : (s.setHbm i v).sent = s.sent := rfl
@[simp] theorem setHbm_free (i : Nat) (v : HbmStack) : (s.setHbm i v).free = s.free := rfl
@[simp] theorem setHbm_pending (i : Nat) (v : HbmStack) : (s.setHbm i v).pending = s.pending := rfl
@[simp] theorem setHbm_port (i : Nat) (v : HbmStack) (j : Nat) : (s.setHbm i v).port j = s.port j := rfl
@[simp] theorem setHbm_ctx (i : Nat) (v : HbmStack) (j : Nat) : (s.setHbm i v).ctx j = s.ctx j := rfl
@[simp] theorem setHbm_hearth (i : Nat) (v : HbmStack) (j : Nat) : (s.setHbm i v).hearth j = s.hearth j := rfl
@[simp] theorem setHbm_region (i : Nat) (v : HbmStack) (j : Nat) : (s.setHbm i v).region j = s.region j := rfl
@[simp] theorem setHbm_hbm (i : Nat) (v : HbmStack) (j : Nat) : (s.setHbm i v).hbm j = if j = i then v else s.hbm j :=
  Map.get_set _ _ j i v
theorem setHbm_hbm_same (i : Nat) (v : HbmStack) : (s.setHbm i v).hbm i = v := by simp
@[simp] theorem setHbm_entry (i : Nat) (v : HbmStack) (j : Nat) : (s.setHbm i v).entry j = s.entry j := rfl
@[simp] theorem setHbm_engine (i : Nat) (v : HbmStack) (j : Nat) : (s.setHbm i v).engine j = s.engine j := rfl
@[simp] theorem setHbm_yobel (i : Nat) (v : HbmStack) (j : Nat) : (s.setHbm i v).yobel j = s.yobel j := rfl
@[simp] theorem setHbm_tstPort (i : Nat) (v : HbmStack) (j : Nat) : (s.setHbm i v).tstPort j = s.tstPort j := rfl
@[simp] theorem setHbm_input (i : Nat) (v : HbmStack) (j : Nat) : (s.setHbm i v).input j = s.input j := rfl
@[simp] theorem setHbm_flue (i : Nat) (v : HbmStack) (j : Nat) : (s.setHbm i v).flue j = s.flue j := rfl
@[simp] theorem setHbm_tally (i : Nat) (v : HbmStack) (j : Nat) : (s.setHbm i v).tally j = s.tally j := rfl
@[simp] theorem setHbm_now (i : Nat) (v : HbmStack) : (s.setHbm i v).now = s.now := rfl
@[simp] theorem setHbm_epochOf (i : Nat) (v : HbmStack) (b : Bool) (j : Nat) : (s.setHbm i v).epochOf b j = s.epochOf b j := rfl

/-! ## setEntry -/

@[simp] theorem setEntry_tim (e : Nat) (v : Entry) : (s.setEntry e v).tim = s.tim := rfl
@[simp] theorem setEntry_kin (e : Nat) (v : Entry) : (s.setEntry e v).kin = s.kin := rfl
@[simp] theorem setEntry_rst (e : Nat) (v : Entry) : (s.setEntry e v).rst = s.rst := rfl
@[simp] theorem setEntry_pwr (e : Nat) (v : Entry) : (s.setEntry e v).pwr = s.pwr := rfl
@[simp] theorem setEntry_die (e : Nat) (v : Entry) : (s.setEntry e v).die = s.die := rfl
@[simp] theorem setEntry_ports (e : Nat) (v : Entry) : (s.setEntry e v).ports = s.ports := rfl
@[simp] theorem setEntry_egress (e : Nat) (v : Entry) : (s.setEntry e v).egress = s.egress := rfl
@[simp] theorem setEntry_fabric (e : Nat) (v : Entry) : (s.setEntry e v).fabric = s.fabric := rfl
@[simp] theorem setEntry_alc (e : Nat) (v : Entry) : (s.setEntry e v).alc = s.alc := rfl
@[simp] theorem setEntry_ctxs (e : Nat) (v : Entry) : (s.setEntry e v).ctxs = s.ctxs := rfl
@[simp] theorem setEntry_clr (e : Nat) (v : Entry) : (s.setEntry e v).clr = s.clr := rfl
@[simp] theorem setEntry_esc (e : Nat) (v : Entry) : (s.setEntry e v).esc = s.esc := rfl
@[simp] theorem setEntry_tst (e : Nat) (v : Entry) : (s.setEntry e v).tst = s.tst := rfl
@[simp] theorem setEntry_evr (e : Nat) (v : Entry) : (s.setEntry e v).evr = s.evr := rfl
@[simp] theorem setEntry_tel (e : Nat) (v : Entry) : (s.setEntry e v).tel = s.tel := rfl
@[simp] theorem setEntry_sec (e : Nat) (v : Entry) : (s.setEntry e v).sec = s.sec := rfl
@[simp] theorem setEntry_engines (e : Nat) (v : Entry) : (s.setEntry e v).engines = s.engines := rfl
@[simp] theorem setEntry_yobels (e : Nat) (v : Entry) : (s.setEntry e v).yobels = s.yobels := rfl
@[simp] theorem setEntry_flues (e : Nat) (v : Entry) : (s.setEntry e v).flues = s.flues := rfl
@[simp] theorem setEntry_ctl (e : Nat) (v : Entry) : (s.setEntry e v).ctl = s.ctl := rfl
@[simp] theorem setEntry_ident (e : Nat) (v : Entry) : (s.setEntry e v).ident = s.ident := rfl
@[simp] theorem setEntry_answers (e : Nat) (v : Entry) : (s.setEntry e v).answers = s.answers := rfl
@[simp] theorem setEntry_sent (e : Nat) (v : Entry) : (s.setEntry e v).sent = s.sent := rfl
@[simp] theorem setEntry_free (e : Nat) (v : Entry) : (s.setEntry e v).free = s.free := rfl
@[simp] theorem setEntry_pending (e : Nat) (v : Entry) : (s.setEntry e v).pending = s.pending := rfl
@[simp] theorem setEntry_port (e : Nat) (v : Entry) (j : Nat) : (s.setEntry e v).port j = s.port j := rfl
@[simp] theorem setEntry_ctx (e : Nat) (v : Entry) (j : Nat) : (s.setEntry e v).ctx j = s.ctx j := rfl
@[simp] theorem setEntry_hearth (e : Nat) (v : Entry) (j : Nat) : (s.setEntry e v).hearth j = s.hearth j := rfl
@[simp] theorem setEntry_region (e : Nat) (v : Entry) (j : Nat) : (s.setEntry e v).region j = s.region j := rfl
@[simp] theorem setEntry_hbm (e : Nat) (v : Entry) (j : Nat) : (s.setEntry e v).hbm j = s.hbm j := rfl
@[simp] theorem setEntry_entry (e : Nat) (v : Entry) (j : Nat) : (s.setEntry e v).entry j = if j = e then v else s.entry j :=
  Map.get_set _ _ j e v
theorem setEntry_entry_same (e : Nat) (v : Entry) : (s.setEntry e v).entry e = v := by simp
@[simp] theorem setEntry_engine (e : Nat) (v : Entry) (j : Nat) : (s.setEntry e v).engine j = s.engine j := rfl
@[simp] theorem setEntry_yobel (e : Nat) (v : Entry) (j : Nat) : (s.setEntry e v).yobel j = s.yobel j := rfl
@[simp] theorem setEntry_tstPort (e : Nat) (v : Entry) (j : Nat) : (s.setEntry e v).tstPort j = s.tstPort j := rfl
@[simp] theorem setEntry_input (e : Nat) (v : Entry) (j : Nat) : (s.setEntry e v).input j = s.input j := rfl
@[simp] theorem setEntry_flue (e : Nat) (v : Entry) (j : Nat) : (s.setEntry e v).flue j = s.flue j := rfl
@[simp] theorem setEntry_tally (e : Nat) (v : Entry) (j : Nat) : (s.setEntry e v).tally j = s.tally j := rfl
@[simp] theorem setEntry_now (e : Nat) (v : Entry) : (s.setEntry e v).now = s.now := rfl
@[simp] theorem setEntry_epochOf (e : Nat) (v : Entry) (b : Bool) (j : Nat) : (s.setEntry e v).epochOf b j = s.epochOf b j := rfl

/-! ## setEngine -/

@[simp] theorem setEngine_tim (h : Nat) (v : Engine) : (s.setEngine h v).tim = s.tim := rfl
@[simp] theorem setEngine_kin (h : Nat) (v : Engine) : (s.setEngine h v).kin = s.kin := rfl
@[simp] theorem setEngine_rst (h : Nat) (v : Engine) : (s.setEngine h v).rst = s.rst := rfl
@[simp] theorem setEngine_pwr (h : Nat) (v : Engine) : (s.setEngine h v).pwr = s.pwr := rfl
@[simp] theorem setEngine_die (h : Nat) (v : Engine) : (s.setEngine h v).die = s.die := rfl
@[simp] theorem setEngine_ports (h : Nat) (v : Engine) : (s.setEngine h v).ports = s.ports := rfl
@[simp] theorem setEngine_egress (h : Nat) (v : Engine) : (s.setEngine h v).egress = s.egress := rfl
@[simp] theorem setEngine_fabric (h : Nat) (v : Engine) : (s.setEngine h v).fabric = s.fabric := rfl
@[simp] theorem setEngine_alc (h : Nat) (v : Engine) : (s.setEngine h v).alc = s.alc := rfl
@[simp] theorem setEngine_ctxs (h : Nat) (v : Engine) : (s.setEngine h v).ctxs = s.ctxs := rfl
@[simp] theorem setEngine_clr (h : Nat) (v : Engine) : (s.setEngine h v).clr = s.clr := rfl
@[simp] theorem setEngine_mir (h : Nat) (v : Engine) : (s.setEngine h v).mir = s.mir := rfl
@[simp] theorem setEngine_esc (h : Nat) (v : Engine) : (s.setEngine h v).esc = s.esc := rfl
@[simp] theorem setEngine_tst (h : Nat) (v : Engine) : (s.setEngine h v).tst = s.tst := rfl
@[simp] theorem setEngine_evr (h : Nat) (v : Engine) : (s.setEngine h v).evr = s.evr := rfl
@[simp] theorem setEngine_tel (h : Nat) (v : Engine) : (s.setEngine h v).tel = s.tel := rfl
@[simp] theorem setEngine_sec (h : Nat) (v : Engine) : (s.setEngine h v).sec = s.sec := rfl
@[simp] theorem setEngine_yobels (h : Nat) (v : Engine) : (s.setEngine h v).yobels = s.yobels := rfl
@[simp] theorem setEngine_flues (h : Nat) (v : Engine) : (s.setEngine h v).flues = s.flues := rfl
@[simp] theorem setEngine_ctl (h : Nat) (v : Engine) : (s.setEngine h v).ctl = s.ctl := rfl
@[simp] theorem setEngine_ident (h : Nat) (v : Engine) : (s.setEngine h v).ident = s.ident := rfl
@[simp] theorem setEngine_answers (h : Nat) (v : Engine) : (s.setEngine h v).answers = s.answers := rfl
@[simp] theorem setEngine_sent (h : Nat) (v : Engine) : (s.setEngine h v).sent = s.sent := rfl
@[simp] theorem setEngine_free (h : Nat) (v : Engine) : (s.setEngine h v).free = s.free := rfl
@[simp] theorem setEngine_pending (h : Nat) (v : Engine) : (s.setEngine h v).pending = s.pending := rfl
@[simp] theorem setEngine_port (h : Nat) (v : Engine) (j : Nat) : (s.setEngine h v).port j = s.port j := rfl
@[simp] theorem setEngine_ctx (h : Nat) (v : Engine) (j : Nat) : (s.setEngine h v).ctx j = s.ctx j := rfl
@[simp] theorem setEngine_hearth (h : Nat) (v : Engine) (j : Nat) : (s.setEngine h v).hearth j = s.hearth j := rfl
@[simp] theorem setEngine_region (h : Nat) (v : Engine) (j : Nat) : (s.setEngine h v).region j = s.region j := rfl
@[simp] theorem setEngine_hbm (h : Nat) (v : Engine) (j : Nat) : (s.setEngine h v).hbm j = s.hbm j := rfl
@[simp] theorem setEngine_entry (h : Nat) (v : Engine) (j : Nat) : (s.setEngine h v).entry j = s.entry j := rfl
@[simp] theorem setEngine_engine (h : Nat) (v : Engine) (j : Nat) : (s.setEngine h v).engine j = if j = h then v else s.engine j :=
  Map.get_set _ _ j h v
theorem setEngine_engine_same (h : Nat) (v : Engine) : (s.setEngine h v).engine h = v := by simp
@[simp] theorem setEngine_yobel (h : Nat) (v : Engine) (j : Nat) : (s.setEngine h v).yobel j = s.yobel j := rfl
@[simp] theorem setEngine_tstPort (h : Nat) (v : Engine) (j : Nat) : (s.setEngine h v).tstPort j = s.tstPort j := rfl
@[simp] theorem setEngine_input (h : Nat) (v : Engine) (j : Nat) : (s.setEngine h v).input j = s.input j := rfl
@[simp] theorem setEngine_flue (h : Nat) (v : Engine) (j : Nat) : (s.setEngine h v).flue j = s.flue j := rfl
@[simp] theorem setEngine_tally (h : Nat) (v : Engine) (j : Nat) : (s.setEngine h v).tally j = s.tally j := rfl
@[simp] theorem setEngine_now (h : Nat) (v : Engine) : (s.setEngine h v).now = s.now := rfl
@[simp] theorem setEngine_epochOf (h : Nat) (v : Engine) (b : Bool) (j : Nat) : (s.setEngine h v).epochOf b j = s.epochOf b j := rfl

/-! ## setYobel -/

@[simp] theorem setYobel_tim (k : Nat) (v : Yobel) : (s.setYobel k v).tim = s.tim := rfl
@[simp] theorem setYobel_kin (k : Nat) (v : Yobel) : (s.setYobel k v).kin = s.kin := rfl
@[simp] theorem setYobel_rst (k : Nat) (v : Yobel) : (s.setYobel k v).rst = s.rst := rfl
@[simp] theorem setYobel_pwr (k : Nat) (v : Yobel) : (s.setYobel k v).pwr = s.pwr := rfl
@[simp] theorem setYobel_die (k : Nat) (v : Yobel) : (s.setYobel k v).die = s.die := rfl
@[simp] theorem setYobel_ports (k : Nat) (v : Yobel) : (s.setYobel k v).ports = s.ports := rfl
@[simp] theorem setYobel_egress (k : Nat) (v : Yobel) : (s.setYobel k v).egress = s.egress := rfl
@[simp] theorem setYobel_fabric (k : Nat) (v : Yobel) : (s.setYobel k v).fabric = s.fabric := rfl
@[simp] theorem setYobel_alc (k : Nat) (v : Yobel) : (s.setYobel k v).alc = s.alc := rfl
@[simp] theorem setYobel_ctxs (k : Nat) (v : Yobel) : (s.setYobel k v).ctxs = s.ctxs := rfl
@[simp] theorem setYobel_clr (k : Nat) (v : Yobel) : (s.setYobel k v).clr = s.clr := rfl
@[simp] theorem setYobel_mir (k : Nat) (v : Yobel) : (s.setYobel k v).mir = s.mir := rfl
@[simp] theorem setYobel_esc (k : Nat) (v : Yobel) : (s.setYobel k v).esc = s.esc := rfl
@[simp] theorem setYobel_tst (k : Nat) (v : Yobel) : (s.setYobel k v).tst = s.tst := rfl
@[simp] theorem setYobel_evr (k : Nat) (v : Yobel) : (s.setYobel k v).evr = s.evr := rfl
@[simp] theorem setYobel_tel (k : Nat) (v : Yobel) : (s.setYobel k v).tel = s.tel := rfl
@[simp] theorem setYobel_sec (k : Nat) (v : Yobel) : (s.setYobel k v).sec = s.sec := rfl
@[simp] theorem setYobel_engines (k : Nat) (v : Yobel) : (s.setYobel k v).engines = s.engines := rfl
@[simp] theorem setYobel_flues (k : Nat) (v : Yobel) : (s.setYobel k v).flues = s.flues := rfl
@[simp] theorem setYobel_ctl (k : Nat) (v : Yobel) : (s.setYobel k v).ctl = s.ctl := rfl
@[simp] theorem setYobel_ident (k : Nat) (v : Yobel) : (s.setYobel k v).ident = s.ident := rfl
@[simp] theorem setYobel_answers (k : Nat) (v : Yobel) : (s.setYobel k v).answers = s.answers := rfl
@[simp] theorem setYobel_sent (k : Nat) (v : Yobel) : (s.setYobel k v).sent = s.sent := rfl
@[simp] theorem setYobel_free (k : Nat) (v : Yobel) : (s.setYobel k v).free = s.free := rfl
@[simp] theorem setYobel_pending (k : Nat) (v : Yobel) : (s.setYobel k v).pending = s.pending := rfl
@[simp] theorem setYobel_port (k : Nat) (v : Yobel) (j : Nat) : (s.setYobel k v).port j = s.port j := rfl
@[simp] theorem setYobel_ctx (k : Nat) (v : Yobel) (j : Nat) : (s.setYobel k v).ctx j = s.ctx j := rfl
@[simp] theorem setYobel_hearth (k : Nat) (v : Yobel) (j : Nat) : (s.setYobel k v).hearth j = s.hearth j := rfl
@[simp] theorem setYobel_region (k : Nat) (v : Yobel) (j : Nat) : (s.setYobel k v).region j = s.region j := rfl
@[simp] theorem setYobel_hbm (k : Nat) (v : Yobel) (j : Nat) : (s.setYobel k v).hbm j = s.hbm j := rfl
@[simp] theorem setYobel_entry (k : Nat) (v : Yobel) (j : Nat) : (s.setYobel k v).entry j = s.entry j := rfl
@[simp] theorem setYobel_engine (k : Nat) (v : Yobel) (j : Nat) : (s.setYobel k v).engine j = s.engine j := rfl
@[simp] theorem setYobel_yobel (k : Nat) (v : Yobel) (j : Nat) : (s.setYobel k v).yobel j = if j = k then v else s.yobel j :=
  Map.get_set _ _ j k v
theorem setYobel_yobel_same (k : Nat) (v : Yobel) : (s.setYobel k v).yobel k = v := by simp
@[simp] theorem setYobel_tstPort (k : Nat) (v : Yobel) (j : Nat) : (s.setYobel k v).tstPort j = s.tstPort j := rfl
@[simp] theorem setYobel_input (k : Nat) (v : Yobel) (j : Nat) : (s.setYobel k v).input j = s.input j := rfl
@[simp] theorem setYobel_flue (k : Nat) (v : Yobel) (j : Nat) : (s.setYobel k v).flue j = s.flue j := rfl
@[simp] theorem setYobel_tally (k : Nat) (v : Yobel) (j : Nat) : (s.setYobel k v).tally j = s.tally j := rfl
@[simp] theorem setYobel_now (k : Nat) (v : Yobel) : (s.setYobel k v).now = s.now := rfl
@[simp] theorem setYobel_epochOf (k : Nat) (v : Yobel) (b : Bool) (j : Nat) : (s.setYobel k v).epochOf b j = s.epochOf b j := rfl

/-! ## setTstPort -/

@[simp] theorem setTstPort_tim (k : Nat) (v : TstPort) : (s.setTstPort k v).tim = s.tim := rfl
@[simp] theorem setTstPort_kin (k : Nat) (v : TstPort) : (s.setTstPort k v).kin = s.kin := rfl
@[simp] theorem setTstPort_rst (k : Nat) (v : TstPort) : (s.setTstPort k v).rst = s.rst := rfl
@[simp] theorem setTstPort_pwr (k : Nat) (v : TstPort) : (s.setTstPort k v).pwr = s.pwr := rfl
@[simp] theorem setTstPort_die (k : Nat) (v : TstPort) : (s.setTstPort k v).die = s.die := rfl
@[simp] theorem setTstPort_ports (k : Nat) (v : TstPort) : (s.setTstPort k v).ports = s.ports := rfl
@[simp] theorem setTstPort_egress (k : Nat) (v : TstPort) : (s.setTstPort k v).egress = s.egress := rfl
@[simp] theorem setTstPort_fabric (k : Nat) (v : TstPort) : (s.setTstPort k v).fabric = s.fabric := rfl
@[simp] theorem setTstPort_alc (k : Nat) (v : TstPort) : (s.setTstPort k v).alc = s.alc := rfl
@[simp] theorem setTstPort_ctxs (k : Nat) (v : TstPort) : (s.setTstPort k v).ctxs = s.ctxs := rfl
@[simp] theorem setTstPort_clr (k : Nat) (v : TstPort) : (s.setTstPort k v).clr = s.clr := rfl
@[simp] theorem setTstPort_mir (k : Nat) (v : TstPort) : (s.setTstPort k v).mir = s.mir := rfl
@[simp] theorem setTstPort_esc (k : Nat) (v : TstPort) : (s.setTstPort k v).esc = s.esc := rfl
@[simp] theorem setTstPort_evr (k : Nat) (v : TstPort) : (s.setTstPort k v).evr = s.evr := rfl
@[simp] theorem setTstPort_tel (k : Nat) (v : TstPort) : (s.setTstPort k v).tel = s.tel := rfl
@[simp] theorem setTstPort_sec (k : Nat) (v : TstPort) : (s.setTstPort k v).sec = s.sec := rfl
@[simp] theorem setTstPort_engines (k : Nat) (v : TstPort) : (s.setTstPort k v).engines = s.engines := rfl
@[simp] theorem setTstPort_yobels (k : Nat) (v : TstPort) : (s.setTstPort k v).yobels = s.yobels := rfl
@[simp] theorem setTstPort_flues (k : Nat) (v : TstPort) : (s.setTstPort k v).flues = s.flues := rfl
@[simp] theorem setTstPort_ctl (k : Nat) (v : TstPort) : (s.setTstPort k v).ctl = s.ctl := rfl
@[simp] theorem setTstPort_ident (k : Nat) (v : TstPort) : (s.setTstPort k v).ident = s.ident := rfl
@[simp] theorem setTstPort_answers (k : Nat) (v : TstPort) : (s.setTstPort k v).answers = s.answers := rfl
@[simp] theorem setTstPort_sent (k : Nat) (v : TstPort) : (s.setTstPort k v).sent = s.sent := rfl
@[simp] theorem setTstPort_free (k : Nat) (v : TstPort) : (s.setTstPort k v).free = s.free := rfl
@[simp] theorem setTstPort_pending (k : Nat) (v : TstPort) : (s.setTstPort k v).pending = s.pending := rfl
@[simp] theorem setTstPort_port (k : Nat) (v : TstPort) (j : Nat) : (s.setTstPort k v).port j = s.port j := rfl
@[simp] theorem setTstPort_ctx (k : Nat) (v : TstPort) (j : Nat) : (s.setTstPort k v).ctx j = s.ctx j := rfl
@[simp] theorem setTstPort_hearth (k : Nat) (v : TstPort) (j : Nat) : (s.setTstPort k v).hearth j = s.hearth j := rfl
@[simp] theorem setTstPort_region (k : Nat) (v : TstPort) (j : Nat) : (s.setTstPort k v).region j = s.region j := rfl
@[simp] theorem setTstPort_hbm (k : Nat) (v : TstPort) (j : Nat) : (s.setTstPort k v).hbm j = s.hbm j := rfl
@[simp] theorem setTstPort_entry (k : Nat) (v : TstPort) (j : Nat) : (s.setTstPort k v).entry j = s.entry j := rfl
@[simp] theorem setTstPort_engine (k : Nat) (v : TstPort) (j : Nat) : (s.setTstPort k v).engine j = s.engine j := rfl
@[simp] theorem setTstPort_yobel (k : Nat) (v : TstPort) (j : Nat) : (s.setTstPort k v).yobel j = s.yobel j := rfl
@[simp] theorem setTstPort_tstPort (k : Nat) (v : TstPort) (j : Nat) : (s.setTstPort k v).tstPort j = if j = k then v else s.tstPort j :=
  Map.get_set _ _ j k v
theorem setTstPort_tstPort_same (k : Nat) (v : TstPort) : (s.setTstPort k v).tstPort k = v := by simp
@[simp] theorem setTstPort_input (k : Nat) (v : TstPort) (j : Nat) : (s.setTstPort k v).input j = s.input j := rfl
@[simp] theorem setTstPort_flue (k : Nat) (v : TstPort) (j : Nat) : (s.setTstPort k v).flue j = s.flue j := rfl
@[simp] theorem setTstPort_tally (k : Nat) (v : TstPort) (j : Nat) : (s.setTstPort k v).tally j = s.tally j := rfl
@[simp] theorem setTstPort_now (k : Nat) (v : TstPort) : (s.setTstPort k v).now = s.now := rfl
@[simp] theorem setTstPort_epochOf (k : Nat) (v : TstPort) (b : Bool) (j : Nat) : (s.setTstPort k v).epochOf b j = s.epochOf b j := rfl

/-! ## setInput -/

@[simp] theorem setInput_tim (i : Nat) (v : Input) : (s.setInput i v).tim = s.tim := rfl
@[simp] theorem setInput_kin (i : Nat) (v : Input) : (s.setInput i v).kin = s.kin := rfl
@[simp] theorem setInput_rst (i : Nat) (v : Input) : (s.setInput i v).rst = s.rst := rfl
@[simp] theorem setInput_pwr (i : Nat) (v : Input) : (s.setInput i v).pwr = s.pwr := rfl
@[simp] theorem setInput_die (i : Nat) (v : Input) : (s.setInput i v).die = s.die := rfl
@[simp] theorem setInput_ports (i : Nat) (v : Input) : (s.setInput i v).ports = s.ports := rfl
@[simp] theorem setInput_egress (i : Nat) (v : Input) : (s.setInput i v).egress = s.egress := rfl
@[simp] theorem setInput_fabric (i : Nat) (v : Input) : (s.setInput i v).fabric = s.fabric := rfl
@[simp] theorem setInput_alc (i : Nat) (v : Input) : (s.setInput i v).alc = s.alc := rfl
@[simp] theorem setInput_ctxs (i : Nat) (v : Input) : (s.setInput i v).ctxs = s.ctxs := rfl
@[simp] theorem setInput_clr (i : Nat) (v : Input) : (s.setInput i v).clr = s.clr := rfl
@[simp] theorem setInput_mir (i : Nat) (v : Input) : (s.setInput i v).mir = s.mir := rfl
@[simp] theorem setInput_esc (i : Nat) (v : Input) : (s.setInput i v).esc = s.esc := rfl
@[simp] theorem setInput_tst (i : Nat) (v : Input) : (s.setInput i v).tst = s.tst := rfl
@[simp] theorem setInput_tel (i : Nat) (v : Input) : (s.setInput i v).tel = s.tel := rfl
@[simp] theorem setInput_sec (i : Nat) (v : Input) : (s.setInput i v).sec = s.sec := rfl
@[simp] theorem setInput_engines (i : Nat) (v : Input) : (s.setInput i v).engines = s.engines := rfl
@[simp] theorem setInput_yobels (i : Nat) (v : Input) : (s.setInput i v).yobels = s.yobels := rfl
@[simp] theorem setInput_flues (i : Nat) (v : Input) : (s.setInput i v).flues = s.flues := rfl
@[simp] theorem setInput_ctl (i : Nat) (v : Input) : (s.setInput i v).ctl = s.ctl := rfl
@[simp] theorem setInput_ident (i : Nat) (v : Input) : (s.setInput i v).ident = s.ident := rfl
@[simp] theorem setInput_answers (i : Nat) (v : Input) : (s.setInput i v).answers = s.answers := rfl
@[simp] theorem setInput_sent (i : Nat) (v : Input) : (s.setInput i v).sent = s.sent := rfl
@[simp] theorem setInput_free (i : Nat) (v : Input) : (s.setInput i v).free = s.free := rfl
@[simp] theorem setInput_pending (i : Nat) (v : Input) : (s.setInput i v).pending = s.pending := rfl
@[simp] theorem setInput_port (i : Nat) (v : Input) (j : Nat) : (s.setInput i v).port j = s.port j := rfl
@[simp] theorem setInput_ctx (i : Nat) (v : Input) (j : Nat) : (s.setInput i v).ctx j = s.ctx j := rfl
@[simp] theorem setInput_hearth (i : Nat) (v : Input) (j : Nat) : (s.setInput i v).hearth j = s.hearth j := rfl
@[simp] theorem setInput_region (i : Nat) (v : Input) (j : Nat) : (s.setInput i v).region j = s.region j := rfl
@[simp] theorem setInput_hbm (i : Nat) (v : Input) (j : Nat) : (s.setInput i v).hbm j = s.hbm j := rfl
@[simp] theorem setInput_entry (i : Nat) (v : Input) (j : Nat) : (s.setInput i v).entry j = s.entry j := rfl
@[simp] theorem setInput_engine (i : Nat) (v : Input) (j : Nat) : (s.setInput i v).engine j = s.engine j := rfl
@[simp] theorem setInput_yobel (i : Nat) (v : Input) (j : Nat) : (s.setInput i v).yobel j = s.yobel j := rfl
@[simp] theorem setInput_tstPort (i : Nat) (v : Input) (j : Nat) : (s.setInput i v).tstPort j = s.tstPort j := rfl
@[simp] theorem setInput_input (i : Nat) (v : Input) (j : Nat) : (s.setInput i v).input j = if j = i then v else s.input j :=
  Map.get_set _ _ j i v
theorem setInput_input_same (i : Nat) (v : Input) : (s.setInput i v).input i = v := by simp
@[simp] theorem setInput_flue (i : Nat) (v : Input) (j : Nat) : (s.setInput i v).flue j = s.flue j := rfl
@[simp] theorem setInput_tally (i : Nat) (v : Input) (j : Nat) : (s.setInput i v).tally j = s.tally j := rfl
@[simp] theorem setInput_now (i : Nat) (v : Input) : (s.setInput i v).now = s.now := rfl
@[simp] theorem setInput_epochOf (i : Nat) (v : Input) (b : Bool) (j : Nat) : (s.setInput i v).epochOf b j = s.epochOf b j := rfl

/-! ## setFlue -/

@[simp] theorem setFlue_tim (i : Nat) (v : Flue) : (s.setFlue i v).tim = s.tim := rfl
@[simp] theorem setFlue_kin (i : Nat) (v : Flue) : (s.setFlue i v).kin = s.kin := rfl
@[simp] theorem setFlue_rst (i : Nat) (v : Flue) : (s.setFlue i v).rst = s.rst := rfl
@[simp] theorem setFlue_pwr (i : Nat) (v : Flue) : (s.setFlue i v).pwr = s.pwr := rfl
@[simp] theorem setFlue_die (i : Nat) (v : Flue) : (s.setFlue i v).die = s.die := rfl
@[simp] theorem setFlue_ports (i : Nat) (v : Flue) : (s.setFlue i v).ports = s.ports := rfl
@[simp] theorem setFlue_egress (i : Nat) (v : Flue) : (s.setFlue i v).egress = s.egress := rfl
@[simp] theorem setFlue_fabric (i : Nat) (v : Flue) : (s.setFlue i v).fabric = s.fabric := rfl
@[simp] theorem setFlue_alc (i : Nat) (v : Flue) : (s.setFlue i v).alc = s.alc := rfl
@[simp] theorem setFlue_ctxs (i : Nat) (v : Flue) : (s.setFlue i v).ctxs = s.ctxs := rfl
@[simp] theorem setFlue_clr (i : Nat) (v : Flue) : (s.setFlue i v).clr = s.clr := rfl
@[simp] theorem setFlue_mir (i : Nat) (v : Flue) : (s.setFlue i v).mir = s.mir := rfl
@[simp] theorem setFlue_esc (i : Nat) (v : Flue) : (s.setFlue i v).esc = s.esc := rfl
@[simp] theorem setFlue_tst (i : Nat) (v : Flue) : (s.setFlue i v).tst = s.tst := rfl
@[simp] theorem setFlue_evr (i : Nat) (v : Flue) : (s.setFlue i v).evr = s.evr := rfl
@[simp] theorem setFlue_tel (i : Nat) (v : Flue) : (s.setFlue i v).tel = s.tel := rfl
@[simp] theorem setFlue_sec (i : Nat) (v : Flue) : (s.setFlue i v).sec = s.sec := rfl
@[simp] theorem setFlue_engines (i : Nat) (v : Flue) : (s.setFlue i v).engines = s.engines := rfl
@[simp] theorem setFlue_yobels (i : Nat) (v : Flue) : (s.setFlue i v).yobels = s.yobels := rfl
@[simp] theorem setFlue_ctl (i : Nat) (v : Flue) : (s.setFlue i v).ctl = s.ctl := rfl
@[simp] theorem setFlue_ident (i : Nat) (v : Flue) : (s.setFlue i v).ident = s.ident := rfl
@[simp] theorem setFlue_answers (i : Nat) (v : Flue) : (s.setFlue i v).answers = s.answers := rfl
@[simp] theorem setFlue_sent (i : Nat) (v : Flue) : (s.setFlue i v).sent = s.sent := rfl
@[simp] theorem setFlue_free (i : Nat) (v : Flue) : (s.setFlue i v).free = s.free := rfl
@[simp] theorem setFlue_pending (i : Nat) (v : Flue) : (s.setFlue i v).pending = s.pending := rfl
@[simp] theorem setFlue_port (i : Nat) (v : Flue) (j : Nat) : (s.setFlue i v).port j = s.port j := rfl
@[simp] theorem setFlue_ctx (i : Nat) (v : Flue) (j : Nat) : (s.setFlue i v).ctx j = s.ctx j := rfl
@[simp] theorem setFlue_hearth (i : Nat) (v : Flue) (j : Nat) : (s.setFlue i v).hearth j = s.hearth j := rfl
@[simp] theorem setFlue_region (i : Nat) (v : Flue) (j : Nat) : (s.setFlue i v).region j = s.region j := rfl
@[simp] theorem setFlue_hbm (i : Nat) (v : Flue) (j : Nat) : (s.setFlue i v).hbm j = s.hbm j := rfl
@[simp] theorem setFlue_entry (i : Nat) (v : Flue) (j : Nat) : (s.setFlue i v).entry j = s.entry j := rfl
@[simp] theorem setFlue_engine (i : Nat) (v : Flue) (j : Nat) : (s.setFlue i v).engine j = s.engine j := rfl
@[simp] theorem setFlue_yobel (i : Nat) (v : Flue) (j : Nat) : (s.setFlue i v).yobel j = s.yobel j := rfl
@[simp] theorem setFlue_tstPort (i : Nat) (v : Flue) (j : Nat) : (s.setFlue i v).tstPort j = s.tstPort j := rfl
@[simp] theorem setFlue_input (i : Nat) (v : Flue) (j : Nat) : (s.setFlue i v).input j = s.input j := rfl
@[simp] theorem setFlue_flue (i : Nat) (v : Flue) (j : Nat) : (s.setFlue i v).flue j = if j = i then v else s.flue j :=
  Map.get_set _ _ j i v
theorem setFlue_flue_same (i : Nat) (v : Flue) : (s.setFlue i v).flue i = v := by simp
@[simp] theorem setFlue_tally (i : Nat) (v : Flue) (j : Nat) : (s.setFlue i v).tally j = s.tally j := rfl
@[simp] theorem setFlue_now (i : Nat) (v : Flue) : (s.setFlue i v).now = s.now := rfl
@[simp] theorem setFlue_epochOf (i : Nat) (v : Flue) (b : Bool) (j : Nat) : (s.setFlue i v).epochOf b j = s.epochOf b j := rfl

/-! ## setTally -/

@[simp] theorem setTally_tim (i : Nat) (v : Word) : (s.setTally i v).tim = s.tim := rfl
@[simp] theorem setTally_kin (i : Nat) (v : Word) : (s.setTally i v).kin = s.kin := rfl
@[simp] theorem setTally_rst (i : Nat) (v : Word) : (s.setTally i v).rst = s.rst := rfl
@[simp] theorem setTally_pwr (i : Nat) (v : Word) : (s.setTally i v).pwr = s.pwr := rfl
@[simp] theorem setTally_die (i : Nat) (v : Word) : (s.setTally i v).die = s.die := rfl
@[simp] theorem setTally_ports (i : Nat) (v : Word) : (s.setTally i v).ports = s.ports := rfl
@[simp] theorem setTally_egress (i : Nat) (v : Word) : (s.setTally i v).egress = s.egress := rfl
@[simp] theorem setTally_fabric (i : Nat) (v : Word) : (s.setTally i v).fabric = s.fabric := rfl
@[simp] theorem setTally_alc (i : Nat) (v : Word) : (s.setTally i v).alc = s.alc := rfl
@[simp] theorem setTally_ctxs (i : Nat) (v : Word) : (s.setTally i v).ctxs = s.ctxs := rfl
@[simp] theorem setTally_clr (i : Nat) (v : Word) : (s.setTally i v).clr = s.clr := rfl
@[simp] theorem setTally_mir (i : Nat) (v : Word) : (s.setTally i v).mir = s.mir := rfl
@[simp] theorem setTally_esc (i : Nat) (v : Word) : (s.setTally i v).esc = s.esc := rfl
@[simp] theorem setTally_tst (i : Nat) (v : Word) : (s.setTally i v).tst = s.tst := rfl
@[simp] theorem setTally_tel (i : Nat) (v : Word) : (s.setTally i v).tel = s.tel := rfl
@[simp] theorem setTally_sec (i : Nat) (v : Word) : (s.setTally i v).sec = s.sec := rfl
@[simp] theorem setTally_engines (i : Nat) (v : Word) : (s.setTally i v).engines = s.engines := rfl
@[simp] theorem setTally_yobels (i : Nat) (v : Word) : (s.setTally i v).yobels = s.yobels := rfl
@[simp] theorem setTally_flues (i : Nat) (v : Word) : (s.setTally i v).flues = s.flues := rfl
@[simp] theorem setTally_ctl (i : Nat) (v : Word) : (s.setTally i v).ctl = s.ctl := rfl
@[simp] theorem setTally_ident (i : Nat) (v : Word) : (s.setTally i v).ident = s.ident := rfl
@[simp] theorem setTally_answers (i : Nat) (v : Word) : (s.setTally i v).answers = s.answers := rfl
@[simp] theorem setTally_sent (i : Nat) (v : Word) : (s.setTally i v).sent = s.sent := rfl
@[simp] theorem setTally_free (i : Nat) (v : Word) : (s.setTally i v).free = s.free := rfl
@[simp] theorem setTally_pending (i : Nat) (v : Word) : (s.setTally i v).pending = s.pending := rfl
@[simp] theorem setTally_port (i : Nat) (v : Word) (j : Nat) : (s.setTally i v).port j = s.port j := rfl
@[simp] theorem setTally_ctx (i : Nat) (v : Word) (j : Nat) : (s.setTally i v).ctx j = s.ctx j := rfl
@[simp] theorem setTally_hearth (i : Nat) (v : Word) (j : Nat) : (s.setTally i v).hearth j = s.hearth j := rfl
@[simp] theorem setTally_region (i : Nat) (v : Word) (j : Nat) : (s.setTally i v).region j = s.region j := rfl
@[simp] theorem setTally_hbm (i : Nat) (v : Word) (j : Nat) : (s.setTally i v).hbm j = s.hbm j := rfl
@[simp] theorem setTally_entry (i : Nat) (v : Word) (j : Nat) : (s.setTally i v).entry j = s.entry j := rfl
@[simp] theorem setTally_engine (i : Nat) (v : Word) (j : Nat) : (s.setTally i v).engine j = s.engine j := rfl
@[simp] theorem setTally_yobel (i : Nat) (v : Word) (j : Nat) : (s.setTally i v).yobel j = s.yobel j := rfl
@[simp] theorem setTally_tstPort (i : Nat) (v : Word) (j : Nat) : (s.setTally i v).tstPort j = s.tstPort j := rfl
@[simp] theorem setTally_input (i : Nat) (v : Word) (j : Nat) : (s.setTally i v).input j = s.input j := rfl
@[simp] theorem setTally_flue (i : Nat) (v : Word) (j : Nat) : (s.setTally i v).flue j = s.flue j := rfl
@[simp] theorem setTally_tally (i : Nat) (v : Word) (j : Nat) : (s.setTally i v).tally j = if j = i then v else s.tally j :=
  Map.get_set _ _ j i v
theorem setTally_tally_same (i : Nat) (v : Word) : (s.setTally i v).tally i = v := by simp
@[simp] theorem setTally_now (i : Nat) (v : Word) : (s.setTally i v).now = s.now := rfl
@[simp] theorem setTally_epochOf (i : Nat) (v : Word) (b : Bool) (j : Nat) : (s.setTally i v).epochOf b j = s.epochOf b j := rfl

/-! ## useFree -/

@[simp] theorem useFree_tim : (s.useFree).tim = s.tim := rfl
@[simp] theorem useFree_kin : (s.useFree).kin = s.kin := rfl
@[simp] theorem useFree_rst : (s.useFree).rst = s.rst := rfl
@[simp] theorem useFree_pwr : (s.useFree).pwr = s.pwr := rfl
@[simp] theorem useFree_die : (s.useFree).die = s.die := rfl
@[simp] theorem useFree_ports : (s.useFree).ports = s.ports := rfl
@[simp] theorem useFree_egress : (s.useFree).egress = s.egress := rfl
@[simp] theorem useFree_fabric : (s.useFree).fabric = s.fabric := rfl
@[simp] theorem useFree_alc : (s.useFree).alc = s.alc := rfl
@[simp] theorem useFree_ctxs : (s.useFree).ctxs = s.ctxs := rfl
@[simp] theorem useFree_clr : (s.useFree).clr = s.clr := rfl
@[simp] theorem useFree_mir : (s.useFree).mir = s.mir := rfl
@[simp] theorem useFree_esc : (s.useFree).esc = s.esc := rfl
@[simp] theorem useFree_tst : (s.useFree).tst = s.tst := rfl
@[simp] theorem useFree_evr : (s.useFree).evr = s.evr := rfl
@[simp] theorem useFree_tel : (s.useFree).tel = s.tel := rfl
@[simp] theorem useFree_sec : (s.useFree).sec = s.sec := rfl
@[simp] theorem useFree_engines : (s.useFree).engines = s.engines := rfl
@[simp] theorem useFree_yobels : (s.useFree).yobels = s.yobels := rfl
@[simp] theorem useFree_flues : (s.useFree).flues = s.flues := rfl
@[simp] theorem useFree_ctl : (s.useFree).ctl = s.ctl := rfl
@[simp] theorem useFree_ident : (s.useFree).ident = s.ident := rfl
@[simp] theorem useFree_answers : (s.useFree).answers = s.answers := rfl
@[simp] theorem useFree_sent : (s.useFree).sent = s.sent := rfl
@[simp] theorem useFree_pending : (s.useFree).pending = s.pending := rfl
@[simp] theorem useFree_free : s.useFree.free = s.free + 1 := rfl
@[simp] theorem useFree_port (j : Nat) : (s.useFree).port j = s.port j := rfl
@[simp] theorem useFree_ctx (j : Nat) : (s.useFree).ctx j = s.ctx j := rfl
@[simp] theorem useFree_hearth (j : Nat) : (s.useFree).hearth j = s.hearth j := rfl
@[simp] theorem useFree_region (j : Nat) : (s.useFree).region j = s.region j := rfl
@[simp] theorem useFree_hbm (j : Nat) : (s.useFree).hbm j = s.hbm j := rfl
@[simp] theorem useFree_entry (j : Nat) : (s.useFree).entry j = s.entry j := rfl
@[simp] theorem useFree_engine (j : Nat) : (s.useFree).engine j = s.engine j := rfl
@[simp] theorem useFree_yobel (j : Nat) : (s.useFree).yobel j = s.yobel j := rfl
@[simp] theorem useFree_tstPort (j : Nat) : (s.useFree).tstPort j = s.tstPort j := rfl
@[simp] theorem useFree_input (j : Nat) : (s.useFree).input j = s.input j := rfl
@[simp] theorem useFree_flue (j : Nat) : (s.useFree).flue j = s.flue j := rfl
@[simp] theorem useFree_tally (j : Nat) : (s.useFree).tally j = s.tally j := rfl
@[simp] theorem useFree_now : (s.useFree).now = s.now := rfl
@[simp] theorem useFree_epochOf (b : Bool) (j : Nat) : (s.useFree).epochOf b j = s.epochOf b j := rfl

/-! ## record -/

@[simp] theorem record_tim (cls : Nat) (num : Nat) (src : BitVec 32) (w0 : BitVec 32) (w1 : BitVec 32) (w2 : BitVec 32) : (s.record cls num src w0 w1 w2).tim = s.tim := rfl
@[simp] theorem record_kin (cls : Nat) (num : Nat) (src : BitVec 32) (w0 : BitVec 32) (w1 : BitVec 32) (w2 : BitVec 32) : (s.record cls num src w0 w1 w2).kin = s.kin := rfl
@[simp] theorem record_rst (cls : Nat) (num : Nat) (src : BitVec 32) (w0 : BitVec 32) (w1 : BitVec 32) (w2 : BitVec 32) : (s.record cls num src w0 w1 w2).rst = s.rst := rfl
@[simp] theorem record_pwr (cls : Nat) (num : Nat) (src : BitVec 32) (w0 : BitVec 32) (w1 : BitVec 32) (w2 : BitVec 32) : (s.record cls num src w0 w1 w2).pwr = s.pwr := rfl
@[simp] theorem record_die (cls : Nat) (num : Nat) (src : BitVec 32) (w0 : BitVec 32) (w1 : BitVec 32) (w2 : BitVec 32) : (s.record cls num src w0 w1 w2).die = s.die := rfl
@[simp] theorem record_ports (cls : Nat) (num : Nat) (src : BitVec 32) (w0 : BitVec 32) (w1 : BitVec 32) (w2 : BitVec 32) : (s.record cls num src w0 w1 w2).ports = s.ports := rfl
@[simp] theorem record_egress (cls : Nat) (num : Nat) (src : BitVec 32) (w0 : BitVec 32) (w1 : BitVec 32) (w2 : BitVec 32) : (s.record cls num src w0 w1 w2).egress = s.egress := rfl
@[simp] theorem record_fabric (cls : Nat) (num : Nat) (src : BitVec 32) (w0 : BitVec 32) (w1 : BitVec 32) (w2 : BitVec 32) : (s.record cls num src w0 w1 w2).fabric = s.fabric := rfl
@[simp] theorem record_alc (cls : Nat) (num : Nat) (src : BitVec 32) (w0 : BitVec 32) (w1 : BitVec 32) (w2 : BitVec 32) : (s.record cls num src w0 w1 w2).alc = s.alc := rfl
@[simp] theorem record_ctxs (cls : Nat) (num : Nat) (src : BitVec 32) (w0 : BitVec 32) (w1 : BitVec 32) (w2 : BitVec 32) : (s.record cls num src w0 w1 w2).ctxs = s.ctxs := rfl
@[simp] theorem record_clr (cls : Nat) (num : Nat) (src : BitVec 32) (w0 : BitVec 32) (w1 : BitVec 32) (w2 : BitVec 32) : (s.record cls num src w0 w1 w2).clr = s.clr := rfl
@[simp] theorem record_mir (cls : Nat) (num : Nat) (src : BitVec 32) (w0 : BitVec 32) (w1 : BitVec 32) (w2 : BitVec 32) : (s.record cls num src w0 w1 w2).mir = s.mir := rfl
@[simp] theorem record_esc (cls : Nat) (num : Nat) (src : BitVec 32) (w0 : BitVec 32) (w1 : BitVec 32) (w2 : BitVec 32) : (s.record cls num src w0 w1 w2).esc = s.esc := rfl
@[simp] theorem record_tst (cls : Nat) (num : Nat) (src : BitVec 32) (w0 : BitVec 32) (w1 : BitVec 32) (w2 : BitVec 32) : (s.record cls num src w0 w1 w2).tst = s.tst := rfl
@[simp] theorem record_tel (cls : Nat) (num : Nat) (src : BitVec 32) (w0 : BitVec 32) (w1 : BitVec 32) (w2 : BitVec 32) : (s.record cls num src w0 w1 w2).tel = s.tel := rfl
@[simp] theorem record_sec (cls : Nat) (num : Nat) (src : BitVec 32) (w0 : BitVec 32) (w1 : BitVec 32) (w2 : BitVec 32) : (s.record cls num src w0 w1 w2).sec = s.sec := rfl
@[simp] theorem record_engines (cls : Nat) (num : Nat) (src : BitVec 32) (w0 : BitVec 32) (w1 : BitVec 32) (w2 : BitVec 32) : (s.record cls num src w0 w1 w2).engines = s.engines := rfl
@[simp] theorem record_yobels (cls : Nat) (num : Nat) (src : BitVec 32) (w0 : BitVec 32) (w1 : BitVec 32) (w2 : BitVec 32) : (s.record cls num src w0 w1 w2).yobels = s.yobels := rfl
@[simp] theorem record_flues (cls : Nat) (num : Nat) (src : BitVec 32) (w0 : BitVec 32) (w1 : BitVec 32) (w2 : BitVec 32) : (s.record cls num src w0 w1 w2).flues = s.flues := rfl
@[simp] theorem record_ctl (cls : Nat) (num : Nat) (src : BitVec 32) (w0 : BitVec 32) (w1 : BitVec 32) (w2 : BitVec 32) : (s.record cls num src w0 w1 w2).ctl = s.ctl := rfl
@[simp] theorem record_ident (cls : Nat) (num : Nat) (src : BitVec 32) (w0 : BitVec 32) (w1 : BitVec 32) (w2 : BitVec 32) : (s.record cls num src w0 w1 w2).ident = s.ident := rfl
@[simp] theorem record_answers (cls : Nat) (num : Nat) (src : BitVec 32) (w0 : BitVec 32) (w1 : BitVec 32) (w2 : BitVec 32) : (s.record cls num src w0 w1 w2).answers = s.answers := rfl
@[simp] theorem record_sent (cls : Nat) (num : Nat) (src : BitVec 32) (w0 : BitVec 32) (w1 : BitVec 32) (w2 : BitVec 32) : (s.record cls num src w0 w1 w2).sent = s.sent := rfl
@[simp] theorem record_free (cls : Nat) (num : Nat) (src : BitVec 32) (w0 : BitVec 32) (w1 : BitVec 32) (w2 : BitVec 32) : (s.record cls num src w0 w1 w2).free = s.free := rfl
@[simp] theorem record_pending (cls : Nat) (num : Nat) (src : BitVec 32) (w0 : BitVec 32) (w1 : BitVec 32) (w2 : BitVec 32) : (s.record cls num src w0 w1 w2).pending = s.pending := rfl
@[simp] theorem record_evr (cls num : Nat) (src w0 w1 w2 : BitVec 32) :
    (s.record cls num src w0 w1 w2).evr = Evr.add s.evr
      { seq := s.evr.nextSeq, cls := BitVec.ofNat 8 cls, number := BitVec.ofNat 16 num, source := src, rpt := 1,
        queued := false, opSec := s.tally 1, cycles := (s.tally 0).setWidth 32, first := s.now, last := s.now,
        w0 := w0, w1 := w1, w2 := w2 } := rfl
@[simp] theorem record_port (cls : Nat) (num : Nat) (src : BitVec 32) (w0 : BitVec 32) (w1 : BitVec 32) (w2 : BitVec 32) (j : Nat) : (s.record cls num src w0 w1 w2).port j = s.port j := rfl
@[simp] theorem record_ctx (cls : Nat) (num : Nat) (src : BitVec 32) (w0 : BitVec 32) (w1 : BitVec 32) (w2 : BitVec 32) (j : Nat) : (s.record cls num src w0 w1 w2).ctx j = s.ctx j := rfl
@[simp] theorem record_hearth (cls : Nat) (num : Nat) (src : BitVec 32) (w0 : BitVec 32) (w1 : BitVec 32) (w2 : BitVec 32) (j : Nat) : (s.record cls num src w0 w1 w2).hearth j = s.hearth j := rfl
@[simp] theorem record_region (cls : Nat) (num : Nat) (src : BitVec 32) (w0 : BitVec 32) (w1 : BitVec 32) (w2 : BitVec 32) (j : Nat) : (s.record cls num src w0 w1 w2).region j = s.region j := rfl
@[simp] theorem record_hbm (cls : Nat) (num : Nat) (src : BitVec 32) (w0 : BitVec 32) (w1 : BitVec 32) (w2 : BitVec 32) (j : Nat) : (s.record cls num src w0 w1 w2).hbm j = s.hbm j := rfl
@[simp] theorem record_entry (cls : Nat) (num : Nat) (src : BitVec 32) (w0 : BitVec 32) (w1 : BitVec 32) (w2 : BitVec 32) (j : Nat) : (s.record cls num src w0 w1 w2).entry j = s.entry j := rfl
@[simp] theorem record_engine (cls : Nat) (num : Nat) (src : BitVec 32) (w0 : BitVec 32) (w1 : BitVec 32) (w2 : BitVec 32) (j : Nat) : (s.record cls num src w0 w1 w2).engine j = s.engine j := rfl
@[simp] theorem record_yobel (cls : Nat) (num : Nat) (src : BitVec 32) (w0 : BitVec 32) (w1 : BitVec 32) (w2 : BitVec 32) (j : Nat) : (s.record cls num src w0 w1 w2).yobel j = s.yobel j := rfl
@[simp] theorem record_tstPort (cls : Nat) (num : Nat) (src : BitVec 32) (w0 : BitVec 32) (w1 : BitVec 32) (w2 : BitVec 32) (j : Nat) : (s.record cls num src w0 w1 w2).tstPort j = s.tstPort j := rfl
@[simp] theorem record_flue (cls : Nat) (num : Nat) (src : BitVec 32) (w0 : BitVec 32) (w1 : BitVec 32) (w2 : BitVec 32) (j : Nat) : (s.record cls num src w0 w1 w2).flue j = s.flue j := rfl
@[simp] theorem record_now (cls : Nat) (num : Nat) (src : BitVec 32) (w0 : BitVec 32) (w1 : BitVec 32) (w2 : BitVec 32) : (s.record cls num src w0 w1 w2).now = s.now := rfl
@[simp] theorem record_epochOf (cls : Nat) (num : Nat) (src : BitVec 32) (w0 : BitVec 32) (w1 : BitVec 32) (w2 : BitVec 32) (b : Bool) (j : Nat) : (s.record cls num src w0 w1 w2).epochOf b j = s.epochOf b j := rfl

/-! ## answer -/

@[simp] theorem answer_tim (rq : Req) (r : Result) (cause : BitVec 8) (data : Bytes) : (s.answer rq r cause data).tim = s.tim := rfl
@[simp] theorem answer_kin (rq : Req) (r : Result) (cause : BitVec 8) (data : Bytes) : (s.answer rq r cause data).kin = s.kin := rfl
@[simp] theorem answer_rst (rq : Req) (r : Result) (cause : BitVec 8) (data : Bytes) : (s.answer rq r cause data).rst = s.rst := rfl
@[simp] theorem answer_pwr (rq : Req) (r : Result) (cause : BitVec 8) (data : Bytes) : (s.answer rq r cause data).pwr = s.pwr := rfl
@[simp] theorem answer_die (rq : Req) (r : Result) (cause : BitVec 8) (data : Bytes) : (s.answer rq r cause data).die = s.die := rfl
@[simp] theorem answer_ports (rq : Req) (r : Result) (cause : BitVec 8) (data : Bytes) : (s.answer rq r cause data).ports = s.ports := rfl
@[simp] theorem answer_fabric (rq : Req) (r : Result) (cause : BitVec 8) (data : Bytes) : (s.answer rq r cause data).fabric = s.fabric := rfl
@[simp] theorem answer_alc (rq : Req) (r : Result) (cause : BitVec 8) (data : Bytes) : (s.answer rq r cause data).alc = s.alc := rfl
@[simp] theorem answer_ctxs (rq : Req) (r : Result) (cause : BitVec 8) (data : Bytes) : (s.answer rq r cause data).ctxs = s.ctxs := rfl
@[simp] theorem answer_clr (rq : Req) (r : Result) (cause : BitVec 8) (data : Bytes) : (s.answer rq r cause data).clr = s.clr := rfl
@[simp] theorem answer_mir (rq : Req) (r : Result) (cause : BitVec 8) (data : Bytes) : (s.answer rq r cause data).mir = s.mir := rfl
@[simp] theorem answer_esc (rq : Req) (r : Result) (cause : BitVec 8) (data : Bytes) : (s.answer rq r cause data).esc = s.esc := rfl
@[simp] theorem answer_tst (rq : Req) (r : Result) (cause : BitVec 8) (data : Bytes) : (s.answer rq r cause data).tst = s.tst := rfl
@[simp] theorem answer_evr (rq : Req) (r : Result) (cause : BitVec 8) (data : Bytes) : (s.answer rq r cause data).evr = s.evr := rfl
@[simp] theorem answer_tel (rq : Req) (r : Result) (cause : BitVec 8) (data : Bytes) : (s.answer rq r cause data).tel = s.tel := rfl
@[simp] theorem answer_sec (rq : Req) (r : Result) (cause : BitVec 8) (data : Bytes) : (s.answer rq r cause data).sec = s.sec := rfl
@[simp] theorem answer_engines (rq : Req) (r : Result) (cause : BitVec 8) (data : Bytes) : (s.answer rq r cause data).engines = s.engines := rfl
@[simp] theorem answer_yobels (rq : Req) (r : Result) (cause : BitVec 8) (data : Bytes) : (s.answer rq r cause data).yobels = s.yobels := rfl
@[simp] theorem answer_flues (rq : Req) (r : Result) (cause : BitVec 8) (data : Bytes) : (s.answer rq r cause data).flues = s.flues := rfl
@[simp] theorem answer_ctl (rq : Req) (r : Result) (cause : BitVec 8) (data : Bytes) : (s.answer rq r cause data).ctl = s.ctl := rfl
@[simp] theorem answer_ident (rq : Req) (r : Result) (cause : BitVec 8) (data : Bytes) : (s.answer rq r cause data).ident = s.ident := rfl
@[simp] theorem answer_sent (rq : Req) (r : Result) (cause : BitVec 8) (data : Bytes) : (s.answer rq r cause data).sent = s.sent := rfl
@[simp] theorem answer_free (rq : Req) (r : Result) (cause : BitVec 8) (data : Bytes) : (s.answer rq r cause data).free = s.free := rfl
@[simp] theorem answer_pending (rq : Req) (r : Result) (cause : BitVec 8) (data : Bytes) : (s.answer rq r cause data).pending = s.pending := rfl
@[simp] theorem answer_answers (rq : Req) (r : Result) (cause : BitVec 8) (data : Bytes) :
    (s.answer rq r cause data).answers =
      s.answers ++ [{ result := r, cause := cause, epoch := s.epochOf rq.ctxv rq.ctx, data := data }] := rfl
@[simp] theorem answer_port (rq : Req) (r : Result) (cause : BitVec 8) (data : Bytes) (j : Nat) : (s.answer rq r cause data).port j = s.port j := rfl
@[simp] theorem answer_ctx (rq : Req) (r : Result) (cause : BitVec 8) (data : Bytes) (j : Nat) : (s.answer rq r cause data).ctx j = s.ctx j := rfl
@[simp] theorem answer_hearth (rq : Req) (r : Result) (cause : BitVec 8) (data : Bytes) (j : Nat) : (s.answer rq r cause data).hearth j = s.hearth j := rfl
@[simp] theorem answer_region (rq : Req) (r : Result) (cause : BitVec 8) (data : Bytes) (j : Nat) : (s.answer rq r cause data).region j = s.region j := rfl
@[simp] theorem answer_hbm (rq : Req) (r : Result) (cause : BitVec 8) (data : Bytes) (j : Nat) : (s.answer rq r cause data).hbm j = s.hbm j := rfl
@[simp] theorem answer_entry (rq : Req) (r : Result) (cause : BitVec 8) (data : Bytes) (j : Nat) : (s.answer rq r cause data).entry j = s.entry j := rfl
@[simp] theorem answer_engine (rq : Req) (r : Result) (cause : BitVec 8) (data : Bytes) (j : Nat) : (s.answer rq r cause data).engine j = s.engine j := rfl
@[simp] theorem answer_yobel (rq : Req) (r : Result) (cause : BitVec 8) (data : Bytes) (j : Nat) : (s.answer rq r cause data).yobel j = s.yobel j := rfl
@[simp] theorem answer_tstPort (rq : Req) (r : Result) (cause : BitVec 8) (data : Bytes) (j : Nat) : (s.answer rq r cause data).tstPort j = s.tstPort j := rfl
@[simp] theorem answer_input (rq : Req) (r : Result) (cause : BitVec 8) (data : Bytes) (j : Nat) : (s.answer rq r cause data).input j = s.input j := rfl
@[simp] theorem answer_flue (rq : Req) (r : Result) (cause : BitVec 8) (data : Bytes) (j : Nat) : (s.answer rq r cause data).flue j = s.flue j := rfl
@[simp] theorem answer_tally (rq : Req) (r : Result) (cause : BitVec 8) (data : Bytes) (j : Nat) : (s.answer rq r cause data).tally j = s.tally j := rfl
@[simp] theorem answer_now (rq : Req) (r : Result) (cause : BitVec 8) (data : Bytes) : (s.answer rq r cause data).now = s.now := rfl
@[simp] theorem answer_epochOf (rq : Req) (r : Result) (cause : BitVec 8) (data : Bytes) (b : Bool) (j : Nat) : (s.answer rq r cause data).epochOf b j = s.epochOf b j := rfl

/-! ## send -/

@[simp] theorem send_tim (m : Msg) : (s.send m).tim = s.tim := rfl
@[simp] theorem send_kin (m : Msg) : (s.send m).kin = s.kin := rfl
@[simp] theorem send_rst (m : Msg) : (s.send m).rst = s.rst := rfl
@[simp] theorem send_pwr (m : Msg) : (s.send m).pwr = s.pwr := rfl
@[simp] theorem send_die (m : Msg) : (s.send m).die = s.die := rfl
@[simp] theorem send_ports (m : Msg) : (s.send m).ports = s.ports := rfl
@[simp] theorem send_fabric (m : Msg) : (s.send m).fabric = s.fabric := rfl
@[simp] theorem send_alc (m : Msg) : (s.send m).alc = s.alc := rfl
@[simp] theorem send_ctxs (m : Msg) : (s.send m).ctxs = s.ctxs := rfl
@[simp] theorem send_clr (m : Msg) : (s.send m).clr = s.clr := rfl
@[simp] theorem send_mir (m : Msg) : (s.send m).mir = s.mir := rfl
@[simp] theorem send_esc (m : Msg) : (s.send m).esc = s.esc := rfl
@[simp] theorem send_tst (m : Msg) : (s.send m).tst = s.tst := rfl
@[simp] theorem send_evr (m : Msg) : (s.send m).evr = s.evr := rfl
@[simp] theorem send_tel (m : Msg) : (s.send m).tel = s.tel := rfl
@[simp] theorem send_sec (m : Msg) : (s.send m).sec = s.sec := rfl
@[simp] theorem send_engines (m : Msg) : (s.send m).engines = s.engines := rfl
@[simp] theorem send_yobels (m : Msg) : (s.send m).yobels = s.yobels := rfl
@[simp] theorem send_flues (m : Msg) : (s.send m).flues = s.flues := rfl
@[simp] theorem send_ctl (m : Msg) : (s.send m).ctl = s.ctl := rfl
@[simp] theorem send_ident (m : Msg) : (s.send m).ident = s.ident := rfl
@[simp] theorem send_answers (m : Msg) : (s.send m).answers = s.answers := rfl
@[simp] theorem send_free (m : Msg) : (s.send m).free = s.free := rfl
@[simp] theorem send_pending (m : Msg) : (s.send m).pending = s.pending := rfl
@[simp] theorem send_sent (m : Msg) : (s.send m).sent = s.sent ++ [m] := rfl
@[simp] theorem send_port (m : Msg) (j : Nat) : (s.send m).port j = s.port j := rfl
@[simp] theorem send_ctx (m : Msg) (j : Nat) : (s.send m).ctx j = s.ctx j := rfl
@[simp] theorem send_hearth (m : Msg) (j : Nat) : (s.send m).hearth j = s.hearth j := rfl
@[simp] theorem send_region (m : Msg) (j : Nat) : (s.send m).region j = s.region j := rfl
@[simp] theorem send_hbm (m : Msg) (j : Nat) : (s.send m).hbm j = s.hbm j := rfl
@[simp] theorem send_entry (m : Msg) (j : Nat) : (s.send m).entry j = s.entry j := rfl
@[simp] theorem send_engine (m : Msg) (j : Nat) : (s.send m).engine j = s.engine j := rfl
@[simp] theorem send_yobel (m : Msg) (j : Nat) : (s.send m).yobel j = s.yobel j := rfl
@[simp] theorem send_tstPort (m : Msg) (j : Nat) : (s.send m).tstPort j = s.tstPort j := rfl
@[simp] theorem send_input (m : Msg) (j : Nat) : (s.send m).input j = s.input j := rfl
@[simp] theorem send_flue (m : Msg) (j : Nat) : (s.send m).flue j = s.flue j := rfl
@[simp] theorem send_tally (m : Msg) (j : Nat) : (s.send m).tally j = s.tally j := rfl
@[simp] theorem send_now (m : Msg) : (s.send m).now = s.now := rfl
@[simp] theorem send_epochOf (m : Msg) (b : Bool) (j : Nat) : (s.send m).epochOf b j = s.epochOf b j := rfl

/-! ## request -/

@[simp] theorem request_tim (m : Msg) : (s.request m).tim = s.tim := rfl
@[simp] theorem request_kin (m : Msg) : (s.request m).kin = s.kin := rfl
@[simp] theorem request_rst (m : Msg) : (s.request m).rst = s.rst := rfl
@[simp] theorem request_pwr (m : Msg) : (s.request m).pwr = s.pwr := rfl
@[simp] theorem request_die (m : Msg) : (s.request m).die = s.die := rfl
@[simp] theorem request_ports (m : Msg) : (s.request m).ports = s.ports := rfl
@[simp] theorem request_fabric (m : Msg) : (s.request m).fabric = s.fabric := rfl
@[simp] theorem request_alc (m : Msg) : (s.request m).alc = s.alc := rfl
@[simp] theorem request_ctxs (m : Msg) : (s.request m).ctxs = s.ctxs := rfl
@[simp] theorem request_clr (m : Msg) : (s.request m).clr = s.clr := rfl
@[simp] theorem request_mir (m : Msg) : (s.request m).mir = s.mir := rfl
@[simp] theorem request_esc (m : Msg) : (s.request m).esc = s.esc := rfl
@[simp] theorem request_tst (m : Msg) : (s.request m).tst = s.tst := rfl
@[simp] theorem request_evr (m : Msg) : (s.request m).evr = s.evr := rfl
@[simp] theorem request_tel (m : Msg) : (s.request m).tel = s.tel := rfl
@[simp] theorem request_sec (m : Msg) : (s.request m).sec = s.sec := rfl
@[simp] theorem request_engines (m : Msg) : (s.request m).engines = s.engines := rfl
@[simp] theorem request_yobels (m : Msg) : (s.request m).yobels = s.yobels := rfl
@[simp] theorem request_flues (m : Msg) : (s.request m).flues = s.flues := rfl
@[simp] theorem request_ident (m : Msg) : (s.request m).ident = s.ident := rfl
@[simp] theorem request_answers (m : Msg) : (s.request m).answers = s.answers := rfl
@[simp] theorem request_free (m : Msg) : (s.request m).free = s.free := rfl
@[simp] theorem request_pending (m : Msg) : (s.request m).pending = s.pending := rfl
@[simp] theorem request_sent (m : Msg) : (s.request m).sent = s.sent ++ [m] := rfl
@[simp] theorem request_port (m : Msg) (j : Nat) : (s.request m).port j = s.port j := rfl
@[simp] theorem request_ctx (m : Msg) (j : Nat) : (s.request m).ctx j = s.ctx j := rfl
@[simp] theorem request_hearth (m : Msg) (j : Nat) : (s.request m).hearth j = s.hearth j := rfl
@[simp] theorem request_region (m : Msg) (j : Nat) : (s.request m).region j = s.region j := rfl
@[simp] theorem request_hbm (m : Msg) (j : Nat) : (s.request m).hbm j = s.hbm j := rfl
@[simp] theorem request_entry (m : Msg) (j : Nat) : (s.request m).entry j = s.entry j := rfl
@[simp] theorem request_engine (m : Msg) (j : Nat) : (s.request m).engine j = s.engine j := rfl
@[simp] theorem request_yobel (m : Msg) (j : Nat) : (s.request m).yobel j = s.yobel j := rfl
@[simp] theorem request_tstPort (m : Msg) (j : Nat) : (s.request m).tstPort j = s.tstPort j := rfl
@[simp] theorem request_input (m : Msg) (j : Nat) : (s.request m).input j = s.input j := rfl
@[simp] theorem request_flue (m : Msg) (j : Nat) : (s.request m).flue j = s.flue j := rfl
@[simp] theorem request_tally (m : Msg) (j : Nat) : (s.request m).tally j = s.tally j := rfl
@[simp] theorem request_now (m : Msg) : (s.request m).now = s.now := rfl
@[simp] theorem request_epochOf (m : Msg) (b : Bool) (j : Nat) : (s.request m).epochOf b j = s.epochOf b j := rfl

end Sys2Proof.Machine.State
end

