-- ==== Sys2Proof/Laws/Judge.lean ====
section
/-!
SUPPORT. Sys2Proof/Laws/Judge.lean: what the shared operations that judge a request do when it passes, and what keeping an
answer leaves alone.
-/

namespace Sys2Proof.Machine.State

variable (s : State)

@[simp] theorem begin_reaches (rq : Req) (e : Bool) : s.begin.reaches rq e = s.reaches rq e := rfl
@[simp] theorem begin_served (rq : Req) (e : Bool) (w : Who) : s.begin.served rq e w = s.served rq e w := rfl
@[simp] theorem begin_mayUse (rq : Req) (w : Who) : s.begin.mayUse rq w = s.mayUse rq w := rfl
@[simp] theorem begin_keptAnswer (rq : Req) (a : Nat) : s.begin.keptAnswer rq a = s.keptAnswer rq a := rfl

theorem admitPower_eq {rq : Req} {e : Bool} {k : State → State} (h : s.answering e = true) : s.admitPower rq e k = k s := by
  unfold answering at h
  unfold admitPower
  split at h <;> simp_all

/-- A request that reaches its rule is judged by that rule alone. -/
theorem judge_eq {rq : Req} {e : Bool} {k : State → State} (h : s.reaches rq e = true) : s.judge rq e k = k s := by
  unfold reaches at h
  unfold judge admitWith
  split at h
  · next p _ =>
    cases hc : rq.ctxv <;> simp_all
  · next hp => simp [hp, s.admitPower_eq h]
  · next hp =>
    simp only [Bool.and_eq_true, Bool.not_eq_true', decide_eq_true_eq] at h
    obtain ⟨⟨⟨⟨h1, h2⟩, h3⟩, h4⟩, h5⟩ := h
    simp only [hp, h1, h2, h3, h4]
    simpa using s.admitPower_eq h5

/-- A request to control space by a requester that may make it goes on. -/
theorem control_eq {rq : Req} {e : Bool} {w : Who} {k : State → State} (h : s.served rq e w = true) :
    s.control rq e w k = k s := by
  unfold served at h
  simp only [Bool.and_eq_true] at h
  unfold control
  rw [s.judge_eq h.1]
  simp [h.2]

/-- Another requester gets NACK_ACCESS. -/
theorem control_access {rq : Req} {e : Bool} {w : Who} {k : State → State} (h : s.reaches rq e = true)
    (hw : s.mayUse rq w = false) : s.control rq e w k = s.nackAccess rq := by
  unfold control
  rw [s.judge_eq h]
  simp [hw]

theorem once_eq {rq : Req} {a : Nat} {k : State → State} (h : s.keptAnswer rq a = none) :
    s.once rq a k = (k s).keepAnswer rq a := by simp [once, h]

theorem message_eq {rq : Req} {k : State → State} (h : s.reaches rq false = true) :
    s.message rq k = (k s.begin).ok rq := by
  unfold message
  rw [judge_eq _ (by simpa using h)]

theorem osfel_eq {rq : Req} {k : State → State} (h : s.reachesByPort rq = true) : s.osfel rq k = k s.begin := by
  unfold reachesByPort management at h
  unfold osfel
  cases hp : rq.path <;> simp_all
  exact judge_eq _ (by simpa using h)

theorem messageQuiet_eq {rq : Req} {k : State → State} (h : s.reachesQuiet rq = true) : s.messageQuiet rq k = k s.begin := by
  unfold reachesQuiet at h
  unfold messageQuiet
  cases hp : rq.path <;> simp_all
  next p =>
    have e : ∀ q, s.begin.sourceOk q rq = s.sourceOk q rq := fun _ => rfl
    have u : ∀ q, s.begin.portUp q = s.portUp q := fun _ => rfl
    simp only [u, e, h.1.2]
    cases hc : rq.ctxv <;> simp_all

/-! ## keepAnswer changes the kept answers only -/

theorem keepAnswer_eq (rq : Req) (a : Nat) : ∃ k, s.keepAnswer rq a = { s with ctl.kept := k } := by
  unfold keepAnswer
  split
  · exact ⟨s.ctl.kept, rfl⟩
  · exact ⟨_, rfl⟩

@[simp] theorem keepAnswer_tim (rq : Req) (a : Nat) : (s.keepAnswer rq a).tim = s.tim := by
  obtain ⟨k, h⟩ := s.keepAnswer_eq rq a; rw [h]
@[simp] theorem keepAnswer_kin (rq : Req) (a : Nat) : (s.keepAnswer rq a).kin = s.kin := by
  obtain ⟨k, h⟩ := s.keepAnswer_eq rq a; rw [h]
@[simp] theorem keepAnswer_rst (rq : Req) (a : Nat) : (s.keepAnswer rq a).rst = s.rst := by
  obtain ⟨k, h⟩ := s.keepAnswer_eq rq a; rw [h]
@[simp] theorem keepAnswer_pwr (rq : Req) (a : Nat) : (s.keepAnswer rq a).pwr = s.pwr := by
  obtain ⟨k, h⟩ := s.keepAnswer_eq rq a; rw [h]
@[simp] theorem keepAnswer_die (rq : Req) (a : Nat) : (s.keepAnswer rq a).die = s.die := by
  obtain ⟨k, h⟩ := s.keepAnswer_eq rq a; rw [h]
@[simp] theorem keepAnswer_ports (rq : Req) (a : Nat) : (s.keepAnswer rq a).ports = s.ports := by
  obtain ⟨k, h⟩ := s.keepAnswer_eq rq a; rw [h]
@[simp] theorem keepAnswer_fabric (rq : Req) (a : Nat) : (s.keepAnswer rq a).fabric = s.fabric := by
  obtain ⟨k, h⟩ := s.keepAnswer_eq rq a; rw [h]
@[simp] theorem keepAnswer_alc (rq : Req) (a : Nat) : (s.keepAnswer rq a).alc = s.alc := by
  obtain ⟨k, h⟩ := s.keepAnswer_eq rq a; rw [h]
@[simp] theorem keepAnswer_ctxs (rq : Req) (a : Nat) : (s.keepAnswer rq a).ctxs = s.ctxs := by
  obtain ⟨k, h⟩ := s.keepAnswer_eq rq a; rw [h]
@[simp] theorem keepAnswer_clr (rq : Req) (a : Nat) : (s.keepAnswer rq a).clr = s.clr := by
  obtain ⟨k, h⟩ := s.keepAnswer_eq rq a; rw [h]
@[simp] theorem keepAnswer_mir (rq : Req) (a : Nat) : (s.keepAnswer rq a).mir = s.mir := by
  obtain ⟨k, h⟩ := s.keepAnswer_eq rq a; rw [h]
@[simp] theorem keepAnswer_esc (rq : Req) (a : Nat) : (s.keepAnswer rq a).esc = s.esc := by
  obtain ⟨k, h⟩ := s.keepAnswer_eq rq a; rw [h]
@[simp] theorem keepAnswer_tst (rq : Req) (a : Nat) : (s.keepAnswer rq a).tst = s.tst := by
  obtain ⟨k, h⟩ := s.keepAnswer_eq rq a; rw [h]
@[simp] theorem keepAnswer_evr (rq : Req) (a : Nat) : (s.keepAnswer rq a).evr = s.evr := by
  obtain ⟨k, h⟩ := s.keepAnswer_eq rq a; rw [h]
@[simp] theorem keepAnswer_tel (rq : Req) (a : Nat) : (s.keepAnswer rq a).tel = s.tel := by
  obtain ⟨k, h⟩ := s.keepAnswer_eq rq a; rw [h]
@[simp] theorem keepAnswer_sec (rq : Req) (a : Nat) : (s.keepAnswer rq a).sec = s.sec := by
  obtain ⟨k, h⟩ := s.keepAnswer_eq rq a; rw [h]
@[simp] theorem keepAnswer_engines (rq : Req) (a : Nat) : (s.keepAnswer rq a).engines = s.engines := by
  obtain ⟨k, h⟩ := s.keepAnswer_eq rq a; rw [h]
@[simp] theorem keepAnswer_yobels (rq : Req) (a : Nat) : (s.keepAnswer rq a).yobels = s.yobels := by
  obtain ⟨k, h⟩ := s.keepAnswer_eq rq a; rw [h]
@[simp] theorem keepAnswer_flues (rq : Req) (a : Nat) : (s.keepAnswer rq a).flues = s.flues := by
  obtain ⟨k, h⟩ := s.keepAnswer_eq rq a; rw [h]
@[simp] theorem keepAnswer_ident (rq : Req) (a : Nat) : (s.keepAnswer rq a).ident = s.ident := by
  obtain ⟨k, h⟩ := s.keepAnswer_eq rq a; rw [h]
@[simp] theorem keepAnswer_answers (rq : Req) (a : Nat) : (s.keepAnswer rq a).answers = s.answers := by
  obtain ⟨k, h⟩ := s.keepAnswer_eq rq a; rw [h]
@[simp] theorem keepAnswer_sent (rq : Req) (a : Nat) : (s.keepAnswer rq a).sent = s.sent := by
  obtain ⟨k, h⟩ := s.keepAnswer_eq rq a; rw [h]
@[simp] theorem keepAnswer_free (rq : Req) (a : Nat) : (s.keepAnswer rq a).free = s.free := by
  obtain ⟨k, h⟩ := s.keepAnswer_eq rq a; rw [h]
@[simp] theorem keepAnswer_pending (rq : Req) (a : Nat) : (s.keepAnswer rq a).pending = s.pending := by
  obtain ⟨k, h⟩ := s.keepAnswer_eq rq a; rw [h]

/-! ## The recorder leaves the tallies and inputs alone -/

theorem Evr.add_tallies (e : Evr) (r : Record) : (Evr.add e r).tallies = e.tallies ∧ (Evr.add e r).inputs = e.inputs := by
  unfold Evr.add Evr.hold Evr.store
  repeat' (first | split | exact ⟨rfl, rfl⟩)

@[simp] theorem record_tally (c n : Nat) (x a b d : BitVec 32) (i : Nat) : (s.record c n x a b d).tally i = s.tally i := by
  simp [tally, Evr.add_tallies]
@[simp] theorem record_input (c n : Nat) (x a b d : BitVec 32) (i : Nat) : (s.record c n x a b d).input i = s.input i := by
  simp [input, Evr.add_tallies]

end Sys2Proof.Machine.State
end

