-- ==== Sys2Proof/Laws/Ops.lean ====
section
/-!
SUPPORT. Sys2Proof/Laws/Ops.lean: the parts of the state that the shared operations leave alone, one lemma per operation and part,
and what they put into the others.
-/

namespace Sys2Proof.Machine.State

variable (s : State)

/-! ## journalWrite -/

@[simp] theorem journalWrite_tim : (s.journalWrite).tim = s.tim := by unfold journalWrite; split <;> rfl
@[simp] theorem journalWrite_kin : (s.journalWrite).kin = s.kin := by unfold journalWrite; split <;> rfl
@[simp] theorem journalWrite_rst : (s.journalWrite).rst = s.rst := by unfold journalWrite; split <;> rfl
@[simp] theorem journalWrite_pwr : (s.journalWrite).pwr = s.pwr := by unfold journalWrite; split <;> rfl
@[simp] theorem journalWrite_die : (s.journalWrite).die = s.die := by unfold journalWrite; split <;> rfl
@[simp] theorem journalWrite_ports : (s.journalWrite).ports = s.ports := by unfold journalWrite; split <;> rfl
@[simp] theorem journalWrite_egress : (s.journalWrite).egress = s.egress := by unfold journalWrite; split <;> rfl
@[simp] theorem journalWrite_fabric : (s.journalWrite).fabric = s.fabric := by unfold journalWrite; split <;> rfl
@[simp] theorem journalWrite_alc : (s.journalWrite).alc = s.alc := by unfold journalWrite; split <;> rfl
@[simp] theorem journalWrite_ctxs : (s.journalWrite).ctxs = s.ctxs := by unfold journalWrite; split <;> rfl
@[simp] theorem journalWrite_clr : (s.journalWrite).clr = s.clr := by unfold journalWrite; split <;> rfl
@[simp] theorem journalWrite_mir : (s.journalWrite).mir = s.mir := by unfold journalWrite; split <;> rfl
@[simp] theorem journalWrite_esc : (s.journalWrite).esc = s.esc := by unfold journalWrite; split <;> rfl
@[simp] theorem journalWrite_tst : (s.journalWrite).tst = s.tst := by unfold journalWrite; split <;> rfl
@[simp] theorem journalWrite_tel : (s.journalWrite).tel = s.tel := by unfold journalWrite; split <;> rfl
@[simp] theorem journalWrite_sec : (s.journalWrite).sec = s.sec := by unfold journalWrite; split <;> rfl
@[simp] theorem journalWrite_engines : (s.journalWrite).engines = s.engines := by unfold journalWrite; split <;> rfl
@[simp] theorem journalWrite_yobels : (s.journalWrite).yobels = s.yobels := by unfold journalWrite; split <;> rfl
@[simp] theorem journalWrite_flues : (s.journalWrite).flues = s.flues := by unfold journalWrite; split <;> rfl
@[simp] theorem journalWrite_ctl : (s.journalWrite).ctl = s.ctl := by unfold journalWrite; split <;> rfl
@[simp] theorem journalWrite_ident : (s.journalWrite).ident = s.ident := by unfold journalWrite; split <;> rfl
@[simp] theorem journalWrite_answers : (s.journalWrite).answers = s.answers := by unfold journalWrite; split <;> rfl
@[simp] theorem journalWrite_sent : (s.journalWrite).sent = s.sent := by unfold journalWrite; split <;> rfl
@[simp] theorem journalWrite_free : (s.journalWrite).free = s.free := by unfold journalWrite; split <;> rfl
@[simp] theorem journalWrite_pending : (s.journalWrite).pending = s.pending := by unfold journalWrite; split <;> rfl

/-! ## mergeTallies -/

@[simp] theorem mergeTallies_tim : (s.mergeTallies).tim = s.tim := by simp only [mergeTallies]; split <;> rfl
@[simp] theorem mergeTallies_kin : (s.mergeTallies).kin = s.kin := by simp only [mergeTallies]; split <;> rfl
@[simp] theorem mergeTallies_rst : (s.mergeTallies).rst = s.rst := by simp only [mergeTallies]; split <;> rfl
@[simp] theorem mergeTallies_pwr : (s.mergeTallies).pwr = s.pwr := by simp only [mergeTallies]; split <;> rfl
@[simp] theorem mergeTallies_die : (s.mergeTallies).die = s.die := by simp only [mergeTallies]; split <;> rfl
@[simp] theorem mergeTallies_ports : (s.mergeTallies).ports = s.ports := by simp only [mergeTallies]; split <;> rfl
@[simp] theorem mergeTallies_egress : (s.mergeTallies).egress = s.egress := by simp only [mergeTallies]; split <;> rfl
@[simp] theorem mergeTallies_fabric : (s.mergeTallies).fabric = s.fabric := by simp only [mergeTallies]; split <;> rfl
@[simp] theorem mergeTallies_alc : (s.mergeTallies).alc = s.alc := by simp only [mergeTallies]; split <;> rfl
@[simp] theorem mergeTallies_ctxs : (s.mergeTallies).ctxs = s.ctxs := by simp only [mergeTallies]; split <;> rfl
@[simp] theorem mergeTallies_clr : (s.mergeTallies).clr = s.clr := by simp only [mergeTallies]; split <;> rfl
@[simp] theorem mergeTallies_mir : (s.mergeTallies).mir = s.mir := by simp only [mergeTallies]; split <;> rfl
@[simp] theorem mergeTallies_esc : (s.mergeTallies).esc = s.esc := by simp only [mergeTallies]; split <;> rfl
@[simp] theorem mergeTallies_tst : (s.mergeTallies).tst = s.tst := by simp only [mergeTallies]; split <;> rfl
@[simp] theorem mergeTallies_tel : (s.mergeTallies).tel = s.tel := by simp only [mergeTallies]; split <;> rfl
@[simp] theorem mergeTallies_sec : (s.mergeTallies).sec = s.sec := by simp only [mergeTallies]; split <;> rfl
@[simp] theorem mergeTallies_engines : (s.mergeTallies).engines = s.engines := by simp only [mergeTallies]; split <;> rfl
@[simp] theorem mergeTallies_yobels : (s.mergeTallies).yobels = s.yobels := by simp only [mergeTallies]; split <;> rfl
@[simp] theorem mergeTallies_flues : (s.mergeTallies).flues = s.flues := by simp only [mergeTallies]; split <;> rfl
@[simp] theorem mergeTallies_ctl : (s.mergeTallies).ctl = s.ctl := by simp only [mergeTallies]; split <;> rfl
@[simp] theorem mergeTallies_ident : (s.mergeTallies).ident = s.ident := by simp only [mergeTallies]; split <;> rfl
@[simp] theorem mergeTallies_answers : (s.mergeTallies).answers = s.answers := by simp only [mergeTallies]; split <;> rfl
@[simp] theorem mergeTallies_sent : (s.mergeTallies).sent = s.sent := by simp only [mergeTallies]; split <;> rfl
@[simp] theorem mergeTallies_free : (s.mergeTallies).free = s.free := by simp only [mergeTallies]; split <;> rfl
@[simp] theorem mergeTallies_pending : (s.mergeTallies).pending = s.pending := by simp only [mergeTallies]; split <;> rfl

/-! ## flagReplace -/

@[simp] theorem flagReplace_tim (w : Word) (p : Nat) : (s.flagReplace w p).tim = s.tim := by simp [flagReplace]
@[simp] theorem flagReplace_kin (w : Word) (p : Nat) : (s.flagReplace w p).kin = s.kin := by simp [flagReplace]
@[simp] theorem flagReplace_rst (w : Word) (p : Nat) : (s.flagReplace w p).rst = s.rst := by simp [flagReplace]
@[simp] theorem flagReplace_pwr (w : Word) (p : Nat) : (s.flagReplace w p).pwr = s.pwr := by simp [flagReplace]
@[simp] theorem flagReplace_die (w : Word) (p : Nat) : (s.flagReplace w p).die = s.die := by simp [flagReplace]
@[simp] theorem flagReplace_ports (w : Word) (p : Nat) : (s.flagReplace w p).ports = s.ports := by simp [flagReplace]
@[simp] theorem flagReplace_egress (w : Word) (p : Nat) : (s.flagReplace w p).egress = s.egress := by simp [flagReplace]
@[simp] theorem flagReplace_fabric (w : Word) (p : Nat) : (s.flagReplace w p).fabric = s.fabric := by simp [flagReplace]
@[simp] theorem flagReplace_alc (w : Word) (p : Nat) : (s.flagReplace w p).alc = s.alc := by simp [flagReplace]
@[simp] theorem flagReplace_ctxs (w : Word) (p : Nat) : (s.flagReplace w p).ctxs = s.ctxs := by simp [flagReplace]
@[simp] theorem flagReplace_clr (w : Word) (p : Nat) : (s.flagReplace w p).clr = s.clr := by simp [flagReplace]
@[simp] theorem flagReplace_mir (w : Word) (p : Nat) : (s.flagReplace w p).mir = s.mir := by simp [flagReplace]
@[simp] theorem flagReplace_esc (w : Word) (p : Nat) : (s.flagReplace w p).esc = s.esc := by simp [flagReplace]
@[simp] theorem flagReplace_tst (w : Word) (p : Nat) : (s.flagReplace w p).tst = s.tst := by simp [flagReplace]
@[simp] theorem flagReplace_tel (w : Word) (p : Nat) : (s.flagReplace w p).tel = s.tel := by simp [flagReplace]
@[simp] theorem flagReplace_sec (w : Word) (p : Nat) : (s.flagReplace w p).sec = s.sec := by simp [flagReplace]
@[simp] theorem flagReplace_engines (w : Word) (p : Nat) : (s.flagReplace w p).engines = s.engines := by simp [flagReplace]
@[simp] theorem flagReplace_yobels (w : Word) (p : Nat) : (s.flagReplace w p).yobels = s.yobels := by simp [flagReplace]
@[simp] theorem flagReplace_flues (w : Word) (p : Nat) : (s.flagReplace w p).flues = s.flues := by simp [flagReplace]
@[simp] theorem flagReplace_ctl (w : Word) (p : Nat) : (s.flagReplace w p).ctl = s.ctl := by simp [flagReplace]
@[simp] theorem flagReplace_ident (w : Word) (p : Nat) : (s.flagReplace w p).ident = s.ident := by simp [flagReplace]
@[simp] theorem flagReplace_answers (w : Word) (p : Nat) : (s.flagReplace w p).answers = s.answers := by simp [flagReplace]
@[simp] theorem flagReplace_sent (w : Word) (p : Nat) : (s.flagReplace w p).sent = s.sent := by simp [flagReplace]
@[simp] theorem flagReplace_free (w : Word) (p : Nat) : (s.flagReplace w p).free = s.free := by simp [flagReplace]
@[simp] theorem flagReplace_pending (w : Word) (p : Nat) : (s.flagReplace w p).pending = s.pending := by simp [flagReplace]

/-! ## setOos -/

@[simp] theorem setOos_tim (c : Nat) : (s.setOos c).tim = s.tim := by simp [setOos]
@[simp] theorem setOos_kin (c : Nat) : (s.setOos c).kin = s.kin := by simp [setOos]
@[simp] theorem setOos_pwr (c : Nat) : (s.setOos c).pwr = s.pwr := by simp [setOos]
@[simp] theorem setOos_die (c : Nat) : (s.setOos c).die = s.die := by simp [setOos]
@[simp] theorem setOos_ports (c : Nat) : (s.setOos c).ports = s.ports := by simp [setOos]
@[simp] theorem setOos_egress (c : Nat) : (s.setOos c).egress = s.egress := by simp [setOos]
@[simp] theorem setOos_fabric (c : Nat) : (s.setOos c).fabric = s.fabric := by simp [setOos]
@[simp] theorem setOos_alc (c : Nat) : (s.setOos c).alc = s.alc := by simp [setOos]
@[simp] theorem setOos_ctxs (c : Nat) : (s.setOos c).ctxs = s.ctxs := by simp [setOos]
@[simp] theorem setOos_clr (c : Nat) : (s.setOos c).clr = s.clr := by simp [setOos]
@[simp] theorem setOos_mir (c : Nat) : (s.setOos c).mir = s.mir := by simp [setOos]
@[simp] theorem setOos_esc (c : Nat) : (s.setOos c).esc = s.esc := by simp [setOos]
@[simp] theorem setOos_tst (c : Nat) : (s.setOos c).tst = s.tst := by simp [setOos]
@[simp] theorem setOos_tel (c : Nat) : (s.setOos c).tel = s.tel := by simp [setOos]
@[simp] theorem setOos_sec (c : Nat) : (s.setOos c).sec = s.sec := by simp [setOos]
@[simp] theorem setOos_engines (c : Nat) : (s.setOos c).engines = s.engines := by simp [setOos]
@[simp] theorem setOos_yobels (c : Nat) : (s.setOos c).yobels = s.yobels := by simp [setOos]
@[simp] theorem setOos_flues (c : Nat) : (s.setOos c).flues = s.flues := by simp [setOos]
@[simp] theorem setOos_ctl (c : Nat) : (s.setOos c).ctl = s.ctl := by simp [setOos]
@[simp] theorem setOos_ident (c : Nat) : (s.setOos c).ident = s.ident := by simp [setOos]
@[simp] theorem setOos_answers (c : Nat) : (s.setOos c).answers = s.answers := by simp [setOos]
@[simp] theorem setOos_sent (c : Nat) : (s.setOos c).sent = s.sent := by simp [setOos]
@[simp] theorem setOos_free (c : Nat) : (s.setOos c).free = s.free := by simp [setOos]
@[simp] theorem setOos_pending (c : Nat) : (s.setOos c).pending = s.pending := by simp [setOos]

/-! ## drainIfEmpty -/

@[simp] theorem drainIfEmpty_tim : (s.drainIfEmpty).tim = s.tim := by unfold drainIfEmpty; split <;> simp
@[simp] theorem drainIfEmpty_kin : (s.drainIfEmpty).kin = s.kin := by unfold drainIfEmpty; split <;> simp
@[simp] theorem drainIfEmpty_pwr : (s.drainIfEmpty).pwr = s.pwr := by unfold drainIfEmpty; split <;> simp
@[simp] theorem drainIfEmpty_die : (s.drainIfEmpty).die = s.die := by unfold drainIfEmpty; split <;> simp
@[simp] theorem drainIfEmpty_ports : (s.drainIfEmpty).ports = s.ports := by unfold drainIfEmpty; split <;> simp
@[simp] theorem drainIfEmpty_egress : (s.drainIfEmpty).egress = s.egress := by unfold drainIfEmpty; split <;> simp
@[simp] theorem drainIfEmpty_fabric : (s.drainIfEmpty).fabric = s.fabric := by unfold drainIfEmpty; split <;> simp
@[simp] theorem drainIfEmpty_alc : (s.drainIfEmpty).alc = s.alc := by unfold drainIfEmpty; split <;> simp
@[simp] theorem drainIfEmpty_ctxs : (s.drainIfEmpty).ctxs = s.ctxs := by unfold drainIfEmpty; split <;> simp
@[simp] theorem drainIfEmpty_clr : (s.drainIfEmpty).clr = s.clr := by unfold drainIfEmpty; split <;> simp
@[simp] theorem drainIfEmpty_mir : (s.drainIfEmpty).mir = s.mir := by unfold drainIfEmpty; split <;> simp
@[simp] theorem drainIfEmpty_esc : (s.drainIfEmpty).esc = s.esc := by unfold drainIfEmpty; split <;> simp
@[simp] theorem drainIfEmpty_tel : (s.drainIfEmpty).tel = s.tel := by unfold drainIfEmpty; split <;> simp
@[simp] theorem drainIfEmpty_sec : (s.drainIfEmpty).sec = s.sec := by unfold drainIfEmpty; split <;> simp
@[simp] theorem drainIfEmpty_engines : (s.drainIfEmpty).engines = s.engines := by unfold drainIfEmpty; split <;> simp
@[simp] theorem drainIfEmpty_yobels : (s.drainIfEmpty).yobels = s.yobels := by unfold drainIfEmpty; split <;> simp
@[simp] theorem drainIfEmpty_flues : (s.drainIfEmpty).flues = s.flues := by unfold drainIfEmpty; split <;> simp
@[simp] theorem drainIfEmpty_ctl : (s.drainIfEmpty).ctl = s.ctl := by unfold drainIfEmpty; split <;> simp
@[simp] theorem drainIfEmpty_ident : (s.drainIfEmpty).ident = s.ident := by unfold drainIfEmpty; split <;> simp
@[simp] theorem drainIfEmpty_answers : (s.drainIfEmpty).answers = s.answers := by unfold drainIfEmpty; split <;> simp
@[simp] theorem drainIfEmpty_sent : (s.drainIfEmpty).sent = s.sent := by unfold drainIfEmpty; split <;> simp
@[simp] theorem drainIfEmpty_free : (s.drainIfEmpty).free = s.free := by unfold drainIfEmpty; split <;> simp
@[simp] theorem drainIfEmpty_pending : (s.drainIfEmpty).pending = s.pending := by unfold drainIfEmpty; split <;> simp

/-! ## zeroised -/

@[simp] theorem zeroised_tim (x : Nat) : (s.zeroised x).tim = s.tim := by simp [zeroised]
@[simp] theorem zeroised_kin (x : Nat) : (s.zeroised x).kin = s.kin := by simp [zeroised]
@[simp] theorem zeroised_rst (x : Nat) : (s.zeroised x).rst = s.rst := by simp [zeroised]
@[simp] theorem zeroised_pwr (x : Nat) : (s.zeroised x).pwr = s.pwr := by simp [zeroised]
@[simp] theorem zeroised_die (x : Nat) : (s.zeroised x).die = s.die := by simp [zeroised]
@[simp] theorem zeroised_ports (x : Nat) : (s.zeroised x).ports = s.ports := by simp [zeroised]
@[simp] theorem zeroised_egress (x : Nat) : (s.zeroised x).egress = s.egress := by simp [zeroised]
@[simp] theorem zeroised_fabric (x : Nat) : (s.zeroised x).fabric = s.fabric := by simp [zeroised]
@[simp] theorem zeroised_alc (x : Nat) : (s.zeroised x).alc = s.alc := by simp [zeroised]
@[simp] theorem zeroised_ctxs (x : Nat) : (s.zeroised x).ctxs = s.ctxs := by simp [zeroised]
@[simp] theorem zeroised_clr (x : Nat) : (s.zeroised x).clr = s.clr := by simp [zeroised]
@[simp] theorem zeroised_mir (x : Nat) : (s.zeroised x).mir = s.mir := by simp [zeroised]
@[simp] theorem zeroised_esc (x : Nat) : (s.zeroised x).esc = s.esc := by simp [zeroised]
@[simp] theorem zeroised_tst (x : Nat) : (s.zeroised x).tst = s.tst := by simp [zeroised]
@[simp] theorem zeroised_tel (x : Nat) : (s.zeroised x).tel = s.tel := by simp [zeroised]
@[simp] theorem zeroised_engines (x : Nat) : (s.zeroised x).engines = s.engines := by simp [zeroised]
@[simp] theorem zeroised_yobels (x : Nat) : (s.zeroised x).yobels = s.yobels := by simp [zeroised]
@[simp] theorem zeroised_flues (x : Nat) : (s.zeroised x).flues = s.flues := by simp [zeroised]
@[simp] theorem zeroised_ctl (x : Nat) : (s.zeroised x).ctl = s.ctl := by simp [zeroised]
@[simp] theorem zeroised_ident (x : Nat) : (s.zeroised x).ident = s.ident := by simp [zeroised]
@[simp] theorem zeroised_answers (x : Nat) : (s.zeroised x).answers = s.answers := by simp [zeroised]
@[simp] theorem zeroised_sent (x : Nat) : (s.zeroised x).sent = s.sent := by simp [zeroised]
@[simp] theorem zeroised_free (x : Nat) : (s.zeroised x).free = s.free := by simp [zeroised]
@[simp] theorem zeroised_pending (x : Nat) : (s.zeroised x).pending = s.pending := by simp [zeroised]

/-! ## raiseEpoch -/

@[simp] theorem raiseEpoch_tim (n : Nat) : (s.raiseEpoch n).tim = s.tim := by simp [raiseEpoch]
@[simp] theorem raiseEpoch_kin (n : Nat) : (s.raiseEpoch n).kin = s.kin := by simp [raiseEpoch]
@[simp] theorem raiseEpoch_rst (n : Nat) : (s.raiseEpoch n).rst = s.rst := by simp [raiseEpoch]
@[simp] theorem raiseEpoch_pwr (n : Nat) : (s.raiseEpoch n).pwr = s.pwr := by simp [raiseEpoch]
@[simp] theorem raiseEpoch_die (n : Nat) : (s.raiseEpoch n).die = s.die := by simp [raiseEpoch]
@[simp] theorem raiseEpoch_ports (n : Nat) : (s.raiseEpoch n).ports = s.ports := by simp [raiseEpoch]
@[simp] theorem raiseEpoch_egress (n : Nat) : (s.raiseEpoch n).egress = s.egress := by simp [raiseEpoch]
@[simp] theorem raiseEpoch_fabric (n : Nat) : (s.raiseEpoch n).fabric = s.fabric := by simp [raiseEpoch]
@[simp] theorem raiseEpoch_alc (n : Nat) : (s.raiseEpoch n).alc = s.alc := by simp [raiseEpoch]
@[simp] theorem raiseEpoch_clr (n : Nat) : (s.raiseEpoch n).clr = s.clr := by simp [raiseEpoch]
@[simp] theorem raiseEpoch_mir (n : Nat) : (s.raiseEpoch n).mir = s.mir := by simp [raiseEpoch]
@[simp] theorem raiseEpoch_esc (n : Nat) : (s.raiseEpoch n).esc = s.esc := by simp [raiseEpoch]
@[simp] theorem raiseEpoch_tst (n : Nat) : (s.raiseEpoch n).tst = s.tst := by simp [raiseEpoch]
@[simp] theorem raiseEpoch_evr (n : Nat) : (s.raiseEpoch n).evr = s.evr := by simp [raiseEpoch]
@[simp] theorem raiseEpoch_tel (n : Nat) : (s.raiseEpoch n).tel = s.tel := by simp [raiseEpoch]
@[simp] theorem raiseEpoch_sec (n : Nat) : (s.raiseEpoch n).sec = s.sec := by simp [raiseEpoch]
@[simp] theorem raiseEpoch_engines (n : Nat) : (s.raiseEpoch n).engines = s.engines := by simp [raiseEpoch]
@[simp] theorem raiseEpoch_yobels (n : Nat) : (s.raiseEpoch n).yobels = s.yobels := by simp [raiseEpoch]
@[simp] theorem raiseEpoch_flues (n : Nat) : (s.raiseEpoch n).flues = s.flues := by simp [raiseEpoch]
@[simp] theorem raiseEpoch_ctl (n : Nat) : (s.raiseEpoch n).ctl = s.ctl := by simp [raiseEpoch]
@[simp] theorem raiseEpoch_ident (n : Nat) : (s.raiseEpoch n).ident = s.ident := by simp [raiseEpoch]
@[simp] theorem raiseEpoch_answers (n : Nat) : (s.raiseEpoch n).answers = s.answers := by simp [raiseEpoch]
@[simp] theorem raiseEpoch_sent (n : Nat) : (s.raiseEpoch n).sent = s.sent := by simp [raiseEpoch]
@[simp] theorem raiseEpoch_free (n : Nat) : (s.raiseEpoch n).free = s.free := by simp [raiseEpoch]
@[simp] theorem raiseEpoch_pending (n : Nat) : (s.raiseEpoch n).pending = s.pending := by simp [raiseEpoch]

/-! ## note -/

@[simp] theorem note_tim (c : Fin 16) (n : BitVec 16) (k : Nat) (h : Option AttHdr) (a : List Nat) (d : Bytes) : (s.note c n k h a d).tim = s.tim := by rfl
@[simp] theorem note_kin (c : Fin 16) (n : BitVec 16) (k : Nat) (h : Option AttHdr) (a : List Nat) (d : Bytes) : (s.note c n k h a d).kin = s.kin := by rfl
@[simp] theorem note_rst (c : Fin 16) (n : BitVec 16) (k : Nat) (h : Option AttHdr) (a : List Nat) (d : Bytes) : (s.note c n k h a d).rst = s.rst := by rfl
@[simp] theorem note_pwr (c : Fin 16) (n : BitVec 16) (k : Nat) (h : Option AttHdr) (a : List Nat) (d : Bytes) : (s.note c n k h a d).pwr = s.pwr := by rfl
@[simp] theorem note_die (c : Fin 16) (n : BitVec 16) (k : Nat) (h : Option AttHdr) (a : List Nat) (d : Bytes) : (s.note c n k h a d).die = s.die := by rfl
@[simp] theorem note_ports (c : Fin 16) (n : BitVec 16) (k : Nat) (h : Option AttHdr) (a : List Nat) (d : Bytes) : (s.note c n k h a d).ports = s.ports := by rfl
@[simp] theorem note_fabric (c : Fin 16) (n : BitVec 16) (k : Nat) (h : Option AttHdr) (a : List Nat) (d : Bytes) : (s.note c n k h a d).fabric = s.fabric := by rfl
@[simp] theorem note_alc (c : Fin 16) (n : BitVec 16) (k : Nat) (h : Option AttHdr) (a : List Nat) (d : Bytes) : (s.note c n k h a d).alc = s.alc := by rfl
@[simp] theorem note_ctxs (c : Fin 16) (n : BitVec 16) (k : Nat) (h : Option AttHdr) (a : List Nat) (d : Bytes) : (s.note c n k h a d).ctxs = s.ctxs := by rfl
@[simp] theorem note_clr (c : Fin 16) (n : BitVec 16) (k : Nat) (h : Option AttHdr) (a : List Nat) (d : Bytes) : (s.note c n k h a d).clr = s.clr := by rfl
@[simp] theorem note_mir (c : Fin 16) (n : BitVec 16) (k : Nat) (h : Option AttHdr) (a : List Nat) (d : Bytes) : (s.note c n k h a d).mir = s.mir := by rfl
@[simp] theorem note_esc (c : Fin 16) (n : BitVec 16) (k : Nat) (h : Option AttHdr) (a : List Nat) (d : Bytes) : (s.note c n k h a d).esc = s.esc := by rfl
@[simp] theorem note_tst (c : Fin 16) (n : BitVec 16) (k : Nat) (h : Option AttHdr) (a : List Nat) (d : Bytes) : (s.note c n k h a d).tst = s.tst := by rfl
@[simp] theorem note_evr (c : Fin 16) (n : BitVec 16) (k : Nat) (h : Option AttHdr) (a : List Nat) (d : Bytes) : (s.note c n k h a d).evr = s.evr := by rfl
@[simp] theorem note_tel (c : Fin 16) (n : BitVec 16) (k : Nat) (h : Option AttHdr) (a : List Nat) (d : Bytes) : (s.note c n k h a d).tel = s.tel := by rfl
@[simp] theorem note_sec (c : Fin 16) (n : BitVec 16) (k : Nat) (h : Option AttHdr) (a : List Nat) (d : Bytes) : (s.note c n k h a d).sec = s.sec := by rfl
@[simp] theorem note_engines (c : Fin 16) (n : BitVec 16) (k : Nat) (h : Option AttHdr) (a : List Nat) (d : Bytes) : (s.note c n k h a d).engines = s.engines := by rfl
@[simp] theorem note_yobels (c : Fin 16) (n : BitVec 16) (k : Nat) (h : Option AttHdr) (a : List Nat) (d : Bytes) : (s.note c n k h a d).yobels = s.yobels := by rfl
@[simp] theorem note_flues (c : Fin 16) (n : BitVec 16) (k : Nat) (h : Option AttHdr) (a : List Nat) (d : Bytes) : (s.note c n k h a d).flues = s.flues := by rfl
@[simp] theorem note_ident (c : Fin 16) (n : BitVec 16) (k : Nat) (h : Option AttHdr) (a : List Nat) (d : Bytes) : (s.note c n k h a d).ident = s.ident := by rfl
@[simp] theorem note_answers (c : Fin 16) (n : BitVec 16) (k : Nat) (h : Option AttHdr) (a : List Nat) (d : Bytes) : (s.note c n k h a d).answers = s.answers := by rfl
@[simp] theorem note_free (c : Fin 16) (n : BitVec 16) (k : Nat) (h : Option AttHdr) (a : List Nat) (d : Bytes) : (s.note c n k h a d).free = s.free := by rfl
@[simp] theorem note_pending (c : Fin 16) (n : BitVec 16) (k : Nat) (h : Option AttHdr) (a : List Nat) (d : Bytes) : (s.note c n k h a d).pending = s.pending := by rfl

/-! ## notes -/

@[simp] theorem notes_tim (c : Fin 16) (ns : List (BitVec 16)) (k : Nat) (h : Option AttHdr) (a : List Nat) (d : Bytes) : (s.notes c ns k h a d).tim = s.tim := by induction ns generalizing s with | nil => rfl | cons n r ih => exact ih (s.note c n k h a d)
@[simp] theorem notes_kin (c : Fin 16) (ns : List (BitVec 16)) (k : Nat) (h : Option AttHdr) (a : List Nat) (d : Bytes) : (s.notes c ns k h a d).kin = s.kin := by induction ns generalizing s with | nil => rfl | cons n r ih => exact ih (s.note c n k h a d)
@[simp] theorem notes_rst (c : Fin 16) (ns : List (BitVec 16)) (k : Nat) (h : Option AttHdr) (a : List Nat) (d : Bytes) : (s.notes c ns k h a d).rst = s.rst := by induction ns generalizing s with | nil => rfl | cons n r ih => exact ih (s.note c n k h a d)
@[simp] theorem notes_pwr (c : Fin 16) (ns : List (BitVec 16)) (k : Nat) (h : Option AttHdr) (a : List Nat) (d : Bytes) : (s.notes c ns k h a d).pwr = s.pwr := by induction ns generalizing s with | nil => rfl | cons n r ih => exact ih (s.note c n k h a d)
@[simp] theorem notes_die (c : Fin 16) (ns : List (BitVec 16)) (k : Nat) (h : Option AttHdr) (a : List Nat) (d : Bytes) : (s.notes c ns k h a d).die = s.die := by induction ns generalizing s with | nil => rfl | cons n r ih => exact ih (s.note c n k h a d)
@[simp] theorem notes_ports (c : Fin 16) (ns : List (BitVec 16)) (k : Nat) (h : Option AttHdr) (a : List Nat) (d : Bytes) : (s.notes c ns k h a d).ports = s.ports := by induction ns generalizing s with | nil => rfl | cons n r ih => exact ih (s.note c n k h a d)
@[simp] theorem notes_fabric (c : Fin 16) (ns : List (BitVec 16)) (k : Nat) (h : Option AttHdr) (a : List Nat) (d : Bytes) : (s.notes c ns k h a d).fabric = s.fabric := by induction ns generalizing s with | nil => rfl | cons n r ih => exact ih (s.note c n k h a d)
@[simp] theorem notes_alc (c : Fin 16) (ns : List (BitVec 16)) (k : Nat) (h : Option AttHdr) (a : List Nat) (d : Bytes) : (s.notes c ns k h a d).alc = s.alc := by induction ns generalizing s with | nil => rfl | cons n r ih => exact ih (s.note c n k h a d)
@[simp] theorem notes_ctxs (c : Fin 16) (ns : List (BitVec 16)) (k : Nat) (h : Option AttHdr) (a : List Nat) (d : Bytes) : (s.notes c ns k h a d).ctxs = s.ctxs := by induction ns generalizing s with | nil => rfl | cons n r ih => exact ih (s.note c n k h a d)
@[simp] theorem notes_clr (c : Fin 16) (ns : List (BitVec 16)) (k : Nat) (h : Option AttHdr) (a : List Nat) (d : Bytes) : (s.notes c ns k h a d).clr = s.clr := by induction ns generalizing s with | nil => rfl | cons n r ih => exact ih (s.note c n k h a d)
@[simp] theorem notes_mir (c : Fin 16) (ns : List (BitVec 16)) (k : Nat) (h : Option AttHdr) (a : List Nat) (d : Bytes) : (s.notes c ns k h a d).mir = s.mir := by induction ns generalizing s with | nil => rfl | cons n r ih => exact ih (s.note c n k h a d)
@[simp] theorem notes_esc (c : Fin 16) (ns : List (BitVec 16)) (k : Nat) (h : Option AttHdr) (a : List Nat) (d : Bytes) : (s.notes c ns k h a d).esc = s.esc := by induction ns generalizing s with | nil => rfl | cons n r ih => exact ih (s.note c n k h a d)
@[simp] theorem notes_tst (c : Fin 16) (ns : List (BitVec 16)) (k : Nat) (h : Option AttHdr) (a : List Nat) (d : Bytes) : (s.notes c ns k h a d).tst = s.tst := by induction ns generalizing s with | nil => rfl | cons n r ih => exact ih (s.note c n k h a d)
@[simp] theorem notes_evr (c : Fin 16) (ns : List (BitVec 16)) (k : Nat) (h : Option AttHdr) (a : List Nat) (d : Bytes) : (s.notes c ns k h a d).evr = s.evr := by induction ns generalizing s with | nil => rfl | cons n r ih => exact ih (s.note c n k h a d)
@[simp] theorem notes_tel (c : Fin 16) (ns : List (BitVec 16)) (k : Nat) (h : Option AttHdr) (a : List Nat) (d : Bytes) : (s.notes c ns k h a d).tel = s.tel := by induction ns generalizing s with | nil => rfl | cons n r ih => exact ih (s.note c n k h a d)
@[simp] theorem notes_sec (c : Fin 16) (ns : List (BitVec 16)) (k : Nat) (h : Option AttHdr) (a : List Nat) (d : Bytes) : (s.notes c ns k h a d).sec = s.sec := by induction ns generalizing s with | nil => rfl | cons n r ih => exact ih (s.note c n k h a d)
@[simp] theorem notes_engines (c : Fin 16) (ns : List (BitVec 16)) (k : Nat) (h : Option AttHdr) (a : List Nat) (d : Bytes) : (s.notes c ns k h a d).engines = s.engines := by induction ns generalizing s with | nil => rfl | cons n r ih => exact ih (s.note c n k h a d)
@[simp] theorem notes_yobels (c : Fin 16) (ns : List (BitVec 16)) (k : Nat) (h : Option AttHdr) (a : List Nat) (d : Bytes) : (s.notes c ns k h a d).yobels = s.yobels := by induction ns generalizing s with | nil => rfl | cons n r ih => exact ih (s.note c n k h a d)
@[simp] theorem notes_flues (c : Fin 16) (ns : List (BitVec 16)) (k : Nat) (h : Option AttHdr) (a : List Nat) (d : Bytes) : (s.notes c ns k h a d).flues = s.flues := by induction ns generalizing s with | nil => rfl | cons n r ih => exact ih (s.note c n k h a d)
@[simp] theorem notes_ident (c : Fin 16) (ns : List (BitVec 16)) (k : Nat) (h : Option AttHdr) (a : List Nat) (d : Bytes) : (s.notes c ns k h a d).ident = s.ident := by induction ns generalizing s with | nil => rfl | cons n r ih => exact ih (s.note c n k h a d)
@[simp] theorem notes_answers (c : Fin 16) (ns : List (BitVec 16)) (k : Nat) (h : Option AttHdr) (a : List Nat) (d : Bytes) : (s.notes c ns k h a d).answers = s.answers := by induction ns generalizing s with | nil => rfl | cons n r ih => exact ih (s.note c n k h a d)
@[simp] theorem notes_free (c : Fin 16) (ns : List (BitVec 16)) (k : Nat) (h : Option AttHdr) (a : List Nat) (d : Bytes) : (s.notes c ns k h a d).free = s.free := by induction ns generalizing s with | nil => rfl | cons n r ih => exact ih (s.note c n k h a d)
@[simp] theorem notes_pending (c : Fin 16) (ns : List (BitVec 16)) (k : Nat) (h : Option AttHdr) (a : List Nat) (d : Bytes) : (s.notes c ns k h a d).pending = s.pending := by induction ns generalizing s with | nil => rfl | cons n r ih => exact ih (s.note c n k h a d)

/-! ## yobelWr -/

@[simp] theorem yobelWr_tim (k : Fin 9) (a : Nat) (d : Bytes) (h : Option AttHdr) : (s.yobelWr k a d h).tim = s.tim := by rfl
@[simp] theorem yobelWr_kin (k : Fin 9) (a : Nat) (d : Bytes) (h : Option AttHdr) : (s.yobelWr k a d h).kin = s.kin := by rfl
@[simp] theorem yobelWr_rst (k : Fin 9) (a : Nat) (d : Bytes) (h : Option AttHdr) : (s.yobelWr k a d h).rst = s.rst := by rfl
@[simp] theorem yobelWr_pwr (k : Fin 9) (a : Nat) (d : Bytes) (h : Option AttHdr) : (s.yobelWr k a d h).pwr = s.pwr := by rfl
@[simp] theorem yobelWr_die (k : Fin 9) (a : Nat) (d : Bytes) (h : Option AttHdr) : (s.yobelWr k a d h).die = s.die := by rfl
@[simp] theorem yobelWr_ports (k : Fin 9) (a : Nat) (d : Bytes) (h : Option AttHdr) : (s.yobelWr k a d h).ports = s.ports := by rfl
@[simp] theorem yobelWr_fabric (k : Fin 9) (a : Nat) (d : Bytes) (h : Option AttHdr) : (s.yobelWr k a d h).fabric = s.fabric := by rfl
@[simp] theorem yobelWr_alc (k : Fin 9) (a : Nat) (d : Bytes) (h : Option AttHdr) : (s.yobelWr k a d h).alc = s.alc := by rfl
@[simp] theorem yobelWr_ctxs (k : Fin 9) (a : Nat) (d : Bytes) (h : Option AttHdr) : (s.yobelWr k a d h).ctxs = s.ctxs := by rfl
@[simp] theorem yobelWr_clr (k : Fin 9) (a : Nat) (d : Bytes) (h : Option AttHdr) : (s.yobelWr k a d h).clr = s.clr := by rfl
@[simp] theorem yobelWr_mir (k : Fin 9) (a : Nat) (d : Bytes) (h : Option AttHdr) : (s.yobelWr k a d h).mir = s.mir := by rfl
@[simp] theorem yobelWr_esc (k : Fin 9) (a : Nat) (d : Bytes) (h : Option AttHdr) : (s.yobelWr k a d h).esc = s.esc := by rfl
@[simp] theorem yobelWr_tst (k : Fin 9) (a : Nat) (d : Bytes) (h : Option AttHdr) : (s.yobelWr k a d h).tst = s.tst := by rfl
@[simp] theorem yobelWr_evr (k : Fin 9) (a : Nat) (d : Bytes) (h : Option AttHdr) : (s.yobelWr k a d h).evr = s.evr := by rfl
@[simp] theorem yobelWr_tel (k : Fin 9) (a : Nat) (d : Bytes) (h : Option AttHdr) : (s.yobelWr k a d h).tel = s.tel := by rfl
@[simp] theorem yobelWr_sec (k : Fin 9) (a : Nat) (d : Bytes) (h : Option AttHdr) : (s.yobelWr k a d h).sec = s.sec := by rfl
@[simp] theorem yobelWr_engines (k : Fin 9) (a : Nat) (d : Bytes) (h : Option AttHdr) : (s.yobelWr k a d h).engines = s.engines := by rfl
@[simp] theorem yobelWr_yobels (k : Fin 9) (a : Nat) (d : Bytes) (h : Option AttHdr) : (s.yobelWr k a d h).yobels = s.yobels := by rfl
@[simp] theorem yobelWr_flues (k : Fin 9) (a : Nat) (d : Bytes) (h : Option AttHdr) : (s.yobelWr k a d h).flues = s.flues := by rfl
@[simp] theorem yobelWr_ident (k : Fin 9) (a : Nat) (d : Bytes) (h : Option AttHdr) : (s.yobelWr k a d h).ident = s.ident := by rfl
@[simp] theorem yobelWr_answers (k : Fin 9) (a : Nat) (d : Bytes) (h : Option AttHdr) : (s.yobelWr k a d h).answers = s.answers := by rfl
@[simp] theorem yobelWr_free (k : Fin 9) (a : Nat) (d : Bytes) (h : Option AttHdr) : (s.yobelWr k a d h).free = s.free := by rfl
@[simp] theorem yobelWr_pending (k : Fin 9) (a : Nat) (d : Bytes) (h : Option AttHdr) : (s.yobelWr k a d h).pending = s.pending := by rfl

/-! ## sourceDrop -/

@[simp] theorem sourceDrop_tim (p : Nat) : (s.sourceDrop p).tim = s.tim := by simp [sourceDrop]
@[simp] theorem sourceDrop_kin (p : Nat) : (s.sourceDrop p).kin = s.kin := by simp [sourceDrop]
@[simp] theorem sourceDrop_rst (p : Nat) : (s.sourceDrop p).rst = s.rst := by simp [sourceDrop]
@[simp] theorem sourceDrop_pwr (p : Nat) : (s.sourceDrop p).pwr = s.pwr := by simp [sourceDrop]
@[simp] theorem sourceDrop_die (p : Nat) : (s.sourceDrop p).die = s.die := by simp [sourceDrop]
@[simp] theorem sourceDrop_ports (p : Nat) : (s.sourceDrop p).ports = s.ports := by simp [sourceDrop]
@[simp] theorem sourceDrop_egress (p : Nat) : (s.sourceDrop p).egress = s.egress := by simp [sourceDrop]
@[simp] theorem sourceDrop_fabric (p : Nat) : (s.sourceDrop p).fabric = s.fabric := by simp [sourceDrop]
@[simp] theorem sourceDrop_alc (p : Nat) : (s.sourceDrop p).alc = s.alc := by simp [sourceDrop]
@[simp] theorem sourceDrop_ctxs (p : Nat) : (s.sourceDrop p).ctxs = s.ctxs := by simp [sourceDrop]
@[simp] theorem sourceDrop_clr (p : Nat) : (s.sourceDrop p).clr = s.clr := by simp [sourceDrop]
@[simp] theorem sourceDrop_mir (p : Nat) : (s.sourceDrop p).mir = s.mir := by simp [sourceDrop]
@[simp] theorem sourceDrop_esc (p : Nat) : (s.sourceDrop p).esc = s.esc := by simp [sourceDrop]
@[simp] theorem sourceDrop_tst (p : Nat) : (s.sourceDrop p).tst = s.tst := by simp [sourceDrop]
@[simp] theorem sourceDrop_tel (p : Nat) : (s.sourceDrop p).tel = s.tel := by simp [sourceDrop]
@[simp] theorem sourceDrop_engines (p : Nat) : (s.sourceDrop p).engines = s.engines := by simp [sourceDrop]
@[simp] theorem sourceDrop_yobels (p : Nat) : (s.sourceDrop p).yobels = s.yobels := by simp [sourceDrop]
@[simp] theorem sourceDrop_flues (p : Nat) : (s.sourceDrop p).flues = s.flues := by simp [sourceDrop]
@[simp] theorem sourceDrop_ctl (p : Nat) : (s.sourceDrop p).ctl = s.ctl := by simp [sourceDrop]
@[simp] theorem sourceDrop_ident (p : Nat) : (s.sourceDrop p).ident = s.ident := by simp [sourceDrop]
@[simp] theorem sourceDrop_answers (p : Nat) : (s.sourceDrop p).answers = s.answers := by simp [sourceDrop]
@[simp] theorem sourceDrop_sent (p : Nat) : (s.sourceDrop p).sent = s.sent := by simp [sourceDrop]
@[simp] theorem sourceDrop_free (p : Nat) : (s.sourceDrop p).free = s.free := by simp [sourceDrop]
@[simp] theorem sourceDrop_pending (p : Nat) : (s.sourceDrop p).pending = s.pending := by simp [sourceDrop]

/-! ## railsOff -/

@[simp] theorem railsOff_tim : (s.railsOff).tim = s.tim := by rfl
@[simp] theorem railsOff_kin : (s.railsOff).kin = s.kin := by rfl
@[simp] theorem railsOff_rst : (s.railsOff).rst = s.rst := by rfl
@[simp] theorem railsOff_die : (s.railsOff).die = s.die := by rfl
@[simp] theorem railsOff_ports : (s.railsOff).ports = s.ports := by rfl
@[simp] theorem railsOff_egress : (s.railsOff).egress = s.egress := by rfl
@[simp] theorem railsOff_fabric : (s.railsOff).fabric = s.fabric := by rfl
@[simp] theorem railsOff_alc : (s.railsOff).alc = s.alc := by rfl
@[simp] theorem railsOff_ctxs : (s.railsOff).ctxs = s.ctxs := by rfl
@[simp] theorem railsOff_clr : (s.railsOff).clr = s.clr := by rfl
@[simp] theorem railsOff_mir : (s.railsOff).mir = s.mir := by rfl
@[simp] theorem railsOff_esc : (s.railsOff).esc = s.esc := by rfl
@[simp] theorem railsOff_tst : (s.railsOff).tst = s.tst := by rfl
@[simp] theorem railsOff_evr : (s.railsOff).evr = s.evr := by rfl
@[simp] theorem railsOff_tel : (s.railsOff).tel = s.tel := by rfl
@[simp] theorem railsOff_sec : (s.railsOff).sec = s.sec := by rfl
@[simp] theorem railsOff_engines : (s.railsOff).engines = s.engines := by rfl
@[simp] theorem railsOff_yobels : (s.railsOff).yobels = s.yobels := by rfl
@[simp] theorem railsOff_flues : (s.railsOff).flues = s.flues := by rfl
@[simp] theorem railsOff_ctl : (s.railsOff).ctl = s.ctl := by rfl
@[simp] theorem railsOff_ident : (s.railsOff).ident = s.ident := by rfl
@[simp] theorem railsOff_answers : (s.railsOff).answers = s.answers := by rfl
@[simp] theorem railsOff_sent : (s.railsOff).sent = s.sent := by rfl
@[simp] theorem railsOff_free : (s.railsOff).free = s.free := by rfl
@[simp] theorem railsOff_pending : (s.railsOff).pending = s.pending := by rfl

/-! ## recoveryFailed -/

@[simp] theorem recoveryFailed_tim : (s.recoveryFailed).tim = s.tim := by simp only [recoveryFailed]; split <;> split <;> simp
@[simp] theorem recoveryFailed_pwr : (s.recoveryFailed).pwr = s.pwr := by simp only [recoveryFailed]; split <;> split <;> simp
@[simp] theorem recoveryFailed_die : (s.recoveryFailed).die = s.die := by simp only [recoveryFailed]; split <;> split <;> simp
@[simp] theorem recoveryFailed_ports : (s.recoveryFailed).ports = s.ports := by simp only [recoveryFailed]; split <;> split <;> simp
@[simp] theorem recoveryFailed_egress : (s.recoveryFailed).egress = s.egress := by simp only [recoveryFailed]; split <;> split <;> simp
@[simp] theorem recoveryFailed_fabric : (s.recoveryFailed).fabric = s.fabric := by simp only [recoveryFailed]; split <;> split <;> simp
@[simp] theorem recoveryFailed_alc : (s.recoveryFailed).alc = s.alc := by simp only [recoveryFailed]; split <;> split <;> simp
@[simp] theorem recoveryFailed_ctxs : (s.recoveryFailed).ctxs = s.ctxs := by simp only [recoveryFailed]; split <;> split <;> simp
@[simp] theorem recoveryFailed_clr : (s.recoveryFailed).clr = s.clr := by simp only [recoveryFailed]; split <;> split <;> simp
@[simp] theorem recoveryFailed_mir : (s.recoveryFailed).mir = s.mir := by simp only [recoveryFailed]; split <;> split <;> simp
@[simp] theorem recoveryFailed_esc : (s.recoveryFailed).esc = s.esc := by simp only [recoveryFailed]; split <;> split <;> simp
@[simp] theorem recoveryFailed_tst : (s.recoveryFailed).tst = s.tst := by simp only [recoveryFailed]; split <;> split <;> simp
@[simp] theorem recoveryFailed_tel : (s.recoveryFailed).tel = s.tel := by simp only [recoveryFailed]; split <;> split <;> simp
@[simp] theorem recoveryFailed_sec : (s.recoveryFailed).sec = s.sec := by simp only [recoveryFailed]; split <;> split <;> simp
@[simp] theorem recoveryFailed_engines : (s.recoveryFailed).engines = s.engines := by simp only [recoveryFailed]; split <;> split <;> simp
@[simp] theorem recoveryFailed_yobels : (s.recoveryFailed).yobels = s.yobels := by simp only [recoveryFailed]; split <;> split <;> simp
@[simp] theorem recoveryFailed_flues : (s.recoveryFailed).flues = s.flues := by simp only [recoveryFailed]; split <;> split <;> simp
@[simp] theorem recoveryFailed_ctl : (s.recoveryFailed).ctl = s.ctl := by simp only [recoveryFailed]; split <;> split <;> simp
@[simp] theorem recoveryFailed_ident : (s.recoveryFailed).ident = s.ident := by simp only [recoveryFailed]; split <;> split <;> simp
@[simp] theorem recoveryFailed_answers : (s.recoveryFailed).answers = s.answers := by simp only [recoveryFailed]; split <;> split <;> simp
@[simp] theorem recoveryFailed_sent : (s.recoveryFailed).sent = s.sent := by simp only [recoveryFailed]; split <;> split <;> simp
@[simp] theorem recoveryFailed_free : (s.recoveryFailed).free = s.free := by simp only [recoveryFailed]; split <;> split <;> simp
@[simp] theorem recoveryFailed_pending : (s.recoveryFailed).pending = s.pending := by simp only [recoveryFailed]; split <;> split <;> simp

/-! ## kindleFail -/

@[simp] theorem kindleFail_tim (r : Nat) : (s.kindleFail r).tim = s.tim := by simp only [kindleFail]; (repeat' split) <;> simp
@[simp] theorem kindleFail_die (r : Nat) : (s.kindleFail r).die = s.die := by simp only [kindleFail]; (repeat' split) <;> simp
@[simp] theorem kindleFail_fabric (r : Nat) : (s.kindleFail r).fabric = s.fabric := by simp only [kindleFail]; (repeat' split) <;> simp
@[simp] theorem kindleFail_alc (r : Nat) : (s.kindleFail r).alc = s.alc := by simp only [kindleFail]; (repeat' split) <;> simp
@[simp] theorem kindleFail_ctxs (r : Nat) : (s.kindleFail r).ctxs = s.ctxs := by simp only [kindleFail]; (repeat' split) <;> simp
@[simp] theorem kindleFail_clr (r : Nat) : (s.kindleFail r).clr = s.clr := by simp only [kindleFail]; (repeat' split) <;> simp
@[simp] theorem kindleFail_mir (r : Nat) : (s.kindleFail r).mir = s.mir := by simp only [kindleFail]; (repeat' split) <;> simp
@[simp] theorem kindleFail_esc (r : Nat) : (s.kindleFail r).esc = s.esc := by simp only [kindleFail]; (repeat' split) <;> simp
@[simp] theorem kindleFail_tst (r : Nat) : (s.kindleFail r).tst = s.tst := by simp only [kindleFail]; (repeat' split) <;> simp
@[simp] theorem kindleFail_tel (r : Nat) : (s.kindleFail r).tel = s.tel := by simp only [kindleFail]; (repeat' split) <;> simp
@[simp] theorem kindleFail_sec (r : Nat) : (s.kindleFail r).sec = s.sec := by simp only [kindleFail]; (repeat' split) <;> simp
@[simp] theorem kindleFail_engines (r : Nat) : (s.kindleFail r).engines = s.engines := by simp only [kindleFail]; (repeat' split) <;> simp
@[simp] theorem kindleFail_yobels (r : Nat) : (s.kindleFail r).yobels = s.yobels := by simp only [kindleFail]; (repeat' split) <;> simp
@[simp] theorem kindleFail_flues (r : Nat) : (s.kindleFail r).flues = s.flues := by simp only [kindleFail]; (repeat' split) <;> simp
@[simp] theorem kindleFail_ctl (r : Nat) : (s.kindleFail r).ctl = s.ctl := by simp only [kindleFail]; (repeat' split) <;> simp
@[simp] theorem kindleFail_ident (r : Nat) : (s.kindleFail r).ident = s.ident := by simp only [kindleFail]; (repeat' split) <;> simp
@[simp] theorem kindleFail_answers (r : Nat) : (s.kindleFail r).answers = s.answers := by simp only [kindleFail]; (repeat' split) <;> simp
@[simp] theorem kindleFail_sent (r : Nat) : (s.kindleFail r).sent = s.sent := by simp only [kindleFail]; (repeat' split) <;> simp
@[simp] theorem kindleFail_free (r : Nat) : (s.kindleFail r).free = s.free := by simp only [kindleFail]; (repeat' split) <;> simp
@[simp] theorem kindleFail_pending (r : Nat) : (s.kindleFail r).pending = s.pending := by simp only [kindleFail]; (repeat' split) <;> simp

/-! ## kindle -/

@[simp] theorem kindle_yobels (k c : Nat) : (s.kindle k c).yobels = s.yobels := by by_cases h1 : k = 1 <;> by_cases h4 : k = 4 <;> simp [kindle, h1, h4]
@[simp] theorem kindle_flues (k c : Nat) : (s.kindle k c).flues = s.flues := by by_cases h1 : k = 1 <;> by_cases h4 : k = 4 <;> simp [kindle, h1, h4]
@[simp] theorem kindle_ident (k c : Nat) : (s.kindle k c).ident = s.ident := by by_cases h1 : k = 1 <;> by_cases h4 : k = 4 <;> simp [kindle, h1, h4]
@[simp] theorem kindle_answers (k c : Nat) : (s.kindle k c).answers = s.answers := by by_cases h1 : k = 1 <;> by_cases h4 : k = 4 <;> simp [kindle, h1, h4]
@[simp] theorem kindle_sent (k c : Nat) : (s.kindle k c).sent = s.sent := by by_cases h1 : k = 1 <;> by_cases h4 : k = 4 <;> simp [kindle, h1, h4]
@[simp] theorem kindle_free (k c : Nat) : (s.kindle k c).free = s.free := by by_cases h1 : k = 1 <;> by_cases h4 : k = 4 <;> simp [kindle, h1, h4]
@[simp] theorem kindle_pending (k c : Nat) : (s.kindle k c).pending = s.pending := by by_cases h1 : k = 1 <;> by_cases h4 : k = 4 <;> simp [kindle, h1, h4]

/-! ## storeSignature -/

@[simp] theorem storeSignature_tim (c i k : Nat) : (s.storeSignature c i k).tim = s.tim := by simp only [storeSignature]; split <;> simp
@[simp] theorem storeSignature_kin (c i k : Nat) : (s.storeSignature c i k).kin = s.kin := by simp only [storeSignature]; split <;> simp
@[simp] theorem storeSignature_rst (c i k : Nat) : (s.storeSignature c i k).rst = s.rst := by simp only [storeSignature]; split <;> simp
@[simp] theorem storeSignature_pwr (c i k : Nat) : (s.storeSignature c i k).pwr = s.pwr := by simp only [storeSignature]; split <;> simp
@[simp] theorem storeSignature_die (c i k : Nat) : (s.storeSignature c i k).die = s.die := by simp only [storeSignature]; split <;> simp
@[simp] theorem storeSignature_ports (c i k : Nat) : (s.storeSignature c i k).ports = s.ports := by simp only [storeSignature]; split <;> simp
@[simp] theorem storeSignature_egress (c i k : Nat) : (s.storeSignature c i k).egress = s.egress := by simp only [storeSignature]; split <;> simp
@[simp] theorem storeSignature_fabric (c i k : Nat) : (s.storeSignature c i k).fabric = s.fabric := by simp only [storeSignature]; split <;> simp
@[simp] theorem storeSignature_alc (c i k : Nat) : (s.storeSignature c i k).alc = s.alc := by simp only [storeSignature]; split <;> simp
@[simp] theorem storeSignature_ctxs (c i k : Nat) : (s.storeSignature c i k).ctxs = s.ctxs := by simp only [storeSignature]; split <;> simp
@[simp] theorem storeSignature_clr (c i k : Nat) : (s.storeSignature c i k).clr = s.clr := by simp only [storeSignature]; split <;> simp
@[simp] theorem storeSignature_mir (c i k : Nat) : (s.storeSignature c i k).mir = s.mir := by simp only [storeSignature]; split <;> simp
@[simp] theorem storeSignature_esc (c i k : Nat) : (s.storeSignature c i k).esc = s.esc := by simp only [storeSignature]; split <;> simp
@[simp] theorem storeSignature_tel (c i k : Nat) : (s.storeSignature c i k).tel = s.tel := by simp only [storeSignature]; split <;> simp
@[simp] theorem storeSignature_sec (c i k : Nat) : (s.storeSignature c i k).sec = s.sec := by simp only [storeSignature]; split <;> simp
@[simp] theorem storeSignature_engines (c i k : Nat) : (s.storeSignature c i k).engines = s.engines := by simp only [storeSignature]; split <;> simp
@[simp] theorem storeSignature_yobels (c i k : Nat) : (s.storeSignature c i k).yobels = s.yobels := by simp only [storeSignature]; split <;> simp
@[simp] theorem storeSignature_flues (c i k : Nat) : (s.storeSignature c i k).flues = s.flues := by simp only [storeSignature]; split <;> simp
@[simp] theorem storeSignature_ctl (c i k : Nat) : (s.storeSignature c i k).ctl = s.ctl := by simp only [storeSignature]; split <;> simp
@[simp] theorem storeSignature_ident (c i k : Nat) : (s.storeSignature c i k).ident = s.ident := by simp only [storeSignature]; split <;> simp
@[simp] theorem storeSignature_answers (c i k : Nat) : (s.storeSignature c i k).answers = s.answers := by simp only [storeSignature]; split <;> simp
@[simp] theorem storeSignature_sent (c i k : Nat) : (s.storeSignature c i k).sent = s.sent := by simp only [storeSignature]; split <;> simp
@[simp] theorem storeSignature_pending (c i k : Nat) : (s.storeSignature c i k).pending = s.pending := by simp only [storeSignature]; split <;> simp

/-! ## Values -/

theorem setOos_rst (c : Nat) : (s.setOos c).rst = { s.rst with oos := true, oosCause := BitVec.ofNat 8 c } := by simp [setOos]

theorem railsOff_pwr : s.railsOff.pwr = { s.pwr with
    enSerdes := false, goingOff := s.pwr.enHbm || s.pwr.enSram || s.pwr.enCore || s.pwr.pgSerdes } := rfl

theorem recoveryFailed_kin : s.recoveryFailed.kin = { s.kin with recovFails := s.kin.recovFails ++ [s.now] } := by
  simp only [recoveryFailed]
  split <;> split <;> simp

/-- A kindling that fails: the rails' off order begins with SerDes. -/
@[simp] theorem kindleFail_pwr (r : Nat) : (s.kindleFail r).pwr = s.railsOff.pwr := by
  simp only [kindleFail]
  (repeat' split) <;> simp [railsOff_pwr]

/-- A kindling that fails: REASON, FAILS, and ember mode at the third failure (R364). -/
theorem kindleFail_kin (r : Nat) : (s.kindleFail r).kin.reason = BitVec.ofNat 8 r ∧
    (s.kindleFail r).kin.fails = satInc s.kin.fails ∧
    (s.kindleFail r).kin.power = (if 3 ≤ (satInc s.kin.fails).toNat then .ember else .retryWait) ∧
    (s.kindleFail r).kin.stage = (if 3 ≤ (satInc s.kin.fails).toNat then 8 else s.kin.stage) := by
  simp only [kindleFail]
  (repeat' split) <;> simp_all [recoveryFailed_kin]

/-- Every kindling entry (R354). -/
theorem kindle_enteredFrom (k c : Nat) : (s.kindle k c).enteredFrom s k := by
  by_cases h1 : k = 1 <;> by_cases h4 : k = 4 <;> simp [kindle, enteredFrom, h1, h4]

/-- The time base starts from 0 at KIND 1 and is kept at the others (R308, R354). -/
theorem kindle_raw (k c : Nat) : (s.kindle k c).tim.raw = if k = 1 then 0 else s.tim.raw := by
  by_cases h1 : k = 1 <;> by_cases h4 : k = 4 <;> simp [kindle, h1, h4]
theorem kindle_acc (k c : Nat) : (s.kindle k c).tim.acc = if k = 1 then 0 else s.tim.acc := by
  by_cases h1 : k = 1 <;> by_cases h4 : k = 4 <;> simp [kindle, h1, h4]
theorem kindle_pgPilot (k c : Nat) : (s.kindle k c).pwr.pgPilot = s.pwr.pgPilot := by
  by_cases h1 : k = 1 <;> by_cases h4 : k = 4 <;> simp [kindle, h1, h4]

end Sys2Proof.Machine.State
end

