-- ==== Sys2Proof/Laws/Engine.lean ====
section
/-!
SUPPORT. Sys2Proof/Laws/Engine.lean: what an instruction command does when its instruction stands at the pc, what a vector
result leaves in the register it is written to, and the fields of joined words.
-/

namespace Sys2Proof.Machine

/-! ## Fields of joined words -/

theorem extract_high {n m : Nat} (x : BitVec n) (y : BitVec m) {lo k : Nat} (h : m ≤ lo) :
    (x ++ y).extractLsb' lo k = x.extractLsb' (lo - m) k := by
  apply BitVec.eq_of_getLsbD_eq
  intro i hi
  have h' : ¬ lo + i < m := by omega
  have e : lo + i - m = lo - m + i := by omega
  simp [BitVec.getLsbD_append, h', hi, e]

theorem extract_low {n m : Nat} (x : BitVec n) (y : BitVec m) {lo k : Nat} (h : lo + k ≤ m) :
    (x ++ y).extractLsb' lo k = y.extractLsb' lo k := by
  apply BitVec.eq_of_getLsbD_eq
  intro i hi
  have h' : lo + i < m := by omega
  simp [BitVec.getLsbD_append, h', hi]

theorem extract_all {n : Nat} (x : BitVec n) : x.extractLsb' 0 n = x := by
  apply BitVec.eq_of_getLsbD_eq
  intro i hi
  simp [hi]

theorem bit_eq_extract {n : Nat} (x : BitVec n) (i : Nat) : x.getLsbD i = (x.extractLsb' i 1).getLsbD 0 := by simp

/-! ## An instruction at the pc -/

theorem State.standsAt_iff (s : State) (h : Fin 77) (w : Word) : s.standsAt h w = true ↔
    (s.engine h).running = true ∧ (s.engine h).awaits.any (s.heldPage (s.engine h)) = false ∧
    (s.engine h).fetch = some w ∧ (s.engine h).icount < (s.engine h).hdr.insnLimit := by
  simp only [State.standsAt, State.goesOn, Bool.and_eq_true, Bool.not_eq_true', decide_eq_true_eq, and_assoc]

/-- The pages held do not depend on the answers of the command before. -/
theorem State.begin_heldPage (s : State) (e : Engine) : s.begin.heldPage e = s.heldPage e := rfl

/-- Where no repair is awaited, an instruction inside an instance is executed (R153). -/
theorem Engine.guarded_ok {held : Nat → Bool} {e e' : Engine} {x : EStep} {c : Nat} (ha : e.awaits.any held = false)
    (hl : e.icount < e.hdr.insnLimit) (hx : x e = .ok e') :
    e.guarded held x none c = { e' with icount := e.icount + 1 } := by
  simp [Engine.guarded, Engine.endsWith, Engine.execute, Except.toBool, ha, hx, Nat.not_le.mpr hl]

/-- An instance that no held page disturbs ends by its fault (R153, R169). -/
theorem Engine.guarded_error {held : Nat → Bool} {e : Engine} {x : EStep} {f : EFault} {c : Nat}
    (ha : e.awaits.any held = false) (hd : e.disturbed held = false) (hl : e.icount < e.hdr.insnLimit) (hx : x e = .error f) :
    e.guarded held x none c = e.fail f c := by
  simp [Engine.guarded, Engine.execute, ha, hd, hx, Nat.not_le.mpr hl]

/-- An instruction that completes retires: its effect on the engine, and one more instruction counted. -/
theorem State.insn_ok {s : State} {h : Fin 77} {w : Word} {x : EStep} {e : Engine} (hs : s.standsAt h w = true)
    (hx : x (s.engine h) = .ok e) : s.insn h w x = s.retired h e := by
  obtain ⟨hr, ha, hf, hl⟩ := (s.standsAt_iff h w).mp hs
  simp [State.insn, State.retired, hr, hf, s.begin_heldPage, Engine.guarded_ok ha hl hx]

/-- An instruction that faults ends its instance (R153). -/
theorem State.insn_error {s : State} {h : Fin 77} {w : Word} {x : EStep} {f : EFault} (hs : s.standsAt h w = true)
    (hd : s.undisturbed h = true) (hx : x (s.engine h) = .error f) :
    s.insn h w x = s.begin.setEngine h ((s.engine h).fail f 0) := by
  obtain ⟨hr, ha, hf, hl⟩ := (s.standsAt_iff h w).mp hs
  have hd' : (s.engine h).disturbed (s.heldPage (s.engine h)) = false := by simpa [State.undisturbed] using hd
  simp [State.insn, hr, hf, s.begin_heldPage, Engine.guarded_error ha hd' hl hx]

/-! ## Elements of registers -/

theorem packElems_lt (w : Nat) (l : List Nat) : packElems w l < 2 ^ (l.length * w) := by
  induction l with
  | nil => simp [packElems]
  | cons x r ih =>
    have h1 : x % 2 ^ w < 2 ^ w := Nat.mod_lt _ (Nat.two_pow_pos w)
    have h2 : 2 ^ w * packElems w r + 2 ^ w ≤ 2 ^ w * 2 ^ (r.length * w) := by
      have := Nat.mul_le_mul_left (2 ^ w) ih
      rw [Nat.succ_eq_add_one, Nat.mul_add] at this
      omega
    have h3 : (r.length + 1) * w = w + r.length * w := by rw [Nat.add_mul]; omega
    simp only [packElems, List.length_cons, h3, Nat.pow_add]
    omega

theorem elemAt_packElems (w : Nat) (l : List Nat) (i : Nat) (h : i < l.length) : elemAt w (packElems w l) i = l[i] % 2 ^ w := by
  induction l generalizing i with
  | nil => simp at h
  | cons x r ih =>
    have h1 : x % 2 ^ w < 2 ^ w := Nat.mod_lt _ (Nat.two_pow_pos w)
    cases i with
    | zero => simp [elemAt, packElems, Nat.add_mul_mod_self_left]
    | succ i =>
      have e : w * (i + 1) = w + w * i := by rw [Nat.mul_add]; omega
      have d : packElems w (x :: r) / 2 ^ w = packElems w r := by
        simp only [packElems]
        rw [Nat.add_mul_div_left _ _ (Nat.two_pow_pos w), Nat.div_eq_of_lt h1]
        omega
      have := ih i (by simpa using h)
      simp only [elemAt, Nat.shiftRight_eq_div_pow, e, Nat.pow_add, ← Nat.div_div_eq_div_mul, d] at this ⊢
      simpa using this

/-- A register written from element 0: the elements written, and those beyond them as before. -/
theorem elemAt_putElems (total w : Nat) (old : BitVec total) (l : List Nat) (i : Nat) (hl : l.length * w ≤ total) :
    elemAt w (putElems total w old l).toNat i = if h : i < l.length then l[i] % 2 ^ w else elemAt w old.toNat i := by
  have hp := packElems_lt w l
  have hs : (old.toNat >>> (l.length * w)) <<< (l.length * w) + packElems w l < 2 ^ total := by
    have h0 := old.isLt
    obtain ⟨k, hk⟩ : ∃ k, total = l.length * w + k := ⟨total - l.length * w, by omega⟩
    rw [Nat.shiftRight_eq_div_pow, Nat.shiftLeft_eq, Nat.mul_comm]
    have h1 : old.toNat / 2 ^ (l.length * w) < 2 ^ k := by
      apply Nat.div_lt_of_lt_mul
      rw [← Nat.pow_add, ← hk]; exact h0
    have h2 := Nat.mul_le_mul_left (2 ^ (l.length * w)) h1
    rw [Nat.succ_eq_add_one, Nat.mul_add, ← Nat.pow_add, ← hk] at h2
    omega
  have hv : (putElems total w old l).toNat = 2 ^ (l.length * w) * (old.toNat / 2 ^ (l.length * w)) + packElems w l := by
    simp only [putElems, BitVec.toNat_ofNat]
    rw [Nat.mod_eq_of_lt hs, Nat.shiftRight_eq_div_pow, Nat.shiftLeft_eq, Nat.mul_comm]
  rw [hv]
  split
  · next h =>
    rw [← elemAt_packElems w l i h]
    obtain ⟨k, hk⟩ : ∃ k, l.length * w = w * i + w + k := by
      refine ⟨l.length * w - (w * i + w), ?_⟩
      have : (i + 1) * w ≤ l.length * w := Nat.mul_le_mul_right w h
      rw [Nat.add_mul, Nat.mul_comm i w] at this
      omega
    simp only [elemAt, Nat.shiftRight_eq_div_pow, hk, Nat.pow_add]
    rw [show 2 ^ (w * i) * 2 ^ w * 2 ^ k * (old.toNat / (2 ^ (w * i) * 2 ^ w * 2 ^ k)) + packElems w l =
      packElems w l + 2 ^ (w * i) * (2 ^ w * (2 ^ k * (old.toNat / (2 ^ (w * i) * 2 ^ w * 2 ^ k)))) by
        simp [Nat.mul_assoc, Nat.add_comm]]
    rw [Nat.add_mul_div_left _ _ (Nat.two_pow_pos _), Nat.add_mul_mod_self_left]
  · next h =>
    have hle : l.length * w ≤ w * i := by
      have := Nat.mul_le_mul_right w (Nat.le_of_not_lt h)
      rwa [Nat.mul_comm i w] at this
    obtain ⟨k, hk⟩ : ∃ k, w * i = l.length * w + k := ⟨w * i - l.length * w, by omega⟩
    simp only [elemAt, Nat.shiftRight_eq_div_pow, hk, Nat.pow_add, ← Nat.div_div_eq_div_mul]
    rw [Nat.add_comm, Nat.add_mul_div_left _ _ (Nat.two_pow_pos _), Nat.div_eq_of_lt hp, Nat.zero_add]

theorem elems_length (w x n : Nat) : (elems w x n).length = n := by
  induction n generalizing x with
  | zero => rfl
  | succ n ih => simp [elems, ih]

theorem elems_getElem (w x n i : Nat) (h : i < (elems w x n).length) : (elems w x n)[i] = elemAt w x i := by
  induction n generalizing x i with
  | zero => simp [elems] at h
  | succ n ih =>
    cases i with
    | zero => simp [elems, elemAt]
    | succ i =>
      have := ih (x >>> w) i (by simpa [elems] using h)
      simp only [elems, List.getElem_cons_succ, this, elemAt, ← Nat.shiftRight_add]
      rw [show w + w * i = w * (i + 1) by rw [Nat.mul_add]; omega]

/-! ## Vector results -/

theorem fmtWidth_pos (c : Nat) : 0 < fmtWidth c := by unfold fmtWidth; split <;> decide

theorem vlMax_mul_le (w i : Nat) (h : i ≤ vlMax w) : i * w ≤ 16384 :=
  Nat.le_trans (Nat.mul_le_mul_right w h) (Nat.div_mul_le_self 16384 w)

/-- What an element-wise instruction leaves (R144): the results below vl, the flags, and nothing else. -/
theorem State.vecStep_putVec (s : State) (h : Fin 77) (d : BitVec 5) (w : Nat) (l : List FRes) (res : Nat → FRes)
    (hn : l.length = (s.engine h).vlN) (hv : vlOk (s.engine h) w = true) (hr : ∀ i (hi : i < l.length), l[i] = res i) :
    (s.retired h ((s.engine h).putVec d w l)).vecStep s h d w res := by
  have hle : (s.engine h).vlN ≤ vlMax w := by simpa [vlOk] using hv
  have hl : l = (List.range (s.engine h).vlN).map res := by
    apply List.ext_getElem
    · simpa using hn
    · intro i h1 h2
      simpa using hr i h1
  have hlen : (l.map Prod.fst).length * w ≤ 16384 := by
    simpa [hn] using vlMax_mul_le w _ hle
  simp only [vecStep, retired, setEngine_engine_same, true_and]
  refine ⟨rfl, ?_, ?_, ?_, ?_⟩
  · intro i hi
    simp only [Engine.el, Engine.putVec, Engine.advance, Regs.raise, Regs.vec, Regs.setVec, Map.get_set_same]
    rw [elemAt_putElems _ _ _ _ _ hlen]
    simp [hn, hi, hr]
  · intro i h1 h2
    simp only [Engine.el, Engine.putVec, Engine.advance, Regs.raise, Regs.vec, Regs.setVec, Map.get_set_same]
    rw [elemAt_putElems _ _ _ _ _ hlen]
    simp [hn, Nat.not_lt.mpr h1]
  · intro r hr'
    have : r.toNat ≠ d.toNat := fun e => hr' (BitVec.eq_of_toNat_eq e)
    simp [Engine.putVec, Engine.advance, Regs.raise, Regs.vec, Regs.setVec, Map.get_set_ne _ _ _ this]
  · simp only [Engine.putVec, Engine.advance, Regs.raise, Regs.setVec, hl, List.foldl_map]
    have key : ∀ (m : List Nat) (a b : FFlags), a ||| m.foldl (fun a i => a ||| (res i).2) b =
        m.foldl (fun a i => a ||| (res i).2) (a ||| b) := by
      intro m
      induction m with
      | nil => intros; rfl
      | cons x r ih => intro a b; simp [ih, BitVec.or_assoc]
    simpa using key (List.range (s.engine h).vlN) (s.engine h).regs.estat 0

end Sys2Proof.Machine
end

