-- ==== Sys2Proof/Laws/Kept.lean ====
section
/-!
SUPPORT. Sys2Proof/Laws/Kept.lean: what a step keeps (State.Kept of Safety.lean), and that the shared operations keep it.  A state
written by its parts is kept as soon as each table and each clamped register is; an operation that takes a continuation keeps it
when the continuation does.
-/

namespace Sys2Proof.Machine
open State

variable {x : Ident × List Instr} {s : State}

theorem Kept.ite {c : Prop} [Decidable c] {a b : State} (h : c → a.Kept x) (k : ¬ c → b.Kept x) : (if c then a else b).Kept x := by
  split <;> simp_all

theorem Kept.foldl {α : Type} {f : State → α → State} (l : List α) (h : ∀ s a, s.Kept x → (f s a).Kept x) (hs : s.Kept x) :
    (l.foldl f s).Kept x := by
  induction l generalizing s with
  | nil => exact hs
  | cons a r ih => exact ih (h s a hs)

theorem Kept.ofPair {α : Type} {p : State × α} {t : State} {v : α} (e : p = (t, v)) (h : p.1.Kept x) : t.Kept x := by
  simpa [e] using h

/-- A state by its parts, the queue and the identity last. -/
def KeptParts (x : Ident × List Instr) (tim : Tim) (kin : Kin) (rst : Rst) (pwr : Pwr) (die : Die) (ports : Map Port)
    (egress : Map Egress) (fabric : Fabric) (alc : Alc) (ctxs : Map Ctx) (clr : Clr) (mir : Mir) (esc : Esc) (tst : Tst) (evr : Evr) (tel : Tel)
    (sec : Sec) (engines : Map Engine) (yobels : Map Yobel) (flues : Map Flue) (ctl : Ctl) (answers : List Answer)
    (sent : List Msg) (free : Nat) (ident : Ident) (pending : List Instr) : Prop :=
  (State.mk tim kin rst pwr die ports egress fabric alc ctxs clr mir esc tst evr tel sec engines yobels flues ctl ident answers sent free
    pending).Kept x

theorem Kept.parts {tim kin rst pwr die ports egress fabric alc ctxs clr mir esc tst evr tel sec engines yobels flues ctl ident answers
      sent free pending} :
    (State.mk tim kin rst pwr die ports egress fabric alc ctxs clr mir esc tst evr tel sec engines yobels flues ctl ident answers sent
      free pending).Kept x ↔
    KeptParts x tim kin rst pwr die ports egress fabric alc ctxs clr mir esc tst evr tel sec engines yobels flues ctl answers sent free
      ident pending := Iff.rfl

theorem KeptParts.of (h : s.Kept x)
    {tim kin rst pwr die ports egress fabric alc ctxs clr mir esc tst evr tel sec engines yobels flues ctl answers sent free}
    (r0 : within 300 1100 s.pwr.limit.toNat = true → within 300 1100 pwr.limit.toNat = true)
    (r1 : within incLow incHigh s.tim.inc.toNat = true → within incLow incHigh tim.inc.toNat = true)
    (r2 : incNextOk s.tim.incNext = true → incNextOk tim.incNext = true)
    (r3 : within 1 100 s.alc.wipePct.toNat = true → within 1 100 alc.wipePct.toNat = true)
    (r4 : within 1 100 s.alc.wipeUrgent.toNat = true → within 1 100 alc.wipeUrgent.toNat = true)
    (r5 : within 1 100 s.alc.migratePct.toNat = true → within 1 100 alc.migratePct.toNat = true)
    (r6 : within 1 1000 s.alc.wakeGuard.toNat = true → within 1 1000 alc.wakeGuard.toNat = true)
    (r7 : within 1 255 s.alc.gateIdle.toNat = true → within 1 255 alc.gateIdle.toNat = true)
    (r8 : within 10 100 s.alc.vcMaxPct.toNat = true → within 10 100 alc.vcMaxPct.toNat = true)
    (r9 : within 10 60000 s.mir.digestWait.toNat = true → within 10 60000 mir.digestWait.toNat = true)
    (r10 : within 1 15 s.mir.repairTries.toNat = true → within 1 15 mir.repairTries.toNat = true)
    (r11 : within 5 90 s.esc.lowWater.toNat = true → within 5 90 esc.lowWater.toNat = true)
    (r12 : within 1 100 s.esc.damperPct.toNat = true → within 1 100 esc.damperPct.toNat = true)
    (r13 : within 1 100 s.esc.fullPct.toNat = true → within 1 100 esc.fullPct.toNat = true)
    (r14 : within 1 63 s.esc.outstanding.toNat = true → within 1 63 esc.outstanding.toNat = true)
    (r15 : within 1 720 s.tst.deferH.toNat = true → within 1 720 tst.deferH.toNat = true)
    (r16 : within 1 720 s.tst.accelH.toNat = true → within 1 720 tst.accelH.toNat = true)
    (r17 : within 10 1440 s.tst.rotateMin.toNat = true → within 10 1440 tst.rotateMin.toNat = true)
    (r18 : within 1 65535 s.tst.oddPages.toNat = true → within 1 65535 tst.oddPages.toNat = true)
    (r19 : within 1 65535 s.tst.capLimit.toNat = true → within 1 65535 tst.capLimit.toNat = true)
    (r20 : within 1 65535 s.tst.pairLimit.toNat = true → within 1 65535 tst.pairLimit.toNat = true)
    (r21 : within 1 168 s.tel.periodH.toNat = true → within 1 168 tel.periodH.toNat = true)
    (t0 : Map.wf {} s.ports = true → Map.wf {} ports = true)
    (te : Map.wf {} s.egress = true → Map.wf {} egress = true)
    (t1 : Map.wf {} s.ctxs = true → Map.wf {} ctxs = true)
    (t2 : Map.wf {} s.die.hearths = true → Map.wf {} die.hearths = true)
    (t3 : Map.wf {} s.die.regions = true → Map.wf {} die.regions = true)
    (t4 : Map.wf {} s.die.hbms = true → Map.wf {} die.hbms = true)
    (t5 : Map.wf {} s.mir.entries = true → Map.wf {} mir.entries = true)
    (t6 : Map.wf {} s.engines = true → Map.wf {} engines = true)
    (t7 : Map.wf {} s.yobels = true → Map.wf {} yobels = true)
    (t8 : Map.wf {} s.flues = true → Map.wf {} flues = true)
    (t9 : Map.wf {} s.tst.ports = true → Map.wf {} tst.ports = true)
    (t10 : Map.wf {} s.evr.inputs = true → Map.wf {} evr.inputs = true)
    (t11 : Map.wf 0 s.evr.tallies = true → Map.wf 0 evr.tallies = true) :
    KeptParts x tim kin rst pwr die ports egress fabric alc ctxs clr mir esc tst evr tel sec engines yobels flues ctl answers sent free
      s.ident s.pending := by
  obtain ⟨ht, hr, hf⟩ := h
  refine ⟨?_, ?_, hf⟩
  · simp only [State.tablesWf, Bool.and_eq_true] at ht ⊢
    exact ⟨⟨⟨⟨⟨⟨⟨⟨⟨⟨⟨⟨t0 ht.1.1.1.1.1.1.1.1.1.1.1.1, te ht.1.1.1.1.1.1.1.1.1.1.1.2⟩, t1 ht.1.1.1.1.1.1.1.1.1.1.2⟩, t2
      ht.1.1.1.1.1.1.1.1.1.2⟩, t3 ht.1.1.1.1.1.1.1.1.2⟩, t4 ht.1.1.1.1.1.1.1.2⟩, t5 ht.1.1.1.1.1.1.2⟩, t6 ht.1.1.1.1.1.2⟩,
      t7 ht.1.1.1.1.2⟩, t8 ht.1.1.1.2⟩, t9 ht.1.1.2⟩, t10 ht.1.2⟩, t11 ht.2⟩
  · have hr' : (within 300 1100 s.pwr.limit.toNat && within incLow incHigh s.tim.inc.toNat && incNextOk s.tim.incNext && within 1 100
      s.alc.wipePct.toNat && within 1 100 s.alc.wipeUrgent.toNat && within 1 100 s.alc.migratePct.toNat && within 1 1000
      s.alc.wakeGuard.toNat && within 1 255 s.alc.gateIdle.toNat && within 10 100 s.alc.vcMaxPct.toNat && within 10 60000
      s.mir.digestWait.toNat && within 1 15 s.mir.repairTries.toNat && within 5 90 s.esc.lowWater.toNat && within 1 100
      s.esc.damperPct.toNat && within 1 100 s.esc.fullPct.toNat && within 1 63 s.esc.outstanding.toNat && within 1 720
      s.tst.deferH.toNat && within 1 720 s.tst.accelH.toNat && within 10 1440 s.tst.rotateMin.toNat && within 1 65535
      s.tst.oddPages.toNat && within 1 65535 s.tst.capLimit.toNat && within 1 65535 s.tst.pairLimit.toNat && within 1 168
      s.tel.periodH.toNat) = true := hr
    show (within 300 1100 pwr.limit.toNat && within incLow incHigh tim.inc.toNat && incNextOk tim.incNext && within 1 100
      alc.wipePct.toNat && within 1 100 alc.wipeUrgent.toNat && within 1 100 alc.migratePct.toNat && within 1 1000
      alc.wakeGuard.toNat && within 1 255 alc.gateIdle.toNat && within 10 100 alc.vcMaxPct.toNat && within 10 60000
      mir.digestWait.toNat && within 1 15 mir.repairTries.toNat && within 5 90 esc.lowWater.toNat && within 1 100
      esc.damperPct.toNat && within 1 100 esc.fullPct.toNat && within 1 63 esc.outstanding.toNat && within 1 720
      tst.deferH.toNat && within 1 720 tst.accelH.toNat && within 10 1440 tst.rotateMin.toNat && within 1 65535
      tst.oddPages.toNat && within 1 65535 tst.capLimit.toNat && within 1 65535 tst.pairLimit.toNat && within 1 168
      tel.periodH.toNat) = true
    simp only [Bool.and_eq_true] at hr' ⊢
    obtain ⟨⟨⟨⟨⟨⟨⟨⟨⟨⟨⟨⟨⟨⟨⟨⟨⟨⟨⟨⟨⟨q0, q1⟩, q2⟩, q3⟩, q4⟩, q5⟩, q6⟩, q7⟩, q8⟩, q9⟩, q10⟩, q11⟩, q12⟩, q13⟩, q14⟩, q15⟩, q16⟩,
    q17⟩, q18⟩, q19⟩, q20⟩, q21⟩ := hr'
    exact ⟨⟨⟨⟨⟨⟨⟨⟨⟨⟨⟨⟨⟨⟨⟨⟨⟨⟨⟨⟨⟨r0 q0, r1 q1⟩, r2 q2⟩, r3 q3⟩, r4 q4⟩, r5 q5⟩, r6 q6⟩, r7 q7⟩, r8 q8⟩, r9 q9⟩, r10 q10⟩, r11
    q11⟩, r12 q12⟩, r13 q13⟩, r14 q14⟩, r15 q15⟩, r16 q16⟩, r17 q17⟩, r18 q18⟩, r19 q19⟩, r20 q20⟩, r21 q21⟩

/-! ## The parts' accessors -/

theorem setPort_kept {p} {v} (hs : s.Kept x) : (s.setPort p v).Kept x := by
  unfold State.setPort
  simp only [Kept.parts]
  apply KeptParts.of hs <;> first | with_reducible exact fun h => h | with_reducible exact Map.wf_set _ _

theorem modPort_kept {p} {f} (hs : s.Kept x) : (s.modPort p f).Kept x := setPort_kept hs

theorem setCtx_kept {n} {v} (hs : s.Kept x) : (s.setCtx n v).Kept x := by
  unfold State.setCtx
  simp only [Kept.parts]
  apply KeptParts.of hs <;> first | with_reducible exact fun h => h | with_reducible exact Map.wf_set _ _

theorem modCtx_kept {n} {f} (hs : s.Kept x) : (s.modCtx n f).Kept x := setCtx_kept hs

theorem setHearth_kept {h} {v} (hs : s.Kept x) : (s.setHearth h v).Kept x := by
  unfold State.setHearth
  simp only [Kept.parts]
  apply KeptParts.of hs <;> first | with_reducible exact fun h => h | with_reducible exact Map.wf_set _ _

theorem modHearth_kept {h} {f} (hs : s.Kept x) : (s.modHearth h f).Kept x := setHearth_kept hs

theorem setRegion_kept {q} {v} (hs : s.Kept x) : (s.setRegion q v).Kept x := by
  unfold State.setRegion
  simp only [Kept.parts]
  apply KeptParts.of hs <;> first | with_reducible exact fun h => h | with_reducible exact Map.wf_set _ _

theorem modRegion_kept {q} {f} (hs : s.Kept x) : (s.modRegion q f).Kept x := setRegion_kept hs

theorem setHbm_kept {i} {v} (hs : s.Kept x) : (s.setHbm i v).Kept x := by
  unfold State.setHbm
  simp only [Kept.parts]
  apply KeptParts.of hs <;> first | with_reducible exact fun h => h | with_reducible exact Map.wf_set _ _

theorem modHbm_kept {i} {f} (hs : s.Kept x) : (s.modHbm i f).Kept x := setHbm_kept hs

theorem setEntry_kept {e} {v} (hs : s.Kept x) : (s.setEntry e v).Kept x := by
  unfold State.setEntry
  simp only [Kept.parts]
  apply KeptParts.of hs <;> first | with_reducible exact fun h => h | with_reducible exact Map.wf_set _ _

theorem modEntry_kept {e} {f} (hs : s.Kept x) : (s.modEntry e f).Kept x := setEntry_kept hs

theorem setEngine_kept {h} {v} (hs : s.Kept x) : (s.setEngine h v).Kept x := by
  unfold State.setEngine
  simp only [Kept.parts]
  apply KeptParts.of hs <;> first | with_reducible exact fun h => h | with_reducible exact Map.wf_set _ _

theorem modEngine_kept {h} {f} (hs : s.Kept x) : (s.modEngine h f).Kept x := setEngine_kept hs

theorem setYobel_kept {k} {v} (hs : s.Kept x) : (s.setYobel k v).Kept x := by
  unfold State.setYobel
  simp only [Kept.parts]
  apply KeptParts.of hs <;> first | with_reducible exact fun h => h | with_reducible exact Map.wf_set _ _

theorem modYobel_kept {k} {f} (hs : s.Kept x) : (s.modYobel k f).Kept x := setYobel_kept hs

theorem setTstPort_kept {k} {v} (hs : s.Kept x) : (s.setTstPort k v).Kept x := by
  unfold State.setTstPort
  simp only [Kept.parts]
  apply KeptParts.of hs <;> first | with_reducible exact fun h => h | with_reducible exact Map.wf_set _ _

theorem modTstPort_kept {k} {f} (hs : s.Kept x) : (s.modTstPort k f).Kept x := setTstPort_kept hs

theorem setInput_kept {i} {v} (hs : s.Kept x) : (s.setInput i v).Kept x := by
  unfold State.setInput
  simp only [Kept.parts]
  apply KeptParts.of hs <;> first | with_reducible exact fun h => h | with_reducible exact Map.wf_set _ _

theorem modInput_kept {i} {f} (hs : s.Kept x) : (s.modInput i f).Kept x := setInput_kept hs

theorem setFlue_kept {i} {v} (hs : s.Kept x) : (s.setFlue i v).Kept x := by
  unfold State.setFlue
  simp only [Kept.parts]
  apply KeptParts.of hs <;> first | with_reducible exact fun h => h | with_reducible exact Map.wf_set _ _

/-! ## The ports' sending sides -/

theorem enqueue_wf (p : Nat) (xs : List WirePkt) (h : Map.wf {} s.egress = true) : Map.wf {} (s.enqueue p xs) = true :=
  Map.wf_set _ _ h

theorem launch_wf (m : Msg) (h : Map.wf {} s.egress = true) : Map.wf {} (s.launch m) = true := by
  unfold State.launch
  split
  · exact enqueue_wf _ _ h
  · exact h

theorem respondOn_wf (rq : Req) (data : Bytes) (h : Map.wf {} s.egress = true) : Map.wf {} (s.respondOn rq data) = true := by
  unfold State.respondOn
  split
  · exact enqueue_wf _ _ h
  · exact h

theorem pumpPort_kept {p} (h_s : s.Kept x) : (State.pumpPort s p).Kept x := by
  unfold State.pumpPort
  simp only [Kept.parts]
  with_reducible apply KeptParts.of h_s <;> first | exact fun h => h | exact Map.wf_set _ _

theorem resetEgress_kept {p} (h_s : s.Kept x) : (State.resetEgress s p).Kept x := by
  unfold State.resetEgress
  simp only [Kept.parts]
  with_reducible apply KeptParts.of h_s <;> first | exact fun h => h | exact Map.wf_set _ _

theorem dropClosed_kept {p} (h_s : s.Kept x) : (State.dropClosed s p).Kept x := by
  unfold State.dropClosed
  simp only [Kept.parts]
  with_reducible apply KeptParts.of h_s <;> first | exact fun h => h | exact Map.wf_set _ _

theorem loseSpilled_kept {p} (h_s : s.Kept x) : (State.loseSpilled s p).Kept x := by
  unfold State.loseSpilled
  simp only [Kept.parts]
  with_reducible apply KeptParts.of h_s <;> first | exact fun h => h | exact Map.wf_set _ _

theorem returnCoins_kept {p} {vc} {n} (h_s : s.Kept x) : (State.returnCoins s p vc n).Kept x := by
  unfold State.returnCoins
  apply pumpPort_kept
  simp only [Kept.parts]
  with_reducible apply KeptParts.of h_s <;> first | exact fun h => h | exact Map.wf_set _ _

theorem ackRetry_kept {p} {seq} (h_s : s.Kept x) : (State.ackRetry s p seq).Kept x := by
  unfold State.ackRetry
  dsimp only
  split
  · apply pumpPort_kept
    simp only [Kept.parts]
    with_reducible apply KeptParts.of h_s <;> first | exact fun h => h | exact Map.wf_set _ _
  · exact h_s

theorem ackWindow_kept {p} {rsn} (h_s : s.Kept x) : (State.ackWindow s p rsn).Kept x := by
  unfold State.ackWindow
  apply pumpPort_kept
  simp only [Kept.parts]
  with_reducible apply KeptParts.of h_s <;> first | exact fun h => h | exact Map.wf_set _ _

/-! ## The shared operations -/

theorem useFree_kept (h_s : s.Kept x) : (State.useFree s).Kept x := by
  unfold State.useFree
  simp only [Kept.parts]
  with_reducible apply KeptParts.of (by assumption) <;> first | exact fun h => h | exact Map.wf_set _ _

theorem setTally_kept {i} {v} (h_s : s.Kept x) : (State.setTally s i v).Kept x := by
  unfold State.setTally
  simp only [Kept.parts]
  with_reducible apply KeptParts.of (by assumption) <;> first | exact fun h => h | exact Map.wf_set _ _

theorem bumpTally_kept {i} (h_s : s.Kept x) : (State.bumpTally s i).Kept x := setTally_kept h_s

theorem addTally_kept {i} {n} (h_s : s.Kept x) : (State.addTally s i n).Kept x := setTally_kept h_s

theorem record_kept {cls} {number} {source} {w0} {w1} {w2} (h_s : s.Kept x) :
    (State.record s cls number source w0 w1 w2).Kept x := by
  unfold State.record
  try dsimp only
  repeat' (first
    | assumption | with_reducible apply Kept.ite | with_reducible apply Kept.foldl
    | (simp only [Kept.parts]; with_reducible apply KeptParts.of <;> try with_reducible exact fun h => h) | split
    | (refine Kept.ofPair (e := ?_) ?_; rotate_left; assumption) | intro _)
  all_goals simpa [Evr.add_tallies]

theorem event_kept {cls} {number} {source} (h_s : s.Kept x) : (State.event s cls number source).Kept x := record_kept h_s

theorem eventCode_kept {cls} {number} {source} {code} (h_s : s.Kept x) :
    (State.eventCode s cls number source code).Kept x := record_kept h_s

theorem journalWrite_kept (h_s : s.Kept x) : (State.journalWrite s).Kept x := by
  unfold State.journalWrite
  try dsimp only
  repeat' (first
    | assumption | with_reducible apply Kept.ite | with_reducible apply Kept.foldl
    | (simp only [Kept.parts]; with_reducible apply KeptParts.of <;> try with_reducible exact fun h => h) | split | intro _)

theorem flagReplace_kept {serial} {port} (h_s : s.Kept x) : (State.flagReplace s serial port).Kept x := by
  unfold State.flagReplace
  try dsimp only
  repeat' (first
    | assumption | with_reducible apply Kept.ite | with_reducible apply journalWrite_kept | with_reducible apply setTally_kept
    | with_reducible apply bumpTally_kept | with_reducible apply Kept.foldl
    | (simp only [Kept.parts]; with_reducible apply KeptParts.of <;> try with_reducible exact fun h => h) | split | intro _)

theorem begin_kept (h_s : s.Kept x) : (State.begin s).Kept x := by
  unfold State.begin
  simp only [Kept.parts]
  with_reducible apply KeptParts.of (by assumption) <;> first | exact fun h => h | exact Map.wf_set _ _

theorem answer_kept {rq} {r} {cause} {data} (h_s : s.Kept x) : (State.answer s rq r cause data).Kept x := by
  unfold State.answer
  simp only [Kept.parts]
  with_reducible apply KeptParts.of (by assumption) <;> first | exact fun h => h | exact respondOn_wf _ _

theorem ok_kept {rq} (h_s : s.Kept x) : (State.ok s rq).Kept x := answer_kept h_s

theorem busy_kept {rq} {cause} (h_s : s.Kept x) : (State.busy s rq cause).Kept x := answer_kept h_s

theorem nackAccess_kept {rq} (h_s : s.Kept x) : (State.nackAccess s rq).Kept x := answer_kept h_s

theorem nackAddress_kept {rq} (h_s : s.Kept x) : (State.nackAddress s rq).Kept x := answer_kept h_s

theorem nackClaim_kept {rq} (h_s : s.Kept x) : (State.nackClaim s rq).Kept x := answer_kept h_s

theorem nackRetry_kept {rq} (h_s : s.Kept x) : (State.nackRetry s rq).Kept x := answer_kept h_s

theorem send_kept {m} (h_s : s.Kept x) : (State.send s m).Kept x := by
  unfold State.send
  simp only [Kept.parts]
  with_reducible apply KeptParts.of (by assumption) <;> first | exact fun h => h | exact launch_wf _

theorem request_kept {m} (h_s : s.Kept x) : (State.request s m).Kept x := by
  unfold State.request
  simp only [Kept.parts]
  with_reducible apply KeptParts.of (by assumption) <;> first | exact fun h => h | exact launch_wf _

theorem note_kept {c} {n} {kind} {hdr} {args} {data} (h_s : s.Kept x) : (State.note s c n kind hdr args data).Kept x := request_kept h_s

theorem notes_kept {c} {ns} {kind} {hdr} {args} {data} (h_s : s.Kept x) : (State.notes s c ns kind hdr args data).Kept x := by
  unfold State.notes
  try dsimp only
  repeat' (first
    | assumption | with_reducible apply Kept.ite | with_reducible apply note_kept | with_reducible apply Kept.foldl
    | (simp only [Kept.parts]; with_reducible apply KeptParts.of <;> try with_reducible exact fun h => h) | split | intro _)

theorem yobelWr_kept {k} {addr} {data} {hdr} (h_s : s.Kept x) : (State.yobelWr s k addr data hdr).Kept x := request_kept h_s

theorem sourceDrop_kept {p} (h_s : s.Kept x) : (State.sourceDrop s p).Kept x := by
  unfold State.sourceDrop
  try dsimp only
  repeat' (first
    | assumption | with_reducible apply Kept.ite | with_reducible apply event_kept | with_reducible apply Kept.foldl
    | (simp only [Kept.parts]; with_reducible apply KeptParts.of <;> try with_reducible exact fun h => h) | split | intro _)

theorem admitPower_kept {rq} {ember} {k} (h_s : s.Kept x) (h_k : ∀ y0, y0.Kept x → (k y0).Kept x) :
    (State.admitPower s rq ember k).Kept x := by
  unfold State.admitPower
  try dsimp only
  repeat' (first
    | assumption | with_reducible apply Kept.ite | with_reducible apply h_k | with_reducible apply nackAddress_kept
    | with_reducible apply Kept.foldl
    | (simp only [Kept.parts]; with_reducible apply KeptParts.of <;> try with_reducible exact fun h => h) | split | intro _)

theorem admitWith_kept {src} {rq} {ember} {k} (h_s : s.Kept x) (h_k : ∀ y0, y0.Kept x → (k y0).Kept x) :
    (State.admitWith src s rq ember k).Kept x := by
  unfold State.admitWith
  try dsimp only
  repeat' (first
    | assumption | with_reducible apply Kept.ite | with_reducible apply h_k | with_reducible apply sourceDrop_kept
    | with_reducible apply busy_kept
    | with_reducible apply nackRetry_kept | with_reducible apply nackAddress_kept | with_reducible apply admitPower_kept
    | with_reducible apply Kept.foldl
    | (simp only [Kept.parts]; with_reducible apply KeptParts.of <;> try with_reducible exact fun h => h) | split | intro _)

theorem judge_kept {rq} {ember} {k} (h_s : s.Kept x) (h_k : ∀ y0, y0.Kept x → (k y0).Kept x) :
    (State.judge s rq ember k).Kept x := by
  unfold State.judge
  try dsimp only
  repeat' (first
    | assumption | with_reducible apply Kept.ite | with_reducible apply h_k | with_reducible apply admitWith_kept
    | with_reducible apply Kept.foldl
    | (simp only [Kept.parts]; with_reducible apply KeptParts.of <;> try with_reducible exact fun h => h) | split | intro _)

theorem control_kept {rq} {ember} {who} {k} (h_s : s.Kept x) (h_k : ∀ y0, y0.Kept x → (k y0).Kept x) :
    (State.control s rq ember who k).Kept x := by
  unfold State.control
  try dsimp only
  repeat' (first
    | assumption | with_reducible apply Kept.ite | with_reducible apply h_k | with_reducible apply judge_kept
    | with_reducible apply nackAccess_kept | with_reducible apply Kept.foldl
    | (simp only [Kept.parts]; with_reducible apply KeptParts.of <;> try with_reducible exact fun h => h) | split | intro _)

theorem keepAnswer_kept {t : State} {rq} {address} (h_t : t.Kept x) : (State.keepAnswer t rq address).Kept x := by
  unfold State.keepAnswer
  try dsimp only
  repeat' (first
    | assumption | with_reducible apply Kept.ite | with_reducible apply Kept.foldl
    | (simp only [Kept.parts]; with_reducible apply KeptParts.of <;> try with_reducible exact fun h => h) | split | intro _)

theorem again_kept {rq} {a} (h_s : s.Kept x) : (State.again s rq a).Kept x := by
  unfold State.again
  simp only [Kept.parts]
  with_reducible apply KeptParts.of (by assumption) <;> first | exact fun h => h | exact respondOn_wf _ _

theorem once_kept {rq} {address} {k} (h_s : s.Kept x) (h_k : ∀ y0, y0.Kept x → (k y0).Kept x) :
    (State.once s rq address k).Kept x := by
  unfold State.once
  try dsimp only
  repeat' (first
    | assumption | with_reducible apply Kept.ite | with_reducible apply h_k | with_reducible apply keepAnswer_kept
    | with_reducible apply again_kept
    | with_reducible apply Kept.foldl
    | (simp only [Kept.parts]; with_reducible apply KeptParts.of <;> try with_reducible exact fun h => h) | split | intro _)

theorem message_kept {rq} {k} (h_s : s.Kept x) (h_k : ∀ y0, y0.Kept x → (k y0).Kept x) : (State.message s rq k).Kept x := by
  unfold State.message
  try dsimp only
  repeat' (first
    | assumption | with_reducible apply Kept.ite | with_reducible apply h_k | with_reducible apply judge_kept
    | with_reducible apply begin_kept | with_reducible apply ok_kept | with_reducible apply Kept.foldl
    | (simp only [Kept.parts]; with_reducible apply KeptParts.of <;> try with_reducible exact fun h => h) | split | intro _)

theorem messageQuiet_kept {rq} {k} (h_s : s.Kept x) (h_k : ∀ y0, y0.Kept x → (k y0).Kept x) :
    (State.messageQuiet s rq k).Kept x := by
  unfold State.messageQuiet
  try dsimp only
  repeat' (first
    | assumption | with_reducible apply Kept.ite | with_reducible apply h_k | with_reducible apply begin_kept
    | with_reducible apply sourceDrop_kept | with_reducible apply Kept.foldl
    | (simp only [Kept.parts]; with_reducible apply KeptParts.of <;> try with_reducible exact fun h => h) | split | intro _)

theorem osfel_kept {rq} {k} (h_s : s.Kept x) (h_k : ∀ y0, y0.Kept x → (k y0).Kept x) : (State.osfel s rq k).Kept x := by
  unfold State.osfel
  try dsimp only
  repeat' (first
    | assumption | with_reducible apply Kept.ite | with_reducible apply h_k | with_reducible apply judge_kept
    | with_reducible apply begin_kept | with_reducible apply Kept.foldl
    | (simp only [Kept.parts]; with_reducible apply KeptParts.of <;> try with_reducible exact fun h => h) | split | intro _)

theorem raiseEpoch_kept {n} (h_s : s.Kept x) : (State.raiseEpoch s n).Kept x := modCtx_kept h_s

theorem zeroised_kept {scope} (h_s : s.Kept x) : (State.zeroised s scope).Kept x := by
  unfold State.zeroised
  try dsimp only
  repeat' (first
    | assumption | with_reducible apply Kept.ite | with_reducible apply eventCode_kept | with_reducible apply Kept.foldl
    | (simp only [Kept.parts]; with_reducible apply KeptParts.of <;> try with_reducible exact fun h => h) | split | intro _)

theorem setOos_kept {cause} (h_s : s.Kept x) : (State.setOos s cause).Kept x := by
  unfold State.setOos
  try dsimp only
  repeat' (first
    | assumption | with_reducible apply Kept.ite | with_reducible apply journalWrite_kept | with_reducible apply setTally_kept
    | with_reducible apply Kept.foldl
    | (simp only [Kept.parts]; with_reducible apply KeptParts.of <;> try with_reducible exact fun h => h) | split | intro _)

theorem drainIfEmpty_kept (h_s : s.Kept x) : (State.drainIfEmpty s).Kept x := by
  unfold State.drainIfEmpty
  try dsimp only
  repeat' (first
    | assumption | with_reducible apply Kept.ite | with_reducible apply event_kept | with_reducible apply flagReplace_kept
    | with_reducible apply setTally_kept | with_reducible apply Kept.foldl
    | (simp only [Kept.parts]; with_reducible apply KeptParts.of <;> try with_reducible exact fun h => h) | split | intro _)

end Sys2Proof.Machine
end

