-- ==== Sys2Proof/Tests/Slice0.lean ====
section
/-!
SUPPORT. Sys2Proof/Tests/Slice0.lean: the author's own tests.  The smoke test of WellFormed, one witness per clause of each
statement that has hypotheses (a state and operands that meet them all), and small tests of single steps whose expected
values come from spec/.
-/

namespace Sys2Proof.Tests
open Sys2Proof.Machine

/-! ## States and requests that the tests share -/

/-- A request by the I3C path. -/
def mgmt : Req := { path := .i3c, ctxv := false, ctx := 0, node := 0xFFFF, source := 0, epoch := 0x00010000, reqId := 1, ext := none }

/-- A request by the charter endpoint 16 of context 15, through FP0; another node's; and one of accelerator node 32, through TP8. -/
def host : Req := { path := .port 9, ctxv := true, ctx := 15, node := 1, source := 16, epoch := 0x00010001, reqId := 2, ext := none }
def other : Req := { host with source := 2 }
def tray : Req := { host with path := .port 8, source := 32 }

/-- Context 15 in a state, its ledger range ending at the last entry, with endpoint 16. -/
def life (st : CtxState) : Life :=
  { st := st, self := 1, charter := { entryFirst := 65000, entryCount := 536, endpoints := [(16, 0)] } }

/-- A state with FP0 and TP8 UP and this context C15. -/
def world (c : Ctx) : State := { State.reset with ports := [(8, { state := .up }), (9, { state := .up })], ctxs := [(15, c)] }
def inState (st : CtxState) : State := world { life := life st }

/-- The same with this shard ledger entry 65,535. -/
def led (st : CtxState) (e : Entry) : State := { inState st with mir.entries := [(65535, { e with ctx := 15 })] }

/-- A step of a kindling. -/
def kinAt (p : PowerState) (stage : BitVec 4) (fails : BitVec 8) : State :=
  { State.reset with kin.power := p, kin.stage := stage, kin.fails := fails }
def rep : StageReport :=
  { romOk := true, slow := [], selftest := 0x20, mpdOk := true, ucie0 := false, ucie1 := true, hbms := 0x3F, badPages := [],
    elapsed := 0xFFFF, hot := false }
def upd (st : UpdState) : State := { State.reset with kin.updState := st }

/-- Hearth 67's engine at an instruction of a program of one word, with room for one instruction. -/
def eng (w : Word) (e : Engine := {}) : State :=
  { State.reset with engines := [(67, { e with running := true, code := [w], hdr := { e.hdr with insnLimit := 1 } })] }
/-- State bytes, the view's address in s1 and a stride of 1 in s2, three elements. -/
def view (sect : Section := .post) : Engine :=
  { stateLen := 4194304, sect := sect, regs := { s := [(1, 0x1000000000000000), (2, 1)], vl := 3 } }
def fr (ty : BitVec 4) (d a b c : BitVec 5) : RFields :=
  { ty := ty, res4 := 0, d := d, a := a, b := b, c := c, axis := false, res27 := 0 }
def fi (ty : BitVec 4) (d a b : BitVec 5) (imm : BitVec 32) : IFields :=
  { ty := ty, res4 := 0, d := d, a := a, b := b, res32 := false, imm := imm }

/-- Group 27 with accelerator node 32, its tree at this node (a parent 2, a child 3), segment 4,094 of one FP32 element, an
attempt that is open and context 15 with them. -/
def group : GroupDef :=
  { group := 27, vc := 0, shape := 0, order := 0, hopAllow := 1, lhAllow := 0, members := 1, list := [32] }
def tree : GroupTree :=
  { defn := group, nodes := [1, 2, 3], clearing := true, transit := false, parent := some 2, parentPort := 9, children := [3],
    isRoot := false, root := 2, height := 1, allow := 20, rootAllow := 20, reportAllow := 20, rootPages := 0 }
def leaf : GroupTree := { tree with defn := { group with list := [] }, children := [] }
def segment : Seg := { elements := 1, group := 27 }
def tried (p : Phase := .opened) : Attempt :=
  { step := 1, attempt := 0, latched := { voteLag := 0, ckptMode := 0, bytes := [] }, tag := 1, lag := 0, phase := p, cause := 0,
    origin := 0, hearths := [] }
def hdr : AttHdr := { step := 1, attempt := 0, tag := 1 }
def ext (claim : Word := 0) : Ext :=
  { step := 1, attempt := 0, context := 15, hasAttempt := true, hasClaim := true, tag := 1, claim := claim }
def stepping (t : GroupTree := tree) (as : List Attempt := [tried]) : Ctx :=
  { life := { life .active with charter := { (life .active).charter with nodes := [{ pos := 0x8000200000000000, lnode := 32, role := 1 }] } }
    step := { accepted := as }, clr := { segs := [(4094, segment)], groups := [t] }, bind := { bound := [(32, 8)], ever := [32] } }
/-- An OPEN's bytes: step 1, attempt 0, a deadline one hour ahead, and the two cursor records' STEP. -/
def openData : Bytes :=
  natLe 8 0 ++ natLe 8 1 ++ natLe 8 0 ++ natLe 8 (3600 * second) ++ List.replicate 32 0 ++ natLe 8 1 ++ List.replicate 56 0 ++
  natLe 8 1
def round : Round :=
  { step := 1, attempt := 0, e0 := 0, maxexp := 0x8000, nonfinite := false, range := false, forced := false,
    blocks := [(0, [])], bytes := [], delivered := [] }
/-- An entry that may be defined: one segment, a program, and a partner in another tray and on this site. -/
def placed (st : CtxState) : Ctx :=
  { life := { life st with charter := { (life st).charter with nodes := [{ pos := 0x8000000000000100, lnode := 2, role := 0 }] } }
    clr := { segs := [(4094, segment)], groups := [tree] }, prog.slots := [(255, { st := .installed, programId := 7 })] }
def definable : State :=
  { world (placed .chartered) with
    mir.entries := [(65535, { ctx := 15, length := 64, group := 27, segFirst := 4094, segCount := 1, program := 7, partner := 2 })] }
def remirrorable : State :=
  { world (placed .quiesced) with
    mir.entries := [(65535, { st := .live, ctx := 15, group := 27, partner := 2, degradedP := true })] }
def ballot : Vote := { page := 0, version := 0, step := 0, y := none, l := none, p := none, outcome := none, digest := 0 }
/-- An entry whose accelerator, node 32 at TP8, holds it in slot 4,095. -/
def bound (e : Entry) : State :=
  { world { life := life .active, bind.bound := [(32, 8)] } with
    ports := [(8, { state := .up, slotsUsed := [{ slot := 4095, entry := 65535, st := 3, claim := 0, fenced := false }] }), (9, { state := .up })]
    mir.entries := [(65535, { e with ctx := 15, owner := 32 })] }
/-- The same with its slot DEFINED. -/
def definedAt (e : Entry) : State :=
  { bound e with
    ports := [(8, { state := .up, slotsUsed := [{ slot := 4095, entry := 65535, st := 1, claim := 0, fenced := false }] })] }
def fieldsOf : EntryDef :=
  { shardId := 0, length := 0, owner := 0, partner := 0, windowBase := 0, program := 0, group := 0, hyper := 0, segFirst := 0,
    segCount := 0, stream := 0 }
def sync : EntrySync :=
  { kind := .update, localIdx := 0, claim := 0, state := 3, image := [], hyperBytes := [], page := 0, domain := 1, fillSource := 0,
    fields := fieldsOf, src := [], digest := 0, lost := false }
/-- A run on the entry that has ended. -/
def ended (e : Entry) : State :=
  { led .active e with engines := [(67, { copy := .mirror 65535, finished := true })] }
def blockOf : BlockIn := { block := 0, ovf := false, maxexp := 0, nfmask := 0, vals := [0] }
def outcomeOf : PageOutcome := { page := 0, version := 0, outcome := .agreed, digest := 0 }
def late : Vote := { ballot with l := some 0, p := some 0 }

/-- A request of the Azard of TP8 to its Yobel, with and without an attempt. -/
def yreq : YReq := { port := 8, ctxv := true, ctx := 15, epoch := 1, ext := some ext }
def ybare : YReq := { yreq with ext := none }
def ystate (y : Yobel) : State := { State.reset with yobels := [(8, y)] }
def jobOf : CaptureRec :=
  { step := 1, unit := 0, m := 1, k := 1, n := 1, position := 0, abfmt := 0, length := 0, time := 0, bytes := 0, eA := [], b := [],
    eCin := [], eCout := [] }
def tileOf : TileOp := { unit := 0, m := 1, k := 1, n := 1, abfmt := 0, a := [], b := [], cin := [], cout := [] }
def recOf : DigestRec := { shardId := 0, page := 0, version := 0, claim := 0, install := false, digest := 0 }
def reportOf : TestReport := { seq := 0, result := 1, failUnit := 0, start := 0, stop := 0 }
/-- The state of an intake at TP8 of node 32. -/
def intake (e : Entry) : State :=
  { bound e with mir.entries := [(65535, { e with ctx := 15, owner := 32, st := .live })] }
def region3 (r : Region) : State := { State.reset with die.regions := [(3, r)] }
/-- A charter of two Azards, of which the other holds the one accelerator of group 27. -/
def apart : State :=
  { world { life := { life .chartered with charter := { (life .chartered).charter with
      groups := [{ group with vc := 31 }]
      nodes := [{ pos := 0x8000000000000100, lnode := 2, role := 0 }, { pos := 0x8000000000000100, lnode := 32, role := 1 }] } } }
    with fabric.topo := [{ pos := 0x8000000000000100, coord := 0, revision := 3, firmware := 0, seq := 1, links := [],
                           outOfService := false, flue := false }] }
/-- A checkpoint 9 of context 15 drains this entry to flue target 3. -/
def draining (c : EscCtx) (e : Entry) : State :=
  { world { life := { life .active with charter := { (life .active).charter with flues := [3] } }, esc := { c with curSeq := 9 } }
    with mir.entries := [(65535, { e with ctx := 15, st := .live, drainOwner := true })] }
def putOf (args : List Nat) : Outstanding :=
  { id := 5, msg := { dest := .node 15 3, op := .wrc, args := args } }
def port24 (p : Port) : State := { State.reset with ports := [(24, p)] }
def cw : Codeword :=
  { seq := 0, ack := 0, nack := false, idle := true, coinVc := 0, coins := 0, correctable := true, corrected := false, packets := [] }
def pkt : Packet :=
  { req := host, op := .msg, opKnown := true, vc := 1, space := 0, crcOk := true, tagOk := true, rsn := 1, bytes := 64 }
def hello : Hello :=
  { osfel := 3, role := 0, portIdx := 0, shape := 0, pos := 0, expect := 0, coord := 0, firmware := 0, packageEpoch := 0,
    topoDigest := 0, chain := [], ek := [], raw := [] }
def topoOf : Topo :=
  { pos := 1, coord := 0, revision := 3, firmware := 0, seq := 1, links := [], outOfService := false, flue := false }
def syncOf : SyncMsg := { hops := 0, seq := 2, root := 0, t2 := 0, prevSeq := 1, t3prev := 0, adj := 0 }
def wrOut : Outstanding := { id := 5, msg := { dest := .yobel 8, op := .wr, addr := 8 } }
def answered (address : Nat) (rq : Req) : KeptAnswer :=
  { path := rq.path, source := rq.source, reqId := rq.reqId, address := address,
    answer := { result := .ok, cause := 0, epoch := 0x00010000, data := [] }, time := 0 }
def releasing : State :=
  world { life := { life .quiesced with relUnits := [0], relBytes := Mem.write [] 8 (natLe 4 (State.releaseLength 1)) } }
/-- A link-local request of the peer of FP15. -/
def peerQ : Req := { mgmt with path := .port 24 }
/-- FP0 with 1,024 window writes held unanswered. -/
def held : WindowWrite := { req := host, ids := [] }
def fullPort : State := led .active { st := .filling, fillSource := 2, windowWrites := List.replicate 1024 held }
/-! ## WellFormed refuses a term for each check -/

theorem test_wf_stepRecordStore_off : (Instr.stepRecordStore mgmt .wr (2 ^ 44) 0 []).wf = false := by decide
theorem test_wf_stepRecordStore_len : (Instr.stepRecordStore mgmt .wr 0 65537 []).wf = false := by decide
theorem test_wf_contributionWrc_off : (Instr.contributionWrc mgmt .wr 0 (2 ^ 44) [] {}).wf = false := by decide
theorem test_wf_upwardBlockSend_b : (Instr.upwardBlockSend 0 0 1048576).wf = false := by decide
theorem test_wf_resultDelivery_c : (Instr.resultDelivery 0 0 0 64 0).wf = false := by decide
theorem test_wf_resendReceived_c : (Instr.resendReceived mgmt hdr 0 64).wf = false := by decide
theorem test_wf_shardLedgerWr_off : (Instr.shardLedgerWr mgmt .wr (2 ^ 44) 0 []).wf = false := by decide
theorem test_wf_shardLedgerWr_len : (Instr.shardLedgerWr mgmt .wr 0 65537 []).wf = false := by decide
theorem test_wf_fillPageRetry_page : (Instr.fillPageRetry 0 524288).wf = false := by decide
theorem test_wf_partnerDigestReceived_page : (Instr.partnerDigestReceived mgmt 0 524288 0 0 false 0).wf = false := by decide
theorem test_wf_partnerPageReceived_page : (Instr.partnerPageReceived mgmt 0 0 524288 0 .fill 0 0 []).wf = false := by decide
theorem test_wf_partnerPageReceived_off : (Instr.partnerPageReceived mgmt 0 0 0 0 .fill 0 (2 ^ 44) []).wf = false := by decide
theorem test_wf_digestWaitExpiry_page : (Instr.digestWaitExpiry 0 524288 0).wf = false := by decide
theorem test_wf_mirrorWindowRd_off : (Instr.mirrorWindowRd mgmt (2 ^ 44) 0).wf = false := by decide
theorem test_wf_mirrorWindowRd_len : (Instr.mirrorWindowRd mgmt 0 65537).wf = false := by decide
theorem test_wf_mirrorWindowWr_off : (Instr.mirrorWindowWr mgmt .wr (2 ^ 44) []).wf = false := by decide
theorem test_wf_slotLengthWr_off : (Instr.slotLengthWr mgmt .wr 0 (2 ^ 44) 0 []).wf = false := by decide
theorem test_wf_slotLengthWr_len : (Instr.slotLengthWr mgmt .wr 0 0 65537 []).wf = false := by decide
theorem test_wf_imageWrc_off : (Instr.imageWrc mgmt 0 (2 ^ 44) []).wf = false := by decide
theorem test_wf_hyperWr_off : (Instr.hyperWr mgmt .wr (2 ^ 44) 0 []).wf = false := by decide
theorem test_wf_hyperWr_len : (Instr.hyperWr mgmt .wr 0 65537 []).wf = false := by decide
theorem test_wf_yobelTagWrite_reg : (Instr.yobelTagWrite yreq 0 64 0).wf = false := by decide
theorem test_wf_yobelContribute_off : (Instr.yobelContribute 0 0 0 (2 ^ 44) [] none).wf = false := by decide
theorem test_wf_yobelResultWrc_off : (Instr.yobelResultWrc yreq .wr 0 (2 ^ 44) []).wf = false := by decide
theorem test_wf_yobelStatusWr_off : (Instr.yobelStatusWr yreq .wr (2 ^ 44) 0 []).wf = false := by decide
theorem test_wf_yobelStatusWr_len : (Instr.yobelStatusWr yreq .wr 0 65537 []).wf = false := by decide
theorem test_wf_yobelDirectoryWr_off : (Instr.yobelDirectoryWr yreq .wr (2 ^ 44) 0 []).wf = false := by decide
theorem test_wf_yobelDirectoryWr_len : (Instr.yobelDirectoryWr yreq .wr 0 65537 []).wf = false := by decide
theorem test_wf_yobelImageWrc_off : (Instr.yobelImageWrc yreq .wr 0 (2 ^ 44) []).wf = false := by decide
theorem test_wf_yobelSlotWr_off : (Instr.yobelSlotWr yreq .wr 0 (2 ^ 44) 0 []).wf = false := by decide
theorem test_wf_yobelSlotWr_len : (Instr.yobelSlotWr yreq .wr 0 0 65537 []).wf = false := by decide
theorem test_wf_statePortRd_off : (Instr.statePortRd yreq (2 ^ 44) 0).wf = false := by decide
theorem test_wf_statePortRd_len : (Instr.statePortRd yreq 0 65537).wf = false := by decide
theorem test_wf_statePortWr_off : (Instr.statePortWr yreq .wr (2 ^ 44) []).wf = false := by decide
theorem test_wf_charterWrc_off : (Instr.charterWrc mgmt .wr (2 ^ 44) 0 []).wf = false := by decide
theorem test_wf_charterWrc_len : (Instr.charterWrc mgmt .wr 0 65537 []).wf = false := by decide
theorem test_wf_keyRelease_off : (Instr.keyRelease mgmt .wr 0 (2 ^ 44) []).wf = false := by decide
theorem test_wf_drainAckReceived_page : (Instr.drainAckReceived mgmt 0 0 524288).wf = false := by decide
theorem test_wf_probeEchoReceived_stamp : (Instr.probeEchoReceived 0 (2 ^ 96)).wf = false := by decide
theorem test_wf_sgmiiDatagram_addr : (Instr.sgmiiDatagram mgmt .wr (2 ^ 48) 0 [] {}).wf = false := by decide
theorem test_wf_sgmiiDatagram_len : (Instr.sgmiiDatagram mgmt .wr 0 65537 [] {}).wf = false := by decide
theorem test_wf_registerWrite_offset : (Instr.registerWrite mgmt .wr (2 ^ 44) 0 [] {}).wf = false := by decide
theorem test_wf_registerWrite_len : (Instr.registerWrite mgmt .wr 0 65537 [] {}).wf = false := by decide
theorem test_wf_descriptorTableWr_off : (Instr.descriptorTableWr mgmt .wr (2 ^ 44) 0 []).wf = false := by decide
theorem test_wf_descriptorTableWr_len : (Instr.descriptorTableWr mgmt .wr 0 65537 []).wf = false := by decide
theorem test_wf_spillReceived_slot : (Instr.spillReceived mgmt 8192 none).wf = false := by decide
theorem test_wf_yblCtxNodeWrite_reg : (Instr.yblCtxNodeWrite yreq 0 (.block 64) 0).wf = false := by decide
theorem test_wf_unitErrorDetected_hearth : (Instr.unitErrorDetected (.hearth 0) 4 0 []).wf = false := by decide
theorem test_wf_unitErrorDetected_tray : (Instr.unitErrorDetected (.port 8) 8 0 []).wf = false := by decide
theorem test_wf_unitErrorDetected_fabric : (Instr.unitErrorDetected (.port 24) 4 0 []).wf = false := by decide
theorem test_wf_yobelClaimWrite_own : (Instr.yobelClaimWrite { yreq with other := some .wr } 0 0).wf = false := by decide
theorem test_wf_yobelResultWrc_any : (Instr.yobelResultWrc { yreq with other := some .rd } .wr 0 0 []).wf = false := by decide
theorem test_wf_statePortRd_own : (Instr.statePortRd { yreq with other := some .rd } 0 0).wf = false := by decide
theorem test_wf_statePortWr_op : (Instr.statePortWr yreq .rd 0 []).wf = false := by decide
theorem test_wf_yobelRemove_space : (Instr.yobelRemove { yreq with space := some 2 } 0 0 0).wf = false := by decide
theorem test_wf_yobelHold_op :
    (Instr.yobelHold yreq { slot := 0, page := 0, version := 0, digest := 0, op := some 4 }).wf = false := by decide
theorem test_wf_yblCtxNodeWrite_space : (Instr.yblCtxNodeWrite yreq 0 (.space (2 ^ 44)) 0).wf = false := by decide

/-- Spare blocks are left at first, whatever the size of a block. -/
theorem spare_left : State.reset.evr.spareUsed < State.spareTotal := by
  have h := Config.recorderBlock.isLt
  have e : State.spareTotal = 318767104 / (64 * (Config.recorderBlock.val + 1)) := by simp [State.spareTotal]
  rw [e]
  exact Nat.div_pos (by omega) (by omega)

/-! ## Witnesses of the statements' hypotheses -/

theorem witness_StepTakesFrontCommand_2 : ∃ (s : State),
    s.pending = [] :=
  ⟨State.reset, by decide⟩

theorem witness_KindlingEntriesBegin_2 : ∃ (held : Nat) (s : State),
    10000 ≤ held ∧ s.pwr.pgPilot = true :=
  ⟨10000, State.reset, by decide⟩
theorem witness_KindlingEntriesBegin_3 : ∃ (held : Nat) (_s : State),
    held < 10000 :=
  ⟨9999, State.reset, by decide⟩
theorem witness_KindlingEntriesBegin_4 : ∃ (s : State),
    s.kin.power = .railLost :=
  ⟨kinAt .railLost 7 0, by decide⟩
theorem witness_KindlingEntriesBegin_5 : ∃ (s : State),
    s.kin.power = .off :=
  ⟨kinAt .off 7 0, by decide⟩
theorem witness_KindlingEntriesBegin_6 : ∃ (rq : Req) (seq : BitVec 16) (s : State),
    s.served rq true .mgmt = true ∧ seq ≠ s.kin.cmdActed ∧ s.allEmpty = true :=
  ⟨mgmt, 1, State.reset, by decide⟩
theorem witness_KindlingEntriesBegin_7 : ∃ (rq : Req) (seq : BitVec 16) (s : State),
    s.served rq true .mgmt = true ∧ seq ≠ s.kin.cmdActed ∧ s.allEmpty = false :=
  ⟨mgmt, 1, inState .chartered, by decide⟩

theorem witness_PowerLossStopsEverything_1 : ∃ (s : State),
    s.pwr.pgPilot = true :=
  ⟨State.reset, by decide⟩
theorem witness_PowerLossStopsEverything_2 : ∃ (s : State),
    s.kin.power ≠ .off :=
  ⟨State.reset, by decide⟩
theorem witness_PowerLossStopsEverything_3 : ∃ (s : State),
    s.pwr.pgPilot = true :=
  ⟨State.reset, by decide⟩
theorem witness_PowerLossStopsEverything_4 : ∃ (r : Rail) (s : State),
    s.pwr.enabled r = true ∧ s.pwr.good r = true ∧ s.kin.power = .ready :=
  ⟨.serdes, State.reset, by decide⟩
theorem witness_PowerLossStopsEverything_5 : ∃ (r : Rail) (s : State),
    s.pwr.enabled r = true ∧ s.pwr.good r = true ∧ s.kin.power = .kindling ∧ s.kin.fails.toNat < 2 :=
  ⟨.hbm, kinAt .kindling 3 1, by decide⟩

theorem witness_RailSequenceFollowsPowerGoods_1 : ∃ (r : Rail) (s : State),
    s.pwr.enabled r = true ∧ s.kin.power = .kindling ∧ s.kin.stage = 3 :=
  ⟨.hbm, kinAt .kindling 3 0, by decide⟩
theorem witness_RailSequenceFollowsPowerGoods_2 : ∃ (r : Rail) (s : State),
    s.pwr.enabled r = true ∧ s.pwr.good r = false ∧ s.kin.power = .kindling ∧ s.kin.fails.toNat < 2 :=
  ⟨.core, { kinAt .kindling 3 1 with pwr.pgCore := false }, by decide⟩
theorem witness_RailSequenceFollowsPowerGoods_3 : ∃ (r : Rail) (_timeout : Bool) (s : State),
    s.pwr.enabled r = false ∧ s.pwr.goingOff = true ∧ s.kin.power ≠ .pilotOnly :=
  ⟨.serdes, true, { kinAt .off 3 0 with pwr.enSerdes := false, pwr.goingOff := true }, by decide⟩

theorem witness_KindlingStagesAdvance_1 : ∃ (rep : StageReport) (s : State),
    s.kin.power = .kindling ∧ s.kin.stage = 1 ∧ rep.romOk = true :=
  ⟨rep, kinAt .kindling 1 0, by decide⟩
theorem witness_KindlingStagesAdvance_2 : ∃ (rep : StageReport) (s : State),
    s.kin.power = .kindling ∧ s.kin.stage = 1 ∧ rep.romOk = false ∧ s.kin.fails.toNat < 2 :=
  ⟨{ rep with romOk := false }, kinAt .kindling 1 1, by decide⟩
theorem witness_KindlingStagesAdvance_3 : ∃ (rep : StageReport) (s : State),
    s.kin.power = .kindling ∧ s.kin.stage = 2 ∧ rep.selftest ≠ 0 ∧ 2 ≤ s.kin.fails.toNat :=
  ⟨rep, kinAt .kindling 2 2, by decide⟩
theorem witness_KindlingStagesAdvance_4 : ∃ (rep : StageReport) (s : State),
    s.kin.power = .kindling ∧ s.kin.stage = 3 ∧ s.railsUp = true ∧ rep.mpdOk = true ∧ (rep.ucie0 || rep.ucie1) = true :=
  ⟨rep, kinAt .kindling 3 0, by decide⟩
theorem witness_KindlingStagesAdvance_5 : ∃ (rep : StageReport) (s : State),
    s.kin.power = .kindling ∧ s.kin.stage = 4 ∧ ((List.range 8).filter fun i => rep.hbms.getLsbD i).length < 6 ∧
      s.kin.fails.toNat < 2 :=
  ⟨{ rep with hbms := 0x1F }, kinAt .kindling 4 1, by decide⟩
theorem witness_KindlingStagesAdvance_6 : ∃ (rep : StageReport) (s : State),
    s.kin.power = .kindling ∧ s.kin.stage = 4 ∧ 6 ≤ ((List.range 8).filter fun i => rep.hbms.getLsbD i).length :=
  ⟨rep, kinAt .kindling 4 0, by decide⟩
theorem witness_KindlingStagesAdvance_7 : ∃ (_rep : StageReport) (s : State),
    s.kin.power = .kindling ∧ s.kin.stage = 5 :=
  ⟨rep, kinAt .kindling 5 0, by decide⟩
theorem witness_KindlingStagesAdvance_8 : ∃ (_rep : StageReport) (s : State),
    s.kin.power = .kindling ∧ s.kin.stage = 6 ∧ s.portsSettled = true :=
  ⟨rep, kinAt .kindling 6 0, by decide⟩
theorem witness_KindlingStagesAdvance_9 : ∃ (_el : BitVec 16) (s : State),
    s.kin.power = .kindling ∧ s.kin.stage = 6 :=
  ⟨0xFFFF, kinAt .kindling 6 0, by decide⟩
theorem witness_KindlingStagesAdvance_10 : ∃ (whole : Bool) (_el : BitVec 16) (s : State),
    s.kin.power = .kindling ∧ (s.kin.stage ≠ 6 ∨ whole = true) ∧ s.kin.fails.toNat < 2 :=
  ⟨true, 1, kinAt .kindling 6 1, by decide⟩
theorem witness_KindlingStagesAdvance_11 : ∃ (s : State),
    s.kin.power = .retryWait :=
  ⟨kinAt .retryWait 1 1, by decide⟩

theorem witness_UpdateStagingCommands_1 : ∃ (rq : Req) (seq : BitVec 16) (s : State),
    s.served rq true .mgmt = true ∧ seq ≠ s.kin.cmdActed :=
  ⟨mgmt, 1, State.reset, by decide⟩
theorem witness_UpdateStagingCommands_2 : ∃ (rq : Req) (seq : BitVec 16) (s : State),
    s.served rq true .mgmt = true ∧ seq ≠ s.kin.cmdActed :=
  ⟨mgmt, 1, State.reset, by decide⟩
theorem witness_UpdateStagingCommands_3 : ∃ (rq : Req) (target : BitVec 3) (seq : BitVec 16) (_length : BitVec 32) (s : State),
    s.served rq true .mgmt = true ∧ seq ≠ s.kin.updActed ∧ target.toNat ≤ 2 ∧ s.kin.updState ≠ .busy :=
  ⟨mgmt, 2, 1, 64, State.reset, by decide⟩
theorem witness_UpdateStagingCommands_4 : ∃ (s : State),
    s.kin.updState = .busy :=
  ⟨upd .busy, by decide⟩
theorem witness_UpdateStagingCommands_5 : ∃ (s : State),
    s.kin.updState = .busy :=
  ⟨upd .busy, by decide⟩
theorem witness_UpdateStagingCommands_6 : ∃ (rq : Req) (_data : Word) (s : State),
    s.served rq true .mgmt = true ∧ s.keptAnswer rq 0x2830 = none ∧ s.kin.updState = .opened :=
  ⟨mgmt, 1, upd .opened, by decide⟩
theorem witness_UpdateStagingCommands_7 : ∃ (rq : Req) (_target : BitVec 3) (seq : BitVec 16) (_length : BitVec 32)
  (_good : Bool) (s : State),
    s.served rq true .mgmt = true ∧ seq ≠ s.kin.updActed ∧ s.kin.updState = .opened ∧ s.kin.updCount ≠ s.kin.updOpenLength :=
  ⟨mgmt, 0, 1, 0, true, { upd .opened with kin.updOpenLength := 8 }, by decide⟩
theorem witness_UpdateStagingCommands_8 : ∃ (rq : Req) (_target : BitVec 3) (seq : BitVec 16) (_length : BitVec 32) (s : State),
    s.served rq true .mgmt = true ∧ seq ≠ s.kin.updActed ∧ s.kin.updState = .opened ∧ s.kin.updCount = s.kin.updOpenLength ∧
      s.kin.updOpenTarget = 0 :=
  ⟨mgmt, 0, 1, 0, upd .opened, by decide⟩
theorem witness_UpdateStagingCommands_9 : ∃ (rq : Req) (_target : BitVec 3) (seq : BitVec 16) (_length : BitVec 32) (s : State),
    s.served rq true .mgmt = true ∧ seq ≠ s.kin.updActed ∧ s.kin.updState = .opened ∧ s.kin.updCount = s.kin.updOpenLength :=
  ⟨mgmt, 0, 1, 0, upd .opened, by decide⟩
theorem witness_UpdateStagingCommands_10 : ∃ (rq : Req) (_target : BitVec 3) (seq : BitVec 16) (_length : BitVec 32)
  (s : State),
    s.served rq true .mgmt = true ∧ seq ≠ s.kin.updActed ∧ s.kin.updState = .opened :=
  ⟨mgmt, 0, 1, 0, upd .opened, by decide⟩
theorem witness_UpdateStagingCommands_11 : ∃ (rq : Req) (_target : BitVec 3) (seq : BitVec 16) (_length : BitVec 32)
  (s : State),
    s.served rq true .mgmt = true ∧ seq ≠ s.kin.updActed ∧ s.kin.updState = .staged :=
  ⟨mgmt, 0, 1, 0, upd .staged, by decide⟩
theorem witness_UpdateStagingCommands_12 : ∃ (rq : Req) (_target : BitVec 3) (seq : BitVec 16) (_length : BitVec 32)
  (s : State),
    s.served rq true .mgmt = true ∧ seq ≠ s.kin.updActed ∧ s.kin.updState = .opened :=
  ⟨mgmt, 0, 1, 0, upd .opened, by decide⟩

theorem witness_ThrottlingAndPilotOnly_1 : ∃ (p : PowerSample) (s : State),
    (s.kin.power = .ready ∨ s.kin.power = .kindling ∧ 4 ≤ s.kin.stage) ∧
      (1600 ≤ p.junction.toInt ∨ 1000 * s.pwr.limit.toNat < p.mw.toNat) :=
  ⟨{ mw := 0, junction := 1600, hbmHot := false }, State.reset, by decide⟩
theorem witness_ThrottlingAndPilotOnly_2 : ∃ (p : PowerSample) (s : State),
    (s.kin.power = .ready ∨ s.kin.power = .kindling ∧ 4 ≤ s.kin.stage) ∧ s.pwr.active = true ∧ p.hbmHot = false ∧
      100 * p.mw.toNat ≤ 95000 * s.pwr.limit.toNat ∧ p.junction.toInt < 1552 :=
  ⟨{ mw := 1045000, junction := 1551, hbmHot := false }, { State.reset with pwr.active := true }, by decide⟩
theorem witness_ThrottlingAndPilotOnly_3 : ∃ (s : State),
    s.kin.power = .ready :=
  ⟨State.reset, by decide⟩
theorem witness_ThrottlingAndPilotOnly_4 : ∃ (s : State),
    s.kin.power = .ready ∧ (∀ q < 4, (s.region q).power = .off) ∧ (∀ p < 25, (s.port p).state = .down ∧
      (s.port p).downSince = none) :=
  ⟨{ State.reset with die.regions := [(0, { power := .off }), (1, { power := .off }), (2, { power := .off }), (3, { power := .off })] }, by decide⟩
theorem witness_ThrottlingAndPilotOnly_5 : ∃ (p : Fin 25) (s : State),
    s.kin.power = .pilotOnly ∧ (s.port p).enable = true :=
  ⟨24, { State.reset with kin.power := .pilotOnly, ports := [(24, { enable := true })] }, by decide⟩

theorem witness_ScalarInstructionsWriteTheirResult_1 : ∃ (h : Fin 77) (f : RFields) (s : State),
    s.rForm h 0x12 f { d := true, a := true, b := true } = true :=
  ⟨67, fr 0 31 1 2 0, eng (encR 0x12 (fr 0 31 1 2 0)) view, by decide⟩
theorem witness_ScalarInstructionsWriteTheirResult_2 : ∃ (h : Fin 77) (f : RFields) (s : State),
    s.rForm h 0x14 f { d := true, a := true, b := true } = true :=
  ⟨67, fr 0 31 1 2 0, eng (encR 0x14 (fr 0 31 1 2 0)) view, by decide⟩
theorem witness_ScalarInstructionsWriteTheirResult_3 : ∃ (h : Fin 77) (f : RFields) (s : State),
    s.rForm h 0x15 f { d := true, a := true, b := true } = true :=
  ⟨67, fr 0 31 1 2 0, eng (encR 0x15 (fr 0 31 1 2 0)) view, by decide⟩
theorem witness_ScalarInstructionsWriteTheirResult_4 : ∃ (h : Fin 77) (f : RFields) (s : State),
    s.rForm h 0x16 f { d := true, a := true, b := true } = true :=
  ⟨67, fr 0 31 1 2 0, eng (encR 0x16 (fr 0 31 1 2 0)) view, by decide⟩
theorem witness_ScalarInstructionsWriteTheirResult_5 : ∃ (h : Fin 77) (f : RFields) (s : State),
    s.rForm h 0x17 f { d := true, a := true, b := true } = true :=
  ⟨67, fr 0 31 1 2 0, eng (encR 0x17 (fr 0 31 1 2 0)) view, by decide⟩
theorem witness_ScalarInstructionsWriteTheirResult_6 : ∃ (h : Fin 77) (f : RFields) (s : State),
    s.rForm h 0x18 f { d := true, a := true, b := true } = true :=
  ⟨67, fr 0 31 1 2 0, eng (encR 0x18 (fr 0 31 1 2 0)) view, by decide⟩
theorem witness_ScalarInstructionsWriteTheirResult_7 : ∃ (h : Fin 77) (f : RFields) (s : State),
    s.rForm h 0x1B f { d := true, a := true, b := true } = true :=
  ⟨67, fr 0 31 1 2 0, eng (encR 0x1B (fr 0 31 1 2 0)) view, by decide⟩
theorem witness_ScalarInstructionsWriteTheirResult_8 : ∃ (h : Fin 77) (f : IFields) (s : State),
    s.iForm h 0x13 f true true false = true :=
  ⟨67, fi 0 31 1 0 0x80000000, eng (encI 0x13 (fi 0 31 1 0 0x80000000)) view, by decide⟩
theorem witness_ScalarInstructionsWriteTheirResult_9 : ∃ (h : Fin 77) (f : IFields) (s : State),
    s.iForm h 0x19 f true true false = true :=
  ⟨67, fi 0 31 1 0 0x80000000, eng (encI 0x19 (fi 0 31 1 0 0x80000000)) view, by decide⟩
theorem witness_ScalarInstructionsWriteTheirResult_10 : ∃ (h : Fin 77) (f : IFields) (s : State),
    s.iForm h 0x1A f true true false = true :=
  ⟨67, fi 0 31 1 0 0x80000000, eng (encI 0x1A (fi 0 31 1 0 0x80000000)) view, by decide⟩
theorem witness_ScalarInstructionsWriteTheirResult_11 : ∃ (h : Fin 77) (f : IFields) (s : State),
    s.iForm h 0x10 f true false false = true :=
  ⟨67, fi 0 31 0 0 0x80000000, eng (encI 0x10 (fi 0 31 0 0 0x80000000)) view, by decide⟩
theorem witness_ScalarInstructionsWriteTheirResult_12 : ∃ (h : Fin 77) (f : IFields) (s : State),
    s.iForm h 0x11 f true false false = true :=
  ⟨67, fi 0 31 0 0 0x80000000, eng (encI 0x11 (fi 0 31 0 0 0x80000000)) view, by decide⟩

theorem witness_ControlFlowInstructions_1 : ∃ (h : Fin 77) (f : RFields) (s : State),
    s.rForm h 0x00 f {} = true :=
  ⟨67, fr 0 0 0 0 0, eng (encR 0x00 (fr 0 0 0 0 0)) view, by decide⟩
theorem witness_ControlFlowInstructions_2 : ∃ (h : Fin 77) (f : IFields) (s : State),
    s.iForm h 0x04 f false false false = true :=
  ⟨67, fi 0 0 0 0 0x80000000, eng (encI 0x04 (fi 0 0 0 0 0x80000000)) view, by decide⟩
theorem witness_ControlFlowInstructions_3 : ∃ (h : Fin 77) (f : IFields) (s : State),
    s.iForm h 0x05 f false true true = true :=
  ⟨67, fi 0 0 1 2 0x80000000, eng (encI 0x05 (fi 0 0 1 2 0x80000000)) view, by decide⟩
theorem witness_ControlFlowInstructions_4 : ∃ (h : Fin 77) (f : IFields) (s : State),
    s.iForm h 0x06 f false true true = true :=
  ⟨67, fi 0 0 1 2 0x80000000, eng (encI 0x06 (fi 0 0 1 2 0x80000000)) view, by decide⟩
theorem witness_ControlFlowInstructions_5 : ∃ (h : Fin 77) (f : IFields) (s : State),
    s.iForm h 0x07 f false true true = true :=
  ⟨67, fi 0 0 1 2 0x80000000, eng (encI 0x07 (fi 0 0 1 2 0x80000000)) view, by decide⟩
theorem witness_ControlFlowInstructions_6 : ∃ (h : Fin 77) (f : IFields) (s : State),
    s.iForm h 0x08 f false true true = true :=
  ⟨67, fi 0 0 1 2 0x80000000, eng (encI 0x08 (fi 0 0 1 2 0x80000000)) view, by decide⟩
theorem witness_ControlFlowInstructions_7 : ∃ (h : Fin 77) (f : IFields) (s : State),
    s.iForm h 0x09 f true false false = true ∧ f.imm.toNat ≤ 4 :=
  ⟨67, fi 0 31 0 0 4, eng (encI 0x09 (fi 0 31 0 0 4)), by decide⟩
theorem witness_ControlFlowInstructions_8 : ∃ (h : Fin 77) (f : IFields) (s : State),
    s.iForm h 0x09 f true false false = true ∧ 4 < f.imm.toNat ∧ s.undisturbed h = true :=
  ⟨67, fi 0 31 0 0 5, eng (encI 0x09 (fi 0 31 0 0 5)), by decide⟩
theorem witness_ControlFlowInstructions_9 : ∃ (h : Fin 77) (f : IFields) (s : State),
    s.iForm h 0x0A f false true false = true ∧ f.imm = 0 :=
  ⟨67, fi 0 0 1 0 0, eng (encI 0x0A (fi 0 0 1 0 0)), by decide⟩
theorem witness_ControlFlowInstructions_10 : ∃ (h : Fin 77) (f : IFields) (s : State),
    s.iForm h 0x0A f false true false = true ∧ f.imm = 1 :=
  ⟨67, fi 0 0 1 0 1, eng (encI 0x0A (fi 0 0 1 0 1)), by decide⟩
theorem witness_ControlFlowInstructions_11 : ∃ (h : Fin 77) (f : IFields) (s : State),
    s.iForm h 0x0A f false true false = true ∧ 1 < f.imm.toNat ∧ s.undisturbed h = true :=
  ⟨67, fi 0 0 1 0 2, eng (encI 0x0A (fi 0 0 1 0 2)), by decide⟩

theorem witness_LoadsAndStores_1 : ∃ (h : Fin 77) (f : IFields) (s : State),
    s.iForm h 0x1C f true true false = true ∧ viewOk (s.engine h) ((s.engine h).addr f) 8 = true ∧
      ((s.engine h).addr f).toNat % 8 = 0 :=
  ⟨67, fi 0 31 1 0 8, eng (encI 0x1C (fi 0 31 1 0 8)) view, by decide⟩
theorem witness_LoadsAndStores_2 : ∃ (h : Fin 77) (f : IFields) (s : State),
    s.iForm h 0x1C f true true false = true ∧ s.undisturbed h = true :=
  ⟨67, fi 0 31 1 0 4194297, eng (encI 0x1C (fi 0 31 1 0 4194297)) view, by decide⟩
theorem witness_LoadsAndStores_3 : ∃ (h : Fin 77) (f : IFields) (s : State),
    s.iForm h 0x1D f false true true = true ∧ viewOk (s.engine h) ((s.engine h).addr f) 8 = true ∧ viewWritable (s.engine h)
      ((s.engine h).addr f) = true ∧ ((s.engine h).addr f).toNat % 8 = 0 ∧ storeRoom (s.engine h) 8 = true :=
  ⟨67, fi 0 0 1 2 4194296, eng (encI 0x1D (fi 0 0 1 2 4194296)) { view with stored := 1048568 }, by decide⟩
theorem witness_LoadsAndStores_4 : ∃ (h : Fin 77) (f : IFields) (s : State),
    s.iForm h 0x1D f false true true = true ∧ s.undisturbed h = true :=
  ⟨67, fi 0 0 1 2 4, eng (encI 0x1D (fi 0 0 1 2 4)) view, by decide⟩
theorem witness_LoadsAndStores_5 : ∃ (h : Fin 77) (f : IFields) (s : State),
    s.standsAt h (encI 0x21 f) = true ∧ iFieldsOk f true true true = true ∧ typeOk f.ty = true ∧ vlOk (s.engine h)
      (fmtWidth f.ty.toNat) = true ∧ (∀ i, i < (s.engine h).vlN → viewOk (s.engine h)
      ((s.engine h).addrAt f (fmtWidth f.ty.toNat / 8) i) (fmtWidth f.ty.toNat / 8) = true) :=
  ⟨67, fi 4 31 1 2 4194301, eng (encI 0x21 (fi 4 31 1 2 4194301)) view, by decide⟩
theorem witness_LoadsAndStores_6 : ∃ (h : Fin 77) (f : IFields) (s : State),
    s.standsAt h (encI 0x22 f) = true ∧ iFieldsOk f true true true = true ∧ typeOk f.ty = true ∧ vlOk (s.engine h)
      (fmtWidth f.ty.toNat) = true ∧ (∀ i, i < (s.engine h).vlN → viewOk (s.engine h)
      ((s.engine h).addrAt f (fmtWidth f.ty.toNat / 8) i) (fmtWidth f.ty.toNat / 8) = true ∧ viewWritable (s.engine h)
      ((s.engine h).addrAt f (fmtWidth f.ty.toNat / 8) i) = true) ∧ storeRoom (s.engine h)
      ((s.engine h).vlN * (fmtWidth f.ty.toNat / 8)) = true :=
  ⟨67, fi 4 31 1 2 4194301, eng (encI 0x22 (fi 4 31 1 2 4194301)) view, by decide⟩
theorem witness_LoadsAndStores_7 : ∃ (h : Fin 77) (f : IFields) (s : State),
    s.standsAt h (encI 0x60 f) = true ∧ iFieldsOk f true true true = true ∧ typeOk f.ty = true ∧ lowReg f.d = true ∧
      (∀ i, i < 64 → viewOk (s.engine h) ((s.engine h).addrAt f 1 i) (8 * fmtWidth f.ty.toNat) = true) :=
  ⟨67, fi 2 7 1 0 0, eng (encI 0x60 (fi 2 7 1 0 0)) view, by decide⟩
theorem witness_LoadsAndStores_8 : ∃ (h : Fin 77) (f : IFields) (s : State),
    s.standsAt h (encI 0x61 f) = true ∧ iFieldsOk f true true true = true ∧ typeOk f.ty = true ∧ lowReg f.d = true ∧
      (∀ i, i < 64 → viewOk (s.engine h) ((s.engine h).addrAt f 1 i) (8 * fmtWidth f.ty.toNat) = true ∧
      viewWritable (s.engine h) ((s.engine h).addrAt f 1 i) = true) ∧ storeRoom (s.engine h)
      (4096 * (fmtWidth f.ty.toNat / 8)) = true :=
  ⟨67, fi 2 7 1 0 0, eng (encI 0x61 (fi 2 7 1 0 0)) view, by decide⟩
theorem witness_LoadsAndStores_9 : ∃ (h : Fin 77) (f : IFields) (s : State),
    iFieldsOk f true true true = true ∧ typeOk f.ty = true ∧ s.undisturbed h = true :=
  ⟨67, fi 4 31 1 2 0, eng (encI 0x21 (fi 4 31 1 2 0)) view, by decide⟩

theorem witness_IntegerVectorInstructions_1 : ∃ (h : Fin 77) (f : RFields) (s : State),
    s.vecForm h 0x48 f { d := true, a := true, b := true } = true :=
  ⟨67, fr 4 31 1 2 0, eng (encR 0x48 (fr 4 31 1 2 0)) view, by decide⟩
theorem witness_IntegerVectorInstructions_2 : ∃ (h : Fin 77) (f : RFields) (s : State),
    s.vecForm h 0x49 f { d := true, a := true, b := true } = true :=
  ⟨67, fr 4 31 1 2 0, eng (encR 0x49 (fr 4 31 1 2 0)) view, by decide⟩
theorem witness_IntegerVectorInstructions_3 : ∃ (h : Fin 77) (f : RFields) (s : State),
    s.vecForm h 0x4A f { d := true, a := true, b := true } = true :=
  ⟨67, fr 4 31 1 2 0, eng (encR 0x4A (fr 4 31 1 2 0)) view, by decide⟩
theorem witness_IntegerVectorInstructions_4 : ∃ (h : Fin 77) (f : RFields) (s : State),
    s.vecForm h 0x4B f { d := true, a := true, b := true, c := true } = true :=
  ⟨67, fr 4 31 1 2 3, eng (encR 0x4B (fr 4 31 1 2 3)) view, by decide⟩
theorem witness_IntegerVectorInstructions_5 : ∃ (h : Fin 77) (f : RFields) (s : State),
    s.vecForm h 0x4C f { d := true, a := true, b := true } = true :=
  ⟨67, fr 4 31 1 2 0, eng (encR 0x4C (fr 4 31 1 2 0)) view, by decide⟩
theorem witness_IntegerVectorInstructions_6 : ∃ (h : Fin 77) (f : RFields) (s : State),
    s.vecForm h 0x23 f { d := true, a := true } = true :=
  ⟨67, fr 4 31 1 0 0, eng (encR 0x23 (fr 4 31 1 0 0)) view, by decide⟩
theorem witness_IntegerVectorInstructions_7 : ∃ (h : Fin 77) (f : RFields) (s : State),
    s.rForm h 0x50 f { d := true, a := true, b := true } = true ∧ vlOk (s.engine h) 32 = true :=
  ⟨67, fr 0 31 1 2 0, eng (encR 0x50 (fr 0 31 1 2 0)) { view with regs.vl := 512 }, by decide⟩
theorem witness_IntegerVectorInstructions_8 : ∃ (h : Fin 77) (f : RFields) (s : State),
    s.standsAt h (encR 0x20 f) = true ∧ rFieldsOk f { d := true, a := true } = true ∧ typeOk f.ty = true :=
  ⟨67, fr 4 31 1 0 0, eng (encR 0x20 (fr 4 31 1 0 0)), by decide⟩
theorem witness_IntegerVectorInstructions_9 : ∃ (h : Fin 77) (f : RFields) (s : State),
    s.vecForm h 0x4D f { d := true, a := true } = true ∧ (s.engine h).vlN ≠ 0 :=
  ⟨67, fr 1 31 1 0 0, eng (encR 0x4D (fr 1 31 1 0 0)) { view with regs.vl := 1024 }, by decide⟩
theorem witness_IntegerVectorInstructions_10 : ∃ (h : Fin 77) (f : RFields) (s : State),
    s.vecForm h 0x4D f { d := true, a := true } = true ∧ (s.engine h).vlN = 0 :=
  ⟨67, fr 1 31 1 0 0, eng (encR 0x4D (fr 1 31 1 0 0)), by decide⟩

theorem witness_FloatVectorInstructions_1 : ∃ (h : Fin 77) (f : RFields) (s : State),
    s.vecForm h 0x30 f { d := true, a := true, b := true } = true :=
  ⟨67, fr 4 31 1 2 0, eng (encR 0x30 (fr 4 31 1 2 0)) view, by decide⟩
theorem witness_FloatVectorInstructions_2 : ∃ (h : Fin 77) (f : RFields) (s : State),
    s.vecForm h 0x31 f { d := true, a := true, b := true } = true :=
  ⟨67, fr 4 31 1 2 0, eng (encR 0x31 (fr 4 31 1 2 0)) view, by decide⟩
theorem witness_FloatVectorInstructions_3 : ∃ (h : Fin 77) (f : RFields) (s : State),
    s.vecForm h 0x32 f { d := true, a := true, b := true } = true :=
  ⟨67, fr 4 31 1 2 0, eng (encR 0x32 (fr 4 31 1 2 0)) view, by decide⟩
theorem witness_FloatVectorInstructions_4 : ∃ (h : Fin 77) (f : RFields) (s : State),
    s.vecForm h 0x33 f { d := true, a := true, b := true } = true :=
  ⟨67, fr 4 31 1 2 0, eng (encR 0x33 (fr 4 31 1 2 0)) view, by decide⟩
theorem witness_FloatVectorInstructions_5 : ∃ (h : Fin 77) (f : RFields) (s : State),
    s.vecForm h 0x34 f { d := true, a := true, b := true, c := true } = true :=
  ⟨67, fr 4 31 1 2 3, eng (encR 0x34 (fr 4 31 1 2 3)) view, by decide⟩
theorem witness_FloatVectorInstructions_6 : ∃ (h : Fin 77) (f : RFields) (s : State),
    s.vecForm h 0x35 f { d := true, a := true, b := true, c := true } = true :=
  ⟨67, fr 4 31 1 2 3, eng (encR 0x35 (fr 4 31 1 2 3)) view, by decide⟩
theorem witness_FloatVectorInstructions_7 : ∃ (h : Fin 77) (f : RFields) (s : State),
    s.vecForm h 0x36 f { d := true, a := true, b := true, c := true } = true :=
  ⟨67, fr 4 31 1 2 3, eng (encR 0x36 (fr 4 31 1 2 3)) view, by decide⟩
theorem witness_FloatVectorInstructions_8 : ∃ (h : Fin 77) (f : RFields) (s : State),
    s.vecForm h 0x37 f { d := true, a := true } = true :=
  ⟨67, fr 4 31 1 0 0, eng (encR 0x37 (fr 4 31 1 0 0)) view, by decide⟩
theorem witness_FloatVectorInstructions_9 : ∃ (h : Fin 77) (f : RFields) (s : State),
    s.vecForm h 0x38 f { d := true, a := true } = true :=
  ⟨67, fr 4 31 1 0 0, eng (encR 0x38 (fr 4 31 1 0 0)) view, by decide⟩
theorem witness_FloatVectorInstructions_10 : ∃ (h : Fin 77) (f : RFields) (s : State),
    s.vecForm h 0x39 f { d := true, a := true, b := true } = true :=
  ⟨67, fr 4 31 1 2 0, eng (encR 0x39 (fr 4 31 1 2 0)) view, by decide⟩
theorem witness_FloatVectorInstructions_11 : ∃ (h : Fin 77) (f : RFields) (s : State),
    s.vecForm h 0x3A f { d := true, a := true, b := true } = true :=
  ⟨67, fr 4 31 1 2 0, eng (encR 0x3A (fr 4 31 1 2 0)) view, by decide⟩
theorem witness_FloatVectorInstructions_12 : ∃ (h : Fin 77) (f : RFields) (s : State),
    s.vecForm h 0x3B f { d := true, a := true } = true :=
  ⟨67, fr 4 31 1 0 0, eng (encR 0x3B (fr 4 31 1 0 0)) view, by decide⟩
theorem witness_FloatVectorInstructions_13 : ∃ (h : Fin 77) (f : RFields) (s : State),
    s.vecForm h 0x3C f { d := true, a := true } = true :=
  ⟨67, fr 4 31 1 0 0, eng (encR 0x3C (fr 4 31 1 0 0)) view, by decide⟩
theorem witness_FloatVectorInstructions_14 : ∃ (h : Fin 77) (f : RFields) (s : State),
    s.vecForm h 0x3E f { d := true, a := true, b := true } = true :=
  ⟨67, fr 4 31 1 2 0, eng (encR 0x3E (fr 4 31 1 2 0)) view, by decide⟩
theorem witness_FloatVectorInstructions_15 : ∃ (h : Fin 77) (f : RFields) (s : State),
    s.vecForm h 0x3F f { d := true, a := true, b := true } = true :=
  ⟨67, fr 4 31 1 2 0, eng (encR 0x3F (fr 4 31 1 2 0)) view, by decide⟩
theorem witness_FloatVectorInstructions_16 : ∃ (h : Fin 77) (f : RFields) (s : State),
    s.vecForm h 0x40 f { d := true, a := true, b := true } = true :=
  ⟨67, fr 4 31 1 2 0, eng (encR 0x40 (fr 4 31 1 2 0)) view, by decide⟩
theorem witness_FloatVectorInstructions_17 : ∃ (h : Fin 77) (f : RFields) (s : State),
    s.vecForm h 0x41 f { d := true, a := true } = true :=
  ⟨67, fr 4 31 1 0 0, eng (encR 0x41 (fr 4 31 1 0 0)) view, by decide⟩
theorem witness_FloatVectorInstructions_18 : ∃ (h : Fin 77) (f : RFields) (s : State),
    s.vecForm h 0x3D f { d := true, a := true, c := true } = true ∧ f.c.toNat ≤ 4 ∧ vlOk (s.engine h)
      (fmtWidth f.c.toNat) = true :=
  ⟨67, fr 0 31 1 0 4, eng (encR 0x3D (fr 0 31 1 0 4)) view, by decide⟩

theorem witness_AccumulatorAndTileInstructions_1 : ∃ (h : Fin 77) (f : RFields) (s : State),
    s.rForm h 0x58 f { c := true } = true ∧ lowReg f.c = true :=
  ⟨67, fr 0 0 0 0 7, eng (encR 0x58 (fr 0 0 0 0 7)), by decide⟩
theorem witness_AccumulatorAndTileInstructions_2 : ∃ (h : Fin 77) (f : RFields) (s : State),
    s.vecForm h 0x59 f { a := true, c := true } = true ∧ lowReg f.c = true :=
  ⟨67, fr 4 0 1 0 7, eng (encR 0x59 (fr 4 0 1 0 7)) view, by decide⟩
theorem witness_AccumulatorAndTileInstructions_3 : ∃ (h : Fin 77) (f : RFields) (s : State),
    s.standsAt h (encR 0x5A f) = true ∧ rFieldsOk f { d := true, c := true } = true ∧ typeOk f.ty = true ∧ lowReg f.c = true :=
  ⟨67, fr 4 31 0 0 7, eng (encR 0x5A (fr 4 31 0 0 7)), by decide⟩
theorem witness_AccumulatorAndTileInstructions_4 : ∃ (h : Fin 77) (f : RFields) (s : State),
    s.rForm h 0x62 f { d := true } = true ∧ lowReg f.d = true :=
  ⟨67, fr 0 7 0 0 0, eng (encR 0x62 (fr 0 7 0 0 0)), by decide⟩
theorem witness_AccumulatorAndTileInstructions_5 : ∃ (h : Fin 77) (f : RFields) (s : State),
    s.standsAt h (encR 0x64 f) = true ∧ rFieldsOk f { d := true, a := true, axis := true } = true ∧ typeOk f.ty = true ∧
      lowReg f.a = true :=
  ⟨67, fr 4 31 7 0 0, eng (encR 0x64 (fr 4 31 7 0 0)), by decide⟩
theorem witness_AccumulatorAndTileInstructions_6 : ∃ (h : Fin 77) (f : RFields) (s : State),
    s.standsAt h (encR 0x63 f) = true ∧ rFieldsOk f { d := true, a := true, b := true } = true ∧
      (f.ty = 1 ∨ f.ty = 3 ∨ f.ty = 4) ∧ lowReg f.d = true ∧ lowReg f.a = true ∧ lowReg f.b = true :=
  ⟨67, fr 4 7 6 5 0, eng (encR 0x63 (fr 4 7 6 5 0)), by decide⟩

theorem witness_SectionsAndRunsEnd_1 : ∃ (h : Fin 77) (f : RFields) (_ch : Nat) (k : Fin 9) (slot : BitVec 12) (s : State),
    s.standsAt h (encR 0x01 f) = true ∧ rFieldsOk f {} = true ∧ f.ty = 0 ∧ (s.engine h).sect.serial = true ∧
      (s.engine h).copy = .yobel k slot ∧ s.undisturbed h = true :=
  ⟨67, fr 0 0 0 0 0, 0, 8, 4095, eng (encR 0x01 (fr 0 0 0 0 0)) { view with copy := .yobel 8 4095 }, by decide⟩
theorem witness_SectionsAndRunsEnd_2 : ∃ (h : Fin 77) (f : RFields) (_ch : Nat) (i : BitVec 16) (s : State),
    s.standsAt h (encR 0x01 f) = true ∧ rFieldsOk f {} = true ∧ f.ty = 0 ∧ (s.engine h).sect.serial = true ∧
      (s.engine h).copy = .mirror i ∧ s.undisturbed h = true ∧
      (s.begin.cowPages (s.engine h).ctx i.toNat (s.engine h).storedPages).isSome = true :=
  ⟨67, fr 0 0 0 0 0, 0, 65535, eng (encR 0x01 (fr 0 0 0 0 0)) { view with copy := .mirror 65535 }, by decide⟩
theorem witness_SectionsAndRunsEnd_3 : ∃ (h : Fin 77) (f : RFields) (_ch : Nat) (k : Fin 9) (slot : BitVec 12) (s : State),
    s.standsAt h (encR 0x02 f) = true ∧ rFieldsOk f {} = true ∧ f.ty = 0 ∧ (s.engine h).sect.serial = true ∧
      (s.engine h).copy = .yobel k slot ∧ s.undisturbed h = true ∧ (s.engine h).after (s.engine h).sect = none :=
  ⟨67, fr 0 0 0 0 0, 0, 8, 4095, eng (encR 0x02 (fr 0 0 0 0 0)) { view with copy := .yobel 8 4095 }, by decide⟩
theorem witness_SectionsAndRunsEnd_4 : ∃ (h : Fin 77) (f : RFields) (_ch : Nat) (k : Fin 9) (slot : BitVec 12) (sec : Section)
  (s : State),
    s.standsAt h (encR 0x02 f) = true ∧ rFieldsOk f {} = true ∧ f.ty = 0 ∧ (s.engine h).sect.serial = true ∧
      (s.engine h).copy = .yobel k slot ∧ s.undisturbed h = true ∧ (s.engine h).after (s.engine h).sect = some sec ∧
      sec.serial = true :=
  ⟨67, fr 0 0 0 0 0, 0, 8, 4095, .post,
    eng (encR 0x02 (fr 0 0 0 0 0)) { view .mid with copy := .yobel 8 4095, hdr.entries := [1, 0xFFFFFFFF, 1, 0xFFFFFFFF, 0] },
    by decide⟩
theorem witness_SectionsAndRunsEnd_5 : ∃ (h : Fin 77) (f : RFields) (_ch : Nat) (i : BitVec 16) (sec : Section) (s : State),
    s.standsAt h (encR 0x02 f) = true ∧ rFieldsOk f {} = true ∧ f.ty = 0 ∧ (s.engine h).sect.serial = true ∧
      (s.engine h).copy = .mirror i ∧ s.undisturbed h = true ∧
      (s.begin.cowPages (s.engine h).ctx i.toNat (s.engine h).storedPages).isSome = true ∧
      (s.engine h).after (s.engine h).sect = some sec ∧ sec.serial = true :=
  ⟨67, fr 0 0 0 0 0, 0, 65535, .post,
    eng (encR 0x02 (fr 0 0 0 0 0)) { view .mid with copy := .mirror 65535, hdr.entries := [1, 0xFFFFFFFF, 1, 0xFFFFFFFF, 0] },
    by decide⟩
theorem witness_SectionsAndRunsEnd_6 : ∃ (h : Fin 77) (f : IFields) (s : State),
    s.iForm h 0x03 f false false false = true ∧ s.undisturbed h = true ∧ (s.engine h).sect.serial = true :=
  ⟨67, fi 0 0 0 0 0xFFFF, eng (encI 0x03 (fi 0 0 0 0 0xFFFF)), by decide⟩
theorem witness_SectionsAndRunsEnd_7 : ∃ (h : Fin 77) (s : State),
    (s.engine h).running = true ∧ (s.engine h).hdr.insnLimit ≤ (s.engine h).icount ∧ s.goesOn h = true ∧
      s.undisturbed h = true ∧ (s.engine h).sect.serial = true :=
  ⟨67, eng 0 { view with icount := 1 }, by decide⟩
theorem witness_SectionsAndRunsEnd_8 : ∃ (h : Fin 77) (s : State),
    (s.engine h).running = true ∧ (s.engine h).hdr.insnLimit ≤ (s.engine h).icount ∧ s.goesOn h = true ∧
      s.undisturbed h = true ∧ (s.engine h).sect.serial = false ∧ (s.engine h).faulted = none ∧
      (s.engine h).done.length + 1 < (s.engine h).instances (s.engine h).sect :=
  ⟨67, eng 0 { view .sweep with icount := 1, hdr.sweepGrain := 1, hyper := [(0, 2)] }, by decide⟩
theorem witness_SectionsAndRunsEnd_9 : ∃ (h : Fin 77) (f : IFields) (s : State),
    s.standsAt h (encI 0x03 f) = true ∧ s.undisturbed h = false :=
  ⟨67, fi 0 0 0 0 0, eng (encI 0x03 (fi 0 0 0 0 0)) { stale := true }, by decide⟩
theorem witness_SectionsAndRunsEnd_10 : ∃ (h : Fin 77) (f : RFields) (_ch : Nat) (s : State),
    s.standsAt h (encR 0x01 f) = true ∧ s.undisturbed h = false :=
  ⟨67, fr 0 0 0 0 0, 0, eng (encR 0x01 (fr 0 0 0 0 0)) { stale := true }, by decide⟩
theorem witness_SectionsAndRunsEnd_11 : ∃ (h : Fin 77) (f : RFields) (s : State),
    (s.engine h).running = true ∧ (s.engine h).fetch = some (encR 0x00 f) ∧ s.goesOn h = false :=
  ⟨67, fr 0 0 0 0 0,
    { eng (encR 0x00 (fr 0 0 0 0 0)) { copy := .yobel 8 4095, awaits := [0] } with yobels := [(8, { slots := [(4095, { holds := [(0, 0)] })] })] }, by decide⟩

theorem witness_InstructionCommandsRunTheDecodedWord_1 : ∃ (h : Fin 77) (f : RFields) (s : State),
    (s.engine h).running = true ∧ (s.engine h).fetch = some (encR 0x00 f) :=
  ⟨67, fr 15 31 31 31 31, eng (encR 0x00 (fr 15 31 31 31 31)), by decide⟩
theorem witness_InstructionCommandsRunTheDecodedWord_2 : ∃ (h : Fin 77) (f : IFields) (s : State),
    (s.engine h).running = true ∧ (s.engine h).fetch = some (encI 0x03 f) :=
  ⟨67, fi 15 31 31 31 0xFFFFFFFF, eng (encI 0x03 (fi 15 31 31 31 0xFFFFFFFF)), by decide⟩
theorem witness_InstructionCommandsRunTheDecodedWord_3 : ∃ (h : Fin 77) (f : IFields) (s : State),
    (s.engine h).running = true ∧ (s.engine h).fetch = some (encI 0x04 f) :=
  ⟨67, fi 15 31 31 31 0xFFFFFFFF, eng (encI 0x04 (fi 15 31 31 31 0xFFFFFFFF)), by decide⟩
theorem witness_InstructionCommandsRunTheDecodedWord_4 : ∃ (h : Fin 77) (f : IFields) (s : State),
    (s.engine h).running = true ∧ (s.engine h).fetch = some (encI 0x05 f) :=
  ⟨67, fi 15 31 31 31 0xFFFFFFFF, eng (encI 0x05 (fi 15 31 31 31 0xFFFFFFFF)), by decide⟩
theorem witness_InstructionCommandsRunTheDecodedWord_5 : ∃ (h : Fin 77) (f : IFields) (s : State),
    (s.engine h).running = true ∧ (s.engine h).fetch = some (encI 0x06 f) :=
  ⟨67, fi 15 31 31 31 0xFFFFFFFF, eng (encI 0x06 (fi 15 31 31 31 0xFFFFFFFF)), by decide⟩
theorem witness_InstructionCommandsRunTheDecodedWord_6 : ∃ (h : Fin 77) (f : IFields) (s : State),
    (s.engine h).running = true ∧ (s.engine h).fetch = some (encI 0x07 f) :=
  ⟨67, fi 15 31 31 31 0xFFFFFFFF, eng (encI 0x07 (fi 15 31 31 31 0xFFFFFFFF)), by decide⟩
theorem witness_InstructionCommandsRunTheDecodedWord_7 : ∃ (h : Fin 77) (f : IFields) (s : State),
    (s.engine h).running = true ∧ (s.engine h).fetch = some (encI 0x08 f) :=
  ⟨67, fi 15 31 31 31 0xFFFFFFFF, eng (encI 0x08 (fi 15 31 31 31 0xFFFFFFFF)), by decide⟩
theorem witness_InstructionCommandsRunTheDecodedWord_8 : ∃ (h : Fin 77) (f : IFields) (s : State),
    (s.engine h).running = true ∧ (s.engine h).fetch = some (encI 0x09 f) :=
  ⟨67, fi 15 31 31 31 0xFFFFFFFF, eng (encI 0x09 (fi 15 31 31 31 0xFFFFFFFF)), by decide⟩
theorem witness_InstructionCommandsRunTheDecodedWord_9 : ∃ (h : Fin 77) (f : IFields) (s : State),
    (s.engine h).running = true ∧ (s.engine h).fetch = some (encI 0x0A f) :=
  ⟨67, fi 15 31 31 31 0xFFFFFFFF, eng (encI 0x0A (fi 15 31 31 31 0xFFFFFFFF)), by decide⟩
theorem witness_InstructionCommandsRunTheDecodedWord_10 : ∃ (h : Fin 77) (f : IFields) (s : State),
    (s.engine h).running = true ∧ (s.engine h).fetch = some (encI 0x10 f) :=
  ⟨67, fi 15 31 31 31 0xFFFFFFFF, eng (encI 0x10 (fi 15 31 31 31 0xFFFFFFFF)), by decide⟩
theorem witness_InstructionCommandsRunTheDecodedWord_11 : ∃ (h : Fin 77) (f : IFields) (s : State),
    (s.engine h).running = true ∧ (s.engine h).fetch = some (encI 0x11 f) :=
  ⟨67, fi 15 31 31 31 0xFFFFFFFF, eng (encI 0x11 (fi 15 31 31 31 0xFFFFFFFF)), by decide⟩
theorem witness_InstructionCommandsRunTheDecodedWord_12 : ∃ (h : Fin 77) (f : RFields) (s : State),
    (s.engine h).running = true ∧ (s.engine h).fetch = some (encR 0x12 f) :=
  ⟨67, fr 15 31 31 31 31, eng (encR 0x12 (fr 15 31 31 31 31)), by decide⟩
theorem witness_InstructionCommandsRunTheDecodedWord_13 : ∃ (h : Fin 77) (f : IFields) (s : State),
    (s.engine h).running = true ∧ (s.engine h).fetch = some (encI 0x13 f) :=
  ⟨67, fi 15 31 31 31 0xFFFFFFFF, eng (encI 0x13 (fi 15 31 31 31 0xFFFFFFFF)), by decide⟩
theorem witness_InstructionCommandsRunTheDecodedWord_14 : ∃ (h : Fin 77) (f : RFields) (s : State),
    (s.engine h).running = true ∧ (s.engine h).fetch = some (encR 0x14 f) :=
  ⟨67, fr 15 31 31 31 31, eng (encR 0x14 (fr 15 31 31 31 31)), by decide⟩
theorem witness_InstructionCommandsRunTheDecodedWord_15 : ∃ (h : Fin 77) (f : RFields) (s : State),
    (s.engine h).running = true ∧ (s.engine h).fetch = some (encR 0x15 f) :=
  ⟨67, fr 15 31 31 31 31, eng (encR 0x15 (fr 15 31 31 31 31)), by decide⟩
theorem witness_InstructionCommandsRunTheDecodedWord_16 : ∃ (h : Fin 77) (f : RFields) (s : State),
    (s.engine h).running = true ∧ (s.engine h).fetch = some (encR 0x16 f) :=
  ⟨67, fr 15 31 31 31 31, eng (encR 0x16 (fr 15 31 31 31 31)), by decide⟩
theorem witness_InstructionCommandsRunTheDecodedWord_17 : ∃ (h : Fin 77) (f : RFields) (s : State),
    (s.engine h).running = true ∧ (s.engine h).fetch = some (encR 0x17 f) :=
  ⟨67, fr 15 31 31 31 31, eng (encR 0x17 (fr 15 31 31 31 31)), by decide⟩
theorem witness_InstructionCommandsRunTheDecodedWord_18 : ∃ (h : Fin 77) (f : RFields) (s : State),
    (s.engine h).running = true ∧ (s.engine h).fetch = some (encR 0x18 f) :=
  ⟨67, fr 15 31 31 31 31, eng (encR 0x18 (fr 15 31 31 31 31)), by decide⟩
theorem witness_InstructionCommandsRunTheDecodedWord_19 : ∃ (h : Fin 77) (f : IFields) (s : State),
    (s.engine h).running = true ∧ (s.engine h).fetch = some (encI 0x19 f) :=
  ⟨67, fi 15 31 31 31 0xFFFFFFFF, eng (encI 0x19 (fi 15 31 31 31 0xFFFFFFFF)), by decide⟩
theorem witness_InstructionCommandsRunTheDecodedWord_20 : ∃ (h : Fin 77) (f : IFields) (s : State),
    (s.engine h).running = true ∧ (s.engine h).fetch = some (encI 0x1A f) :=
  ⟨67, fi 15 31 31 31 0xFFFFFFFF, eng (encI 0x1A (fi 15 31 31 31 0xFFFFFFFF)), by decide⟩
theorem witness_InstructionCommandsRunTheDecodedWord_21 : ∃ (h : Fin 77) (f : RFields) (s : State),
    (s.engine h).running = true ∧ (s.engine h).fetch = some (encR 0x1B f) :=
  ⟨67, fr 15 31 31 31 31, eng (encR 0x1B (fr 15 31 31 31 31)), by decide⟩
theorem witness_InstructionCommandsRunTheDecodedWord_22 : ∃ (h : Fin 77) (f : IFields) (s : State),
    (s.engine h).running = true ∧ (s.engine h).fetch = some (encI 0x1C f) :=
  ⟨67, fi 15 31 31 31 0xFFFFFFFF, eng (encI 0x1C (fi 15 31 31 31 0xFFFFFFFF)), by decide⟩
theorem witness_InstructionCommandsRunTheDecodedWord_23 : ∃ (h : Fin 77) (f : IFields) (s : State),
    (s.engine h).running = true ∧ (s.engine h).fetch = some (encI 0x1D f) :=
  ⟨67, fi 15 31 31 31 0xFFFFFFFF, eng (encI 0x1D (fi 15 31 31 31 0xFFFFFFFF)), by decide⟩
theorem witness_InstructionCommandsRunTheDecodedWord_24 : ∃ (h : Fin 77) (f : RFields) (s : State),
    (s.engine h).running = true ∧ (s.engine h).fetch = some (encR 0x20 f) :=
  ⟨67, fr 15 31 31 31 31, eng (encR 0x20 (fr 15 31 31 31 31)), by decide⟩
theorem witness_InstructionCommandsRunTheDecodedWord_25 : ∃ (h : Fin 77) (f : IFields) (s : State),
    (s.engine h).running = true ∧ (s.engine h).fetch = some (encI 0x21 f) :=
  ⟨67, fi 15 31 31 31 0xFFFFFFFF, eng (encI 0x21 (fi 15 31 31 31 0xFFFFFFFF)), by decide⟩
theorem witness_InstructionCommandsRunTheDecodedWord_26 : ∃ (h : Fin 77) (f : IFields) (s : State),
    (s.engine h).running = true ∧ (s.engine h).fetch = some (encI 0x22 f) :=
  ⟨67, fi 15 31 31 31 0xFFFFFFFF, eng (encI 0x22 (fi 15 31 31 31 0xFFFFFFFF)), by decide⟩
theorem witness_InstructionCommandsRunTheDecodedWord_27 : ∃ (h : Fin 77) (f : RFields) (s : State),
    (s.engine h).running = true ∧ (s.engine h).fetch = some (encR 0x23 f) :=
  ⟨67, fr 15 31 31 31 31, eng (encR 0x23 (fr 15 31 31 31 31)), by decide⟩
theorem witness_InstructionCommandsRunTheDecodedWord_28 : ∃ (h : Fin 77) (f : RFields) (s : State),
    (s.engine h).running = true ∧ (s.engine h).fetch = some (encR 0x30 f) :=
  ⟨67, fr 15 31 31 31 31, eng (encR 0x30 (fr 15 31 31 31 31)), by decide⟩
theorem witness_InstructionCommandsRunTheDecodedWord_29 : ∃ (h : Fin 77) (f : RFields) (s : State),
    (s.engine h).running = true ∧ (s.engine h).fetch = some (encR 0x31 f) :=
  ⟨67, fr 15 31 31 31 31, eng (encR 0x31 (fr 15 31 31 31 31)), by decide⟩
theorem witness_InstructionCommandsRunTheDecodedWord_30 : ∃ (h : Fin 77) (f : RFields) (s : State),
    (s.engine h).running = true ∧ (s.engine h).fetch = some (encR 0x32 f) :=
  ⟨67, fr 15 31 31 31 31, eng (encR 0x32 (fr 15 31 31 31 31)), by decide⟩
theorem witness_InstructionCommandsRunTheDecodedWord_31 : ∃ (h : Fin 77) (f : RFields) (s : State),
    (s.engine h).running = true ∧ (s.engine h).fetch = some (encR 0x33 f) :=
  ⟨67, fr 15 31 31 31 31, eng (encR 0x33 (fr 15 31 31 31 31)), by decide⟩
theorem witness_InstructionCommandsRunTheDecodedWord_32 : ∃ (h : Fin 77) (f : RFields) (s : State),
    (s.engine h).running = true ∧ (s.engine h).fetch = some (encR 0x34 f) :=
  ⟨67, fr 15 31 31 31 31, eng (encR 0x34 (fr 15 31 31 31 31)), by decide⟩
theorem witness_InstructionCommandsRunTheDecodedWord_33 : ∃ (h : Fin 77) (f : RFields) (s : State),
    (s.engine h).running = true ∧ (s.engine h).fetch = some (encR 0x35 f) :=
  ⟨67, fr 15 31 31 31 31, eng (encR 0x35 (fr 15 31 31 31 31)), by decide⟩
theorem witness_InstructionCommandsRunTheDecodedWord_34 : ∃ (h : Fin 77) (f : RFields) (s : State),
    (s.engine h).running = true ∧ (s.engine h).fetch = some (encR 0x36 f) :=
  ⟨67, fr 15 31 31 31 31, eng (encR 0x36 (fr 15 31 31 31 31)), by decide⟩
theorem witness_InstructionCommandsRunTheDecodedWord_35 : ∃ (h : Fin 77) (f : RFields) (s : State),
    (s.engine h).running = true ∧ (s.engine h).fetch = some (encR 0x37 f) :=
  ⟨67, fr 15 31 31 31 31, eng (encR 0x37 (fr 15 31 31 31 31)), by decide⟩
theorem witness_InstructionCommandsRunTheDecodedWord_36 : ∃ (h : Fin 77) (f : RFields) (s : State),
    (s.engine h).running = true ∧ (s.engine h).fetch = some (encR 0x38 f) :=
  ⟨67, fr 15 31 31 31 31, eng (encR 0x38 (fr 15 31 31 31 31)), by decide⟩
theorem witness_InstructionCommandsRunTheDecodedWord_37 : ∃ (h : Fin 77) (f : RFields) (s : State),
    (s.engine h).running = true ∧ (s.engine h).fetch = some (encR 0x39 f) :=
  ⟨67, fr 15 31 31 31 31, eng (encR 0x39 (fr 15 31 31 31 31)), by decide⟩
theorem witness_InstructionCommandsRunTheDecodedWord_38 : ∃ (h : Fin 77) (f : RFields) (s : State),
    (s.engine h).running = true ∧ (s.engine h).fetch = some (encR 0x3A f) :=
  ⟨67, fr 15 31 31 31 31, eng (encR 0x3A (fr 15 31 31 31 31)), by decide⟩
theorem witness_InstructionCommandsRunTheDecodedWord_39 : ∃ (h : Fin 77) (f : RFields) (s : State),
    (s.engine h).running = true ∧ (s.engine h).fetch = some (encR 0x3B f) :=
  ⟨67, fr 15 31 31 31 31, eng (encR 0x3B (fr 15 31 31 31 31)), by decide⟩
theorem witness_InstructionCommandsRunTheDecodedWord_40 : ∃ (h : Fin 77) (f : RFields) (s : State),
    (s.engine h).running = true ∧ (s.engine h).fetch = some (encR 0x3C f) :=
  ⟨67, fr 15 31 31 31 31, eng (encR 0x3C (fr 15 31 31 31 31)), by decide⟩
theorem witness_InstructionCommandsRunTheDecodedWord_41 : ∃ (h : Fin 77) (f : RFields) (s : State),
    (s.engine h).running = true ∧ (s.engine h).fetch = some (encR 0x3D f) :=
  ⟨67, fr 15 31 31 31 31, eng (encR 0x3D (fr 15 31 31 31 31)), by decide⟩
theorem witness_InstructionCommandsRunTheDecodedWord_42 : ∃ (h : Fin 77) (f : RFields) (s : State),
    (s.engine h).running = true ∧ (s.engine h).fetch = some (encR 0x3E f) :=
  ⟨67, fr 15 31 31 31 31, eng (encR 0x3E (fr 15 31 31 31 31)), by decide⟩
theorem witness_InstructionCommandsRunTheDecodedWord_43 : ∃ (h : Fin 77) (f : RFields) (s : State),
    (s.engine h).running = true ∧ (s.engine h).fetch = some (encR 0x3F f) :=
  ⟨67, fr 15 31 31 31 31, eng (encR 0x3F (fr 15 31 31 31 31)), by decide⟩
theorem witness_InstructionCommandsRunTheDecodedWord_44 : ∃ (h : Fin 77) (f : RFields) (s : State),
    (s.engine h).running = true ∧ (s.engine h).fetch = some (encR 0x40 f) :=
  ⟨67, fr 15 31 31 31 31, eng (encR 0x40 (fr 15 31 31 31 31)), by decide⟩
theorem witness_InstructionCommandsRunTheDecodedWord_45 : ∃ (h : Fin 77) (f : RFields) (s : State),
    (s.engine h).running = true ∧ (s.engine h).fetch = some (encR 0x41 f) :=
  ⟨67, fr 15 31 31 31 31, eng (encR 0x41 (fr 15 31 31 31 31)), by decide⟩
theorem witness_InstructionCommandsRunTheDecodedWord_46 : ∃ (h : Fin 77) (f : RFields) (s : State),
    (s.engine h).running = true ∧ (s.engine h).fetch = some (encR 0x48 f) :=
  ⟨67, fr 15 31 31 31 31, eng (encR 0x48 (fr 15 31 31 31 31)), by decide⟩
theorem witness_InstructionCommandsRunTheDecodedWord_47 : ∃ (h : Fin 77) (f : RFields) (s : State),
    (s.engine h).running = true ∧ (s.engine h).fetch = some (encR 0x49 f) :=
  ⟨67, fr 15 31 31 31 31, eng (encR 0x49 (fr 15 31 31 31 31)), by decide⟩
theorem witness_InstructionCommandsRunTheDecodedWord_48 : ∃ (h : Fin 77) (f : RFields) (s : State),
    (s.engine h).running = true ∧ (s.engine h).fetch = some (encR 0x4A f) :=
  ⟨67, fr 15 31 31 31 31, eng (encR 0x4A (fr 15 31 31 31 31)), by decide⟩
theorem witness_InstructionCommandsRunTheDecodedWord_49 : ∃ (h : Fin 77) (f : RFields) (s : State),
    (s.engine h).running = true ∧ (s.engine h).fetch = some (encR 0x4B f) :=
  ⟨67, fr 15 31 31 31 31, eng (encR 0x4B (fr 15 31 31 31 31)), by decide⟩
theorem witness_InstructionCommandsRunTheDecodedWord_50 : ∃ (h : Fin 77) (f : RFields) (s : State),
    (s.engine h).running = true ∧ (s.engine h).fetch = some (encR 0x4C f) :=
  ⟨67, fr 15 31 31 31 31, eng (encR 0x4C (fr 15 31 31 31 31)), by decide⟩
theorem witness_InstructionCommandsRunTheDecodedWord_51 : ∃ (h : Fin 77) (f : RFields) (s : State),
    (s.engine h).running = true ∧ (s.engine h).fetch = some (encR 0x4D f) :=
  ⟨67, fr 15 31 31 31 31, eng (encR 0x4D (fr 15 31 31 31 31)), by decide⟩
theorem witness_InstructionCommandsRunTheDecodedWord_52 : ∃ (h : Fin 77) (f : RFields) (s : State),
    (s.engine h).running = true ∧ (s.engine h).fetch = some (encR 0x50 f) :=
  ⟨67, fr 15 31 31 31 31, eng (encR 0x50 (fr 15 31 31 31 31)), by decide⟩
theorem witness_InstructionCommandsRunTheDecodedWord_53 : ∃ (h : Fin 77) (f : RFields) (s : State),
    (s.engine h).running = true ∧ (s.engine h).fetch = some (encR 0x58 f) :=
  ⟨67, fr 15 31 31 31 31, eng (encR 0x58 (fr 15 31 31 31 31)), by decide⟩
theorem witness_InstructionCommandsRunTheDecodedWord_54 : ∃ (h : Fin 77) (f : RFields) (s : State),
    (s.engine h).running = true ∧ (s.engine h).fetch = some (encR 0x59 f) :=
  ⟨67, fr 15 31 31 31 31, eng (encR 0x59 (fr 15 31 31 31 31)), by decide⟩
theorem witness_InstructionCommandsRunTheDecodedWord_55 : ∃ (h : Fin 77) (f : RFields) (s : State),
    (s.engine h).running = true ∧ (s.engine h).fetch = some (encR 0x5A f) :=
  ⟨67, fr 15 31 31 31 31, eng (encR 0x5A (fr 15 31 31 31 31)), by decide⟩
theorem witness_InstructionCommandsRunTheDecodedWord_56 : ∃ (h : Fin 77) (f : IFields) (s : State),
    (s.engine h).running = true ∧ (s.engine h).fetch = some (encI 0x60 f) :=
  ⟨67, fi 15 31 31 31 0xFFFFFFFF, eng (encI 0x60 (fi 15 31 31 31 0xFFFFFFFF)), by decide⟩
theorem witness_InstructionCommandsRunTheDecodedWord_57 : ∃ (h : Fin 77) (f : IFields) (s : State),
    (s.engine h).running = true ∧ (s.engine h).fetch = some (encI 0x61 f) :=
  ⟨67, fi 15 31 31 31 0xFFFFFFFF, eng (encI 0x61 (fi 15 31 31 31 0xFFFFFFFF)), by decide⟩
theorem witness_InstructionCommandsRunTheDecodedWord_58 : ∃ (h : Fin 77) (f : RFields) (s : State),
    (s.engine h).running = true ∧ (s.engine h).fetch = some (encR 0x62 f) :=
  ⟨67, fr 15 31 31 31 31, eng (encR 0x62 (fr 15 31 31 31 31)), by decide⟩
theorem witness_InstructionCommandsRunTheDecodedWord_59 : ∃ (h : Fin 77) (f : RFields) (s : State),
    (s.engine h).running = true ∧ (s.engine h).fetch = some (encR 0x63 f) :=
  ⟨67, fr 15 31 31 31 31, eng (encR 0x63 (fr 15 31 31 31 31)), by decide⟩
theorem witness_InstructionCommandsRunTheDecodedWord_60 : ∃ (h : Fin 77) (f : RFields) (s : State),
    (s.engine h).running = true ∧ (s.engine h).fetch = some (encR 0x64 f) :=
  ⟨67, fr 15 31 31 31 31, eng (encR 0x64 (fr 15 31 31 31 31)), by decide⟩

theorem witness_EncodingIsReadBack_1 : ∃ (op : Nat) (_f : RFields),
    op < 256 :=
  ⟨255, fr 15 31 31 31 31, by decide⟩
theorem witness_EncodingIsReadBack_2 : ∃ (op : Nat) (_f : IFields),
    op < 256 :=
  ⟨255, fi 15 31 31 31 0xFFFFFFFF, by decide⟩

theorem witness_NaNAndExtremaRules_5 : ∃ (_c : Nat) (_z : Bool) (m : Nat) (_q : Int),
    m ≠ 0 :=
  ⟨0, true, 1, 0, by decide⟩

theorem witness_StepRecordWindowAccess_1 : ∃ (rq : Req) (off _len : Nat) (data : Bytes) (s : State),
    s.reachesByPort rq = true ∧ s.endpoint rq = true ∧ off % 8 = 0 ∧ data.length % 8 = 0 ∧ off + data.length ≤ 256 ∧ off ≠ 0 :=
  ⟨host, 248, 0, natLe 8 1, inState .active, by decide⟩
theorem witness_StepRecordWindowAccess_2 : ∃ (rq : Req) (off len : Nat) (s : State),
    s.reachesByPort rq = true ∧ s.endpoint rq = true ∧ off % 8 = 0 ∧ len % 8 = 0 ∧ off + len ≤ 256 :=
  ⟨host, 0, 256, inState .active, by decide⟩
theorem witness_StepRecordWindowAccess_3 : ∃ (rq : Req) (_len : Nat) (data : Bytes) (s : State),
    s.controlWrite rq data = true :=
  ⟨host, 0, natLe 8 0, inState .active, by decide⟩
theorem witness_StepRecordWindowAccess_4 : ∃ (rq : Req) (data : Bytes) (s : State),
    s.controlWrite rq data = true ∧ (s.ctx rq.ctx).life.st = .active ∧ (s.ctx rq.ctx).life.quiescing = false :=
  ⟨host, natLe 8 3, inState .active, by decide⟩
theorem witness_StepRecordWindowAccess_5 : ∃ (rq : Req) (_op : OpCode) (_off _len : Nat) (_data : Bytes) (s : State),
    s.reachesByPort rq = true ∧ s.endpoint rq = false :=
  ⟨other, .wr, 0, 0, natLe 8 0, inState .active, by decide⟩

theorem witness_StepOpenAndVoidCommands_1 : ∃ (rq : Req) (data : Bytes) (s : State),
    s.controlWrite rq data = true ∧ s.recordShut rq.ctx = true :=
  ⟨host, openData, inState .quiesced, by decide +kernel⟩
theorem witness_StepOpenAndVoidCommands_2 : ∃ (rq : Req) (data : Bytes) (s : State),
    (s.controlWrite rq data = true ∧ s.recordShut rq.ctx = false ∧ s.findAtt rq.ctx (windowStep (s.windowAfter rq.ctx 1 data))
      (windowAttempt (s.windowAfter rq.ctx 1 data)) = none) :=
  ⟨host, openData, inState .active, by decide +kernel⟩
theorem witness_StepOpenAndVoidCommands_3 : ∃ (rq : Req) (data : Bytes) (s : State),
    s.controlWrite rq data = true ∧ s.recordShut rq.ctx = false ∧ (
    let w := s.windowAfter rq.ctx 1 data
    let ctl := controlWord 1 data
    s.findAtt rq.ctx (windowStep w) (windowAttempt w) = none ∧ ctlLag ctl ≤ 4 ∧ ctlMode ctl ≠ 3 ∧
      w.le 0x40 8 = (windowStep w).toNat ∧ w.le 0x80 8 = (windowStep w).toNat ∧ s.orderBad rq.ctx (windowStep w)
      (windowAttempt w) = false ∧ s.now.toNat < w.le 0x18 8 ∧ w.le 0x18 8 ≤ s.now.toNat + 3600 * second ∧
      (∀ g ∈ (s.ctx rq.ctx).clr.groups, g.clearing = false ∧ s.awaited rq.ctx g.defn = []) ∧
      (s.ctx rq.ctx).life.stepRoot = false ∧ (s.ctx rq.ctx).clr.held = [] ∧ (s.ctx rq.ctx).clr.heldVoids = [] ∧
      (s.ctx rq.ctx).clr.heldReports = [] ∧ (s.ctx rq.ctx).step.clears = []) :=
  ⟨host, openData, inState .active, by decide +kernel⟩
theorem witness_StepOpenAndVoidCommands_4 : ∃ (rq : Req) (data : Bytes) (s : State) (a : Attempt),
    s.controlWrite rq data = true ∧ s.findAtt rq.ctx (windowStep (s.windowAfter rq.ctx 2 data))
      (windowAttempt (s.windowAfter rq.ctx 2 data)) = some a ∧ a.phase = .opened ∧ (s.ctx rq.ctx).life.stepRoot = false :=
  ⟨host, openData, world (stepping), tried, by decide +kernel⟩
theorem witness_StepOpenAndVoidCommands_5 : ∃ (rq : Req) (data : Bytes) (s : State),
    s.controlWrite rq data = true ∧ s.findAtt rq.ctx (windowStep (s.windowAfter rq.ctx 2 data))
      (windowAttempt (s.windowAfter rq.ctx 2 data)) = none :=
  ⟨host, openData, inState .active, by decide +kernel⟩

theorem witness_LedgerSumIsTheExactSum_2 : ∃ (l₁ l₂ : List (Mem × Nat)) (_g : Seg) (_e : Nat),
    l₁.Perm l₂ :=
  ⟨[([], 0), ([(0, 1)], 0)], [([(0, 1)], 0), ([], 0)], segment, 0, by decide⟩
theorem witness_LedgerSumIsTheExactSum_3 : ∃ (g₁ g₂ : Seg) (_m : Mem) (_i : Nat),
    g₁.cfmt = g₂.cfmt ∧ g₁.e0 = g₂.e0 :=
  ⟨segment, { segment with sr := true }, [], 0, by decide⟩

theorem witness_DescriptorsAndContributions_1 : ∃ (rq : Req) (off _len : Nat) (data : Bytes) (s : State),
    s.reachesByPort rq = true ∧ s.endpoint rq = true ∧ off % 8 = 0 ∧ data.length % 8 = 0 ∧ off + data.length ≤ 65520 ∧
      (s.ctx rq.ctx).life.st = .chartered :=
  ⟨host, 65512, 0, natLe 8 1, inState .chartered, by decide⟩
theorem witness_DescriptorsAndContributions_2 : ∃ (rq : Req) (off _len : Nat) (data : Bytes) (s : State),
    s.reachesByPort rq = true ∧ s.endpoint rq = true ∧ off % 8 = 0 ∧ data.length % 8 = 0 ∧ off + data.length ≤ 65520 ∧
      (s.ctx rq.ctx).life.st ≠ .chartered :=
  ⟨host, 65512, 0, natLe 8 1, inState .active, by decide⟩
theorem witness_DescriptorsAndContributions_3 : ∃ (rq : Req) (k : Nat) (s : State),
    s.reachesByPort rq = true ∧ s.endpoint rq = true ∧ k < 4095 :=
  ⟨host, 4094, inState .active, by decide⟩
theorem witness_DescriptorsAndContributions_4 : ∃ (rq : Req) (_op : OpCode) (_seg : BitVec 12) (_off : Nat) (_data : Bytes)
  (_st : MacStamp) (p : Fin 25) (s : State),
    s.reachesByPort rq = true ∧ rq.path = .port p ∧
      (s.ctx rq.ctx).bind.bound.any (fun b => b.1 = rq.source && b.2.toNat = p.val) = true :=
  ⟨tray, .wr, 4094, 0, [], {}, 8, world (stepping), by decide⟩
theorem witness_DescriptorsAndContributions_5 : ∃ (rq : Req) (x : Ext) (tr : GroupTree) (seg : BitVec 12) (_off : Nat)
  (_data : Bytes) (_st : MacStamp) (p : Fin 25) (s : State),
    s.reachesByPort rq = true ∧ rq.path = .port p ∧
      (s.ctx rq.ctx).bind.bound.any (fun b => b.1 = rq.source && b.2.toNat = p.val) = true ∧
      (s.seg rq.ctx seg.toNat).elements ≠ 0 ∧ rq.ext = some x ∧ x.hasAttempt = true ∧ x.hasClaim = true ∧
      (s.ctx rq.ctx).clr.groups.find? (fun t => t.defn.group.setWidth 5 = (s.seg rq.ctx seg.toNat).group) = some tr ∧
      x.claim ≠ s.memberClaim rq.ctx rq.source :=
  ⟨{ tray with ext := some (ext 1) }, ext 1, tree, 4094, 0, [], {}, 8, world (stepping), by decide⟩
theorem witness_DescriptorsAndContributions_6 : ∃ (rq : Req) (x : Ext) (tr : GroupTree) (a : Attempt) (seg : BitVec 12)
  (off : Nat) (data : Bytes) (_st : MacStamp) (p : Fin 25) (s : State),
    s.reachesByPort rq = true ∧ rq.path = .port p ∧
      (s.ctx rq.ctx).bind.bound.any (fun b => b.1 = rq.source && b.2.toNat = p.val) = true ∧
      (s.seg rq.ctx seg.toNat).elements ≠ 0 ∧ rq.ext = some x ∧ x.hasAttempt = true ∧ x.hasClaim = true ∧
      (s.ctx rq.ctx).clr.groups.find? (fun t => t.defn.group.setWidth 5 = (s.seg rq.ctx seg.toNat).group) = some tr ∧
      x.claim = s.memberClaim rq.ctx rq.source ∧ tr.defn.list.contains rq.source = true ∧ s.openAtt rq.ctx = some a ∧
      a.step = x.step ∧ a.attempt = x.attempt ∧ a.tag = x.tag ∧ (s.awaited rq.ctx tr.defn).contains rq.source = true ∧
      off % 256 = 0 ∧ off + data.length ≤ contribBytes (s.seg rq.ctx seg.toNat).cfmt.toNat (s.seg rq.ctx
      seg.toNat).elements.toNat ∧
      (data.length % 256 = 0 ∨ off + data.length = contribBytes (s.seg rq.ctx seg.toNat).cfmt.toNat (s.seg rq.ctx
      seg.toNat).elements.toNat) ∧
      (s.begin.stageChunks rq.ctx seg.toNat (((elemsNear (s.seg rq.ctx seg.toNat).cfmt.toNat (s.seg rq.ctx
      seg.toNat).elements.toNat off data.length).map fun i => i / 1048576)).eraseDups).isSome = true ∧
      (s.ctx rq.ctx).clr.pairs = [] ∧ (∀ g ∈ s.trees rq.ctx, g.isRoot = false) :=
  ⟨{ tray with ext := some ext }, ext, tree, tried, 4094, 0, [0, 0, 0x80, 0x3F], {}, 8, world (stepping), by decide⟩

theorem witness_UpwardFlowAtANode_1 : ∃ (c : Fin 16) (seg : BitVec 12) (b : Nat) (a : Attempt) (tr : GroupTree)
  (p : BitVec 16) (s : State),
    s.openAtt c = some a ∧ (s.trees c).find? (fun t => t.defn.group.setWidth 5 = (s.seg c seg.toNat).group) = some tr ∧
      tr.parent = some p ∧ (s.seg c seg.toNat).elements ≠ 0 ∧ s.mayRise c tr seg.toNat b = true :=
  ⟨15, 4094, 0, tried, leaf, 2, world (stepping leaf), by decide⟩
theorem witness_UpwardFlowAtANode_2 : ∃ (rq : Req) (hdr : AttHdr) (seg : BitVec 12) (data : Bytes) (_st : MacStamp)
  (a : Attempt) (tr : GroupTree) (b : BlockIn) (s : State),
    s.reachesQuiet rq = true ∧
      (s.trees rq.ctx).find? (fun t => t.defn.group.setWidth 5 = (s.seg rq.ctx seg.toNat).group) = some tr ∧
      (s.seg rq.ctx seg.toNat).elements ≠ 0 ∧ tr.children.contains rq.source = true ∧ s.openAtt rq.ctx = some a ∧ a.hdr = hdr ∧
      decodeBlock (s.seg rq.ctx seg.toNat).elements.toNat data = some b :=
  ⟨{ other with source := 3 }, hdr, 4094, List.replicate 16 0, {}, tried, tree, blockOf, world (stepping), by decide⟩
theorem witness_UpwardFlowAtANode_3 : ∃ (rq : Req) (hdr : AttHdr) (seg : BitVec 12) (_data : Bytes) (_st : MacStamp)
  (tr : GroupTree) (s : State),
    s.reachesQuiet rq = true ∧
      (s.trees rq.ctx).find? (fun t => t.defn.group.setWidth 5 = (s.seg rq.ctx seg.toNat).group) = some tr ∧
      (s.seg rq.ctx seg.toNat).elements ≠ 0 ∧ tr.children.contains rq.source = true ∧ s.openAtt rq.ctx = none ∧
      s.findAtt rq.ctx hdr.step hdr.attempt = none ∧ hdr.step = (s.ctx rq.ctx).step.released + 1 ∧
      (s.ctx rq.ctx).life.st = .active :=
  ⟨{ other with source := 3 }, hdr, 4094, [], {}, tree, world (stepping tree []), by decide⟩
theorem witness_UpwardFlowAtANode_4 : ∃ (rq : Req) (hdr : AttHdr) (seg : BitVec 12) (_c : Nat) (a : Attempt) (tr : GroupTree)
  (s : State),
    s.reaches rq false = true ∧
      (s.trees rq.ctx).find? (fun t => t.defn.group.setWidth 5 = (s.seg rq.ctx seg.toNat).group) = some tr ∧
      tr.parent = some rq.source ∧ s.openAtt rq.ctx = some a ∧ a.hdr = hdr :=
  ⟨other, hdr, 4094, 0, tried, tree, world (stepping), by decide⟩
theorem witness_UpwardFlowAtANode_5 : ∃ (rq : Req) (hdr : AttHdr) (g : BitVec 5) (segs : List SegReport) (st : MacStamp)
  (a : Attempt) (s : State),
    s.reaches rq false = true ∧ (s.ctx rq.ctx).life.stepRoot = true ∧ s.openAtt rq.ctx = some a ∧ a.hdr = hdr ∧
      (s.ctx rq.ctx).clr.reports.any (fun r => r.1 = g) = false ∧
      (s.ctx rq.ctx).clr.groups.all (fun x => ((s.ctx rq.ctx).clr.reports ++ [(g, s.ingress rq st, segs)]).any fun r => r.1 =
      x.defn.group.setWidth 5) = false :=
  ⟨other, hdr, 30, [], {}, tried, world { stepping with life.stepRoot := true }, by decide⟩

theorem witness_LagReleaseAndDelivery_1 : ∃ (rq : Req) (hdr : AttHdr) (s : State),
    s.reaches rq false = true ∧ s.findAtt rq.ctx hdr.step hdr.attempt = none ∧
      (s.ctx rq.ctx).step.released.toNat < hdr.step.toNat :=
  ⟨other, hdr, inState .active, by decide⟩
theorem witness_LagReleaseAndDelivery_2 : ∃ (rq : Req) (_entry : BitVec 16) (_step : Word) (s : State),
    s.reaches rq false = true ∧ (s.ctx rq.ctx).life.stepRoot = true ∧ s.openAtt rq.ctx = none ∧ (s.ctx rq.ctx).esc.curSeq = 0 :=
  ⟨other, 65535, 1, world { life := { life .active with stepRoot := true } }, by decide⟩
theorem witness_LagReleaseAndDelivery_3 : ∃ (rq : Req) (hdr : AttHdr) (_g : BitVec 5) (_ms : List (BitVec 12 × BitVec 16))
  (s : State),
    s.reaches rq false = true ∧ (s.ctx rq.ctx).life.st = .active ∧ (s.ctx rq.ctx).step.released = hdr.step - 1 ∧
      s.entriesOf rq.ctx = [] ∧ s.trees rq.ctx = [] ∧ (s.ctx rq.ctx).clr.held = [] :=
  ⟨other, hdr, 27, [], inState .active, by decide⟩
theorem witness_LagReleaseAndDelivery_4 : ∃ (rq : Req) (_hdr : AttHdr) (_g : BitVec 5) (_ms : List (BitVec 12 × BitVec 16))
  (_k : Option CkptTag) (s : State),
    s.reaches rq false = true ∧ (s.ctx rq.ctx).life.st ≠ .active ∧ (s.ctx rq.ctx).life.st ≠ .quiesced :=
  ⟨other, hdr, 27, [], none, inState .evicting, by decide⟩
theorem witness_LagReleaseAndDelivery_5 : ∃ (rq : Req) (hdr : AttHdr) (seg : BitVec 12) (_data : Bytes) (tr : GroupTree)
  (s : State),
    s.reachesQuiet rq = true ∧
      (s.trees rq.ctx).find? (fun t => t.defn.group.setWidth 5 = (s.seg rq.ctx seg.toNat).group) = some tr ∧
      (s.seg rq.ctx seg.toNat).elements ≠ 0 ∧ tr.parent = some rq.source ∧
      (s.seg rq.ctx seg.toNat).rounds.find? (fun r => r.step = hdr.step && r.attempt = hdr.attempt) = none ∧
      hdr.step = (s.ctx rq.ctx).step.released + 1 :=
  ⟨other, hdr, 4094, [], tree, world (stepping), by decide⟩
theorem witness_LagReleaseAndDelivery_6 : ∃ (x : Fin 16) (step : Word) (seg : BitVec 12) (c p : Nat) (node : BitVec 16)
  (r : Round) (tr : GroupTree) (s : State),
    (s.seg x seg.toNat).rounds.find? (fun r => r.step = step) = some r ∧ s.portOfNode x node = some p ∧
      (s.trees x).find? (fun t => t.defn.group.setWidth 5 = (s.seg x seg.toNat).group) = some tr ∧
      c < State.chunkCount (s.seg x seg.toNat) ∧ (s.receivers x tr.defn).contains node = true ∧
      r.delivered.contains (node, c) = false ∧
      (State.chunkBlocks (s.seg x seg.toNat) c).all (fun b => (r.blocks.map Prod.fst).contains b) = true :=
  ⟨15, 1, 4094, 0, 8, 32, round, tree, world { stepping with clr.segs := [(4094, { segment with rounds := [round] })] },
    by decide⟩

theorem witness_DeadlinesAndVoids_1 : ∃ (c : Fin 16) (g : BitVec 5) (a : Attempt) (tr : GroupTree) (s : State),
    s.openAtt c = some a ∧ (s.trees c).find? (fun t => t.defn.group.setWidth 5 = g) = some tr ∧
      (s.ctx c).clr.judged.contains g = false ∧ (s.allSent c tr = true ∨ (s.lateInputs c a tr = [] ∧
      s.pairsAgree c g = true)) :=
  ⟨15, 27, tried, leaf, world (stepping leaf), by decide⟩
theorem witness_DeadlinesAndVoids_2 : ∃ (c : Fin 16) (g : BitVec 5) (a : Attempt) (tr : GroupTree) (s : State),
    s.openAtt c = some a ∧ (s.trees c).find? (fun t => t.defn.group.setWidth 5 = g) = some tr ∧
      (s.ctx c).clr.judged.contains g = false ∧ s.allSent c tr = false ∧ s.lateInputs c a tr ≠ [] :=
  ⟨15, 27, tried, tree, world (stepping), by decide⟩
theorem witness_DeadlinesAndVoids_3 : ∃ (c : Fin 16) (a : Attempt) (s : State),
    s.openAtt c = some a ∧ (s.ctx c).life.stepRoot = true ∧ (s.ctx c).step.lagWait = false ∧
      ((s.ctx c).clr.groups.filter fun t => t.root ≠ (s.ctx c).life.self && !(s.ctx c).clr.reports.any fun r => r.1 =
      t.defn.group.setWidth 5 && decide (r.2.1 < State.nsStamp (Machine.reportDeadline a (s.ctx c).clr.groups))) ≠ [] :=
  ⟨15, tried, world { stepping with life.stepRoot := true }, by decide⟩
theorem witness_DeadlinesAndVoids_4 : ∃ (rq : Req) (hdr : AttHdr) (cause : BitVec 4) (_origin : BitVec 16)
  (_segs : List SegReport) (a : Attempt) (s : State),
    s.reaches rq false = true ∧ s.findAtt rq.ctx hdr.step hdr.attempt = some a ∧ a.phase = .opened ∧
      ((s.ctx rq.ctx).life.stepRoot = false ∨ cause ≠ 3) :=
  ⟨other, hdr, 2, 2, [], tried, world (stepping), by decide⟩
theorem witness_DeadlinesAndVoids_5 : ∃ (rq : Req) (hdr : AttHdr) (_cause : BitVec 4) (_origin : BitVec 16)
  (_segs : List SegReport) (s : State),
    s.reaches rq false = true ∧ s.findAtt rq.ctx hdr.step hdr.attempt = none ∧ hdr.step = (s.ctx rq.ctx).step.released + 1 ∧
      (s.ctx rq.ctx).clr.heldVoids.any (fun v => v.1 = hdr) = false :=
  ⟨other, hdr, 2, 2, [], inState .active, by decide⟩

theorem witness_UnitsAndHearths_1 : ∃ (h : Fin 68) (unit : Fin 16) (op : Word) (_adding : List ChunkRef) (s : State),
    (s.hearth h).role ≠ .failed ∧ (Map.get (0, 0) (s.hearth h).ops unit = (op, 0) ∨ Map.get (0, 0)
      (s.hearth h).ops unit = (op, 1) ∨ (Map.get (0, 0) (s.hearth h).ops unit).1 ≠ op) :=
  ⟨67, 3, 1, [], State.reset, by decide⟩
theorem witness_UnitsAndHearths_2 : ∃ (h : Fin 68) (unit : Fin 16) (op : Word) (_adding : List ChunkRef) (s : State),
    (s.hearth h).role ≠ .failed ∧ Map.get (0, 0) (s.hearth h).ops unit = (op, 2) ∧ (∀ n : Fin 16, s.openAtt n = none) :=
  ⟨67, 3, 1, [], { State.reset with die.hearths := [(67, { ops := [(3, (1, 2))] })] }, by decide⟩
theorem witness_UnitsAndHearths_3 : ∃ (p : Fin 25) (unit : Fin 16) (op : Word) (_adding : List ChunkRef) (s : State),
    (State.detectedAgain (Map.get (0, 0) s.die.laneOps (portLane p + unit.val)) op).2 < 3 :=
  ⟨24, 3, 1, [], State.reset, by decide⟩
theorem witness_UnitsAndHearths_4 : ∃ (p : Fin 25) (unit : Fin 16) (op : Word) (_adding : List ChunkRef) (s : State),
    s.portUp p = true ∧ s.isSpillPeer p = false ∧ Map.get (0, 0) s.die.laneOps (portLane p + unit.val) = (op, 2) :=
  ⟨24, 3, 1, [], { port24 { state := .up } with die.laneOps := [(portLane 24 + 3, (1, 2))] }, by decide⟩
theorem witness_UnitsAndHearths_5 : ∃ (rq : Req) (h : Fin 68) (seq : BitVec 16) (_adding : List ChunkRef) (s : State),
    s.served rq false .both = true ∧ seq ≠ s.rst.hrtActed ∧ (s.hearth h).role ≠ .failed ∧ (∀ n : Fin 16, s.openAtt n = none) :=
  ⟨host, 67, 1, [], inState .active, by decide⟩
theorem witness_UnitsAndHearths_6 : ∃ (rq : Req) (h : Fin 68) (seq : BitVec 16) (_adding : List ChunkRef) (s : State),
    s.served rq false .both = true ∧ seq ≠ s.rst.hrtActed ∧ (s.hearth h).role = .failed :=
  ⟨mgmt, 67, 1, [], { State.reset with die.hearths := [(67, { role := .failed })] }, by decide⟩
theorem witness_UnitsAndHearths_7 : ∃ (h : Fin 68) (_adding : List ChunkRef) (s : State),
    (s.hearth h).role ≠ .failed ∧ (∀ n : Fin 16, s.openAtt n = none) :=
  ⟨67, [], State.reset, by decide⟩
theorem witness_UnitsAndHearths_8 : ∃ (h : Fin 68) (s : State),
    (s.hearth h).role = .resetting :=
  ⟨67, { State.reset with die.hearths := [(67, { role := .resetting })] }, by decide⟩
theorem witness_UnitsAndHearths_9 : ∃ (h : Fin 68) (s : State),
    (s.hearth h).role = .resetting :=
  ⟨67, { State.reset with die.hearths := [(67, { role := .resetting })] }, by decide⟩
theorem witness_UnitsAndHearths_10 : ∃ (h : Fin 68) (s : State),
    (s.hearth h).role = .resetting :=
  ⟨67, { State.reset with die.hearths := [(67, { role := .resetting })] }, by decide⟩

theorem witness_SupervisorDieAndStacks_1 : ∃ (_i : Fin 3) (s : State),
    s.die.sup = [] :=
  ⟨2, State.reset, by decide⟩
theorem witness_SupervisorDieAndStacks_2 : ∃ (i j : Fin 3) (s : State),
    s.die.sup = [(j.val, true)] ∧ i ≠ j ∧ s.kin.power ≠ .kindling :=
  ⟨2, 0, { State.reset with die.sup := [(0, true)] }, by decide⟩
theorem witness_SupervisorDieAndStacks_3 : ∃ (cause : Fin 4) (s : State),
    s.kin.power ≠ .off ∧ s.kin.power ≠ .railLost ∧ (s.kin.power = .kindling → cause = 1) :=
  ⟨3, State.reset, by decide⟩
theorem witness_SupervisorDieAndStacks_4 : ∃ (cause : Fin 4) (s : State),
    s.kin.power = .kindling ∧ cause ≠ 1 ∧ s.kin.fails.toNat < 2 :=
  ⟨0, kinAt .kindling 3 1, by decide⟩
theorem witness_SupervisorDieAndStacks_5 : ∃ (i : Fin 8) (s : State),
    (s.hbm i).failed = false ∧ s.ctxs = [] ∧ s.mir.entries = [] ∧ s.alc.waiters = [] :=
  ⟨7, State.reset, by decide⟩

theorem witness_GatingAndWaking_1 : ∃ (q : Fin 4) (s : State),
    s.kin.img.gateRegions.getLsbD q = true ∧ ((s.region q).power = .on ∨ (s.region q).power = .gating) :=
  ⟨3, { State.reset with kin.img.gateRegions := 8 }, by decide⟩
theorem witness_GatingAndWaking_2 : ∃ (q : Fin 4) (s : State),
    s.kin.img.gateRegions.getLsbD q = false :=
  ⟨3, State.reset, by decide⟩
theorem witness_GatingAndWaking_3 : ∃ (h : Fin 68) (s : State),
    (s.engine h).running = false ∧ (s.engine h).finished = false ∧ (s.hearth h).testing = false ∧
      s.outside (s.hearth h).idleSince (100 * s.alc.gateIdle.toNat) = true ∧ s.quietFor (h / 17) 400 = true :=
  ⟨67, { State.reset with tim.offset := 1000 }, by decide⟩
theorem witness_GatingAndWaking_4 : ∃ (h : Fin 68) (s : State),
    ((s.engine h).running = true ∨ s.quietFor (h / 17) 400 = false) :=
  ⟨67, eng 0, by decide⟩
theorem witness_GatingAndWaking_5 : ∃ (q : Fin 4) (cold : Bool) (s : State),
    s.regionBusy q = false ∧ s.quietFor q (if cold then 10000000 else 50000) = true :=
  ⟨3, true, State.reset, by decide⟩
theorem witness_GatingAndWaking_8 : ∃ (q : Fin 4) (_late : Nat) (s : State),
    (s.region q).power = .off :=
  ⟨3, 1, { State.reset with die.regions := [(3, { power := .off })] }, by decide⟩

theorem witness_ContextResets_1 : ∃ (rq : Req) (c : Fin 16) (seq : BitVec 16) (s : State),
    s.served rq false .both = true ∧ seq ≠ s.rst.ctxCmdActed ∧ (State.management rq = true ∨ rq.ctx = c) ∧
      s.bareContext c = true ∧ (s.ctx c).life.waitReq = none :=
  ⟨host, 15, 1, inState .active, by decide⟩
theorem witness_ContextResets_2 : ∃ (rq : Req) (c : Fin 16) (_seq : BitVec 16) (s : State),
    s.served rq false .both = true ∧ State.management rq = false ∧ rq.ctx ≠ c :=
  ⟨host, 14, 1, inState .active, by decide⟩
theorem witness_ContextResets_3 : ∃ (rq : Req) (c : Fin 16) (_seq : BitVec 16) (s : State),
    s.served rq false .both = true ∧ (State.management rq = true ∨ rq.ctx = c) ∧
      ((s.ctx c).life.st = .empty ∨ (s.ctx c).life.st = .wiping) :=
  ⟨mgmt, 15, 1, inState .wiping, by decide⟩
theorem witness_ContextResets_4 : ∃ (c : Fin 16) (_task : Fin 6) (_item : BitVec 32) (s : State),
    (s.ctx c).wd.armed = true ∧ s.rst.mpdUp = true ∧
      ((s.ctx c).life.st = .active ∨ (s.ctx c).life.st = .quiesced ∨ (s.ctx c).life.st = .evicting) ∧ s.bareContext c = true ∧
      (s.ctx c).life.waitReq = none ∧ (∀ b, s.rst.mpdBack = some b → s.outside b ((s.ctx c).wd.limit.toNat * 1000000) = true) :=
  ⟨15, 5, 0, world { life := life .evicting, wd.armed := true }, ⟨by decide, by decide, by decide, by decide, by decide,
    fun _ h => nomatch h⟩⟩
theorem witness_ContextResets_5 : ∃ (_c : Fin 16) (_task : Fin 6) (_item : BitVec 32) (s : State),
    s.rst.mpdUp = false :=
  ⟨15, 5, 0, { State.reset with rst.mpdUp := false }, by decide⟩
theorem witness_ContextResets_6 : ∃ (rq : Req) (node : BitVec 16) (ep : BitVec 32) (a : Attempt) (s : State),
    s.reaches rq false = true ∧ (s.ctx rq.ctx).life.stepRoot = true ∧
      (s.ctx rq.ctx).step.resetNotes.contains (node, ep) = false ∧ s.openAtt rq.ctx = some a :=
  ⟨other, 2, 0x00010002, tried, world { stepping with life.stepRoot := true }, by decide⟩
theorem witness_ContextResets_7 : ∃ (rq : Req) (node : BitVec 16) (ep : BitVec 32) (s : State),
    s.reaches rq false = true ∧ (s.ctx rq.ctx).step.resetNotes.contains (node, ep) = true :=
  ⟨other, 2, 0x00010002, world { life := life .active, step.resetNotes := [(2, 0x00010002)] }, by decide⟩

theorem witness_FirmwareRestarts_1 : ∃ (s : State),
    s.rst.mpdUp = true :=
  ⟨State.reset, by decide⟩
theorem witness_FirmwareRestarts_2 : ∃ (s : State),
    s.rst.mpdUp = true ∧ (∀ b, s.rst.lastBeat = some b → s.outside b second = true) :=
  ⟨State.reset, by decide, by intro b h; cases h⟩
theorem witness_FirmwareRestarts_3 : ∃ (b : Word) (s : State),
    s.rst.lastBeat = some b ∧ s.outside b second = false :=
  ⟨0, { State.reset with rst.lastBeat := some 0 }, by decide⟩
theorem witness_FirmwareRestarts_4 : ∃ (s : State),
    s.rst.mpdUp = false :=
  ⟨{ State.reset with rst.mpdUp := false }, by decide⟩
theorem witness_FirmwareRestarts_5 : ∃ (s : State),
    s.rst.mpdUp = false ∧ (∀ b, s.rst.lastBeat = some b → s.outside b (2 * second) = true) :=
  ⟨{ State.reset with rst.mpdUp := false }, ⟨by decide, fun _ h => nomatch h⟩⟩

theorem witness_OutOfService_1 : ∃ (rq : Req) (seq : BitVec 16) (s : State),
    s.served rq false .both = true ∧ seq ≠ s.rst.oosActed ∧ s.rst.oos = false ∧ s.rst.drained = false ∧ s.allEmpty = true :=
  ⟨mgmt, 1, State.reset, by decide⟩
theorem witness_OutOfService_2 : ∃ (rq : Req) (seq : BitVec 16) (s : State),
    s.served rq false .both = true ∧ seq ≠ s.rst.oosActed ∧ s.rst.oos = false ∧
      (∀ n : Fin 16, ((s.ctx n).life.st = .active ∨ (s.ctx n).life.st = .quiesced ∨ (s.ctx n).life.st = .empty) ∧
      (s.ctx n).life.waitReq = none) :=
  ⟨mgmt, 1, inState .quiesced, by decide⟩
theorem witness_OutOfService_3 : ∃ (s : State),
    (s.rst.evictEnd ≠ 0 ∧ s.rst.evictEnd.toNat ≤ s.now.toNat ∧ s.mir.entries = [] ∧
      ∃ n : Fin 16, (s.ctx n).life.st = .evicting) :=
  ⟨{ inState .evicting with rst.evictEnd := 1, tim.offset := 1 }, by decide⟩
theorem witness_OutOfService_4 : ∃ (s : State),
    s.now.toNat < s.rst.evictEnd.toNat :=
  ⟨{ State.reset with rst.evictEnd := 1 }, by decide⟩
theorem witness_OutOfService_5 : ∃ (p : Fin 25) (rq : Req) (_off _len : Nat) (s : State),
    rq.path = .port p ∧ s.kin.power = .ready ∧ s.rst.drained = true :=
  ⟨9, host, 0, 8, { inState .active with rst.drained := true }, by decide⟩

theorem witness_ClearReturnsToService_1 : ∃ (rq : Req) (seq : BitVec 16) (s : State),
    s.served rq false .both = true ∧ seq ≠ s.rst.oosActed ∧ s.allEmpty = true :=
  ⟨mgmt, 1, State.reset, by decide⟩
theorem witness_ClearReturnsToService_2 : ∃ (rq : Req) (seq : BitVec 16) (s : State),
    s.served rq false .both = true ∧ seq ≠ s.rst.oosActed ∧ s.allEmpty = false :=
  ⟨mgmt, 1, inState .active, by decide⟩

theorem witness_LedgerReadsWritesAndClaims_1 : ∃ (rq : Req) (e : BitVec 16) (b len : Nat) (s : State),
    s.ledgerAt rq e.toNat = true ∧ b % 8 = 0 ∧ len % 8 = 0 ∧ b < 256 ∧ b + len ≤ 256 :=
  ⟨host, 65535, 248, 8, led .active {}, by decide⟩
theorem witness_LedgerReadsWritesAndClaims_2 : ∃ (rq : Req) (e : BitVec 16) (_v : Word) (w : Nat) (s : State),
    s.ledgerAt rq e.toNat = true ∧ (s.entry e.toNat).st = .free ∧ runtimeWord w = true :=
  ⟨host, 65535, 1, 17, led .chartered {}, by decide⟩
theorem witness_LedgerReadsWritesAndClaims_3 : ∃ (rq : Req) (e : BitVec 16) (_v : Word) (w : Nat) (s : State),
    s.ledgerAt rq e.toNat = true ∧ w < 32 ∧ w ≠ 0 ∧ ((s.entry e.toNat).st ≠ .free ∧
      (s.ctx rq.ctx).life.st ≠ .quiesced ∨ runtimeWord w = false) :=
  ⟨host, 65535, 1, 2, led .active { st := .live }, by decide⟩
theorem witness_LedgerReadsWritesAndClaims_4 : ∃ (rq : Req) (op : OpCode) (e : BitVec 16) (b _len : Nat) (_data : Bytes)
  (s : State),
    s.ledgerAt rq e.toNat = true ∧ b < 256 ∧ (op = .wrc ∨ op = .fadd ∨ op = .swap) :=
  ⟨host, .swap, 65000, 255, 0, [], led .active {}, by decide⟩
theorem witness_LedgerReadsWritesAndClaims_5 : ∃ (rq : Req) (_op : OpCode) (e : BitVec 16) (b _len : Nat) (_data : Bytes)
  (s : State),
    s.reachesByPort rq = true ∧ b < 256 ∧
      (s.endpoint rq = false ∨ e.toNat < (s.ctx rq.ctx).life.charter.entryFirst ∨ (s.ctx rq.ctx).life.charter.entryFirst +
      (s.ctx rq.ctx).life.charter.entryCount ≤ e.toNat) :=
  ⟨host, .wr, 64999, 0, 8, [], led .active {}, by decide⟩
theorem witness_LedgerReadsWritesAndClaims_6 : ∃ (rq : Req) (e : BitVec 16) (cmp new : Word) (s : State),
    s.ledgerAt rq e.toNat = true ∧ (s.entry e.toNat).st ≠ .retiring ∧ (s.entry e.toNat).claim = cmp ∧ cmp.toNat < new.toNat ∧
      (s.entry e.toNat).votes = [] :=
  ⟨host, 65535, 0, 1, led .active { st := .live }, by decide⟩
theorem witness_LedgerReadsWritesAndClaims_7 : ∃ (rq : Req) (e : BitVec 16) (_cmp _new : Word) (s : State),
    s.ledgerAt rq e.toNat = true :=
  ⟨host, 65535, 1, 1, led .active { st := .live }, by decide⟩
theorem witness_LedgerReadsWritesAndClaims_8 : ∃ (e : BitVec 16) (s : State),
    (s.entry e.toNat).st = .retiring ∧ s.alc.dirty.any (fun r => r.entry = some e.toNat) = false ∧
      ((s.entry e.toNat).peerFree = true ∨ (s.entry e.toNat).degradedP = true) :=
  ⟨65535, led .active { st := .retiring, degradedP := true }, by decide⟩

theorem witness_ShardRequestsChangeTheEntry_1 : ∃ (rq : Req) (e seq : BitVec 16) (s : State),
    s.ledgerReq rq e.toNat seq = true ∧ (s.entry e.toNat).st = .free ∧ (s.ctx rq.ctx).life.st = .chartered ∧
      s.defineCheck rq.ctx e.toNat = none :=
  ⟨host, 65535, 1, definable, by decide⟩
theorem witness_ShardRequestsChangeTheEntry_2 : ∃ (rq : Req) (e seq : BitVec 16) (r : Nat) (s : State),
    s.ledgerReq rq e.toNat seq = true ∧ (s.entry e.toNat).st = .free ∧ (s.ctx rq.ctx).life.st = .chartered ∧
      s.defineCheck rq.ctx e.toNat = some r :=
  ⟨host, 65535, 1, 0x13, led .chartered {}, by decide⟩
theorem witness_ShardRequestsChangeTheEntry_3 : ∃ (rq : Req) (e seq : BitVec 16) (s : State),
    s.ledgerReq rq e.toNat seq = true ∧ (s.entry e.toNat).st = .defined ∧ (s.ctx rq.ctx).life.st = .quiesced :=
  ⟨host, 65535, 1, led .quiesced { st := .defined }, by decide⟩
theorem witness_ShardRequestsChangeTheEntry_4 : ∃ (rq : Req) (e seq : BitVec 16) (s : State),
    s.ledgerReq rq e.toNat seq = true ∧ (s.entry e.toNat).st = .fenced ∧
      ((s.ctx rq.ctx).life.st = .quiesced ∨ (s.ctx rq.ctx).life.st = .active) ∧
      ((s.entry e.toNat).degradedL = false ∨ (s.entry e.toNat).degradedP = false) :=
  ⟨host, 65535, 1, led .active { st := .fenced, degradedL := true }, by decide⟩
theorem witness_ShardRequestsChangeTheEntry_5 : ∃ (rq : Req) (e seq : BitVec 16) (s : State),
    s.ledgerReq rq e.toNat seq = true ∧ (s.entry e.toNat).st = .filling ∧ (s.entry e.toNat).fillSource = 1 ∧
      (s.ctx rq.ctx).life.st = .quiesced ∧ (s.entry e.toNat).windowWrites = [] ∧ (s.entry e.toNat).closing = .none ∧
      (s.entry e.toNat).heldPages = [] ∧ (s.entry e.toNat).votes = [] ∧ (s.entry e.toNat).repairing = [] ∧
      s.settled rq.ctx = true :=
  ⟨host, 65535, 1, led .quiesced { st := .filling, fillSource := 1 }, by decide⟩
theorem witness_ShardRequestsChangeTheEntry_6 : ∃ (rq : Req) (e seq : BitVec 16) (s : State),
    s.ledgerReq rq e.toNat seq = true ∧ (s.entry e.toNat).st = .live ∧ (s.ctx rq.ctx).life.st = .quiesced ∧
      (s.entry e.toNat).degradedL = false ∧ (s.entry e.toNat).degradedP = true ∧
      s.placementBad rq.ctx (s.entry e.toNat).partner = false ∧
      s.partnerInGroup rq.ctx (s.entry e.toNat).group (s.entry e.toNat).partner = true ∧ (s.entry e.toNat).repairing = [] ∧
      s.settled rq.ctx = true ∧ s.remirrorReady rq.ctx e.toNat = true :=
  ⟨host, 65535, 1, remirrorable, by decide⟩
theorem witness_ShardRequestsChangeTheEntry_7 : ∃ (rq : Req) (e seq : BitVec 16) (s : State),
    s.ledgerReq rq e.toNat seq = true ∧
      ((s.entry e.toNat).st = .live ∨ (s.entry e.toNat).st = .fenced ∨ (s.entry e.toNat).st = .filling ∧
      (s.entry e.toNat).fillSource ≠ 3) ∧
      ((s.ctx rq.ctx).life.st = .active ∨ (s.ctx rq.ctx).life.st = .quiesced ∨ (s.ctx rq.ctx).life.st = .evicting) ∧
      (s.entry e.toNat).votes = [] :=
  ⟨host, 65535, 1, led .evicting { st := .live }, by decide⟩
theorem witness_ShardRequestsChangeTheEntry_8 : ∃ (rq : Req) (e seq : BitVec 16) (s : State),
    s.ledgerReq rq e.toNat seq = true ∧ (s.entry e.toNat).st ≠ .free ∧ (s.entry e.toNat).st ≠ .retiring ∧
      s.settled rq.ctx = true :=
  ⟨host, 65535, 1, led .active { st := .live }, by decide⟩
theorem witness_ShardRequestsChangeTheEntry_9 : ∃ (rq : Req) (e seq : BitVec 16) (s : State),
    s.ledgerReq rq e.toNat seq = true :=
  ⟨host, 65535, 1, led .active {}, by decide⟩

theorem witness_VotesFollowTheTable_1 : ∃ (e : Entry) (v : Vote) (y l p : Digest),
    yIn e v.version = true ∧ lIn e = true ∧ pIn e = true ∧ v.y = some y ∧ v.l = some l ∧ v.p = some p :=
  ⟨{ st := .live }, { ballot with y := some 1, l := some 1, p := some 0 }, 1, 1, 0, by decide⟩
theorem witness_VotesFollowTheTable_2 : ∃ (e : Entry) (v : Vote),
    yIn e v.version = true ∧ lIn e = true ∧ pIn e = true ∧ (v.y = none ∨ v.l = none ∨ v.p = none) :=
  ⟨{ st := .live }, { ballot with y := some 1 }, by decide⟩
theorem witness_VotesFollowTheTable_4 : ∃ (e : Entry) (v : Vote),
    [yIn e v.version, lIn e, pIn e].count true ≤ 1 :=
  ⟨{ st := .defined, degradedP := true }, ballot, by decide⟩

theorem witness_MirrorTraffic_1 : ∃ (e : BitVec 16) (s : State),
    s.fillMayStart (s.entry e.toNat).ctx.toNat e.toNat = true ∧ (s.entry e.toNat).degradedL = false ∧
      (∀ x ∈ s.mir.entries, x.1 ≠ e.toNat → x.2.fill.started = false) :=
  ⟨65535, definedAt { st := .filling, fillSource := 3 }, by decide⟩
theorem witness_MirrorTraffic_2 : ∃ (e : BitVec 16) (page tries : Nat) (k sl : Nat) (s : State),
    (s.entry e.toNat).st = .filling ∧ (s.entry e.toNat).fillSource = 3 ∧ (s.entry e.toNat).unrecoverable = false ∧
      (s.entry e.toNat).fill.fromPartner = false ∧ (page, tries) ∈ (s.entry e.toNat).fill.out ∧
      s.mir.repairTries.toNat ≤ tries ∧ s.slotOf (s.entry e.toNat).ctx.toNat e.toNat = some (k, sl) :=
  ⟨65535, 0, 3, 8, 4095, bound { st := .filling, fillSource := 3, fill.out := [(0, 3)] }, by decide⟩
theorem witness_MirrorTraffic_3 : ∃ (rq : Req) (m : EntrySync) (i : Nat) (s : State),
    s.reaches rq false = true ∧ s.findShard rq.ctx m.fields.shardId true = some i ∧ (s.entry i).peer = rq.source ∧
      s.settled rq.ctx = true :=
  ⟨other, sync, 65535, led .active { st := .live, role := true, peer := 2 }, by decide⟩
theorem witness_MirrorTraffic_4 : ∃ (rq : Req) (shard claim : Word) (i : Nat) (s : State),
    s.reaches rq false = true ∧ s.findShard rq.ctx shard true = some i ∧ (s.entry i).claim.toNat < claim.toNat ∧
      (s.entry i).peer = rq.source :=
  ⟨other, 0, 1, 65535, led .active { st := .live, role := true, peer := 2 }, by decide⟩
theorem witness_MirrorTraffic_5 : ∃ (rq : Req) (shard : Word) (_page i : Nat) (_version : BitVec 32) (_claim : Word)
  (_install : Bool) (_digest : Digest) (s : State),
    s.reaches rq false = true ∧ s.findShard rq.ctx shard false = some i :=
  ⟨other, 0, 0, 65535, 0, 0, false, 0, led .active { st := .live }, by decide⟩
theorem witness_MirrorTraffic_6 : ∃ (rq : Req) (shard _step : Word) (pages : List PageOutcome) (x : PageOutcome) (i : Nat)
  (s : State),
    s.reaches rq false = true ∧ s.findShard rq.ctx shard true = some i ∧ (s.entry i).peer = rq.source ∧ pages.head? = some x ∧
      pages.Pairwise (fun a b => a.page ≤ b.page) ∧ (∀ p ∈ pages, p.outcome ≠ .partnerOdd) ∧ s.settled rq.ctx = true :=
  ⟨other, 0, 0, [outcomeOf], outcomeOf, 65535, led .active { st := .live, role := true, peer := 2 }, by decide⟩
theorem witness_MirrorTraffic_7 : ∃ (rq : Req) (shard _claim : Word) (_page i : Nat) (_version : BitVec 32) (_digest : Digest)
  (_off : Nat) (_data : Bytes) (s : State),
    s.reaches rq false = true ∧ s.findShard rq.ctx shard true = some i :=
  ⟨other, 0, 0, 0, 65535, 0, 0, 0, [], led .active { st := .live, role := true }, by decide⟩
theorem witness_MirrorTraffic_8 : ∃ (e : BitVec 16) (page : Nat) (version : BitVec 32) (v : Vote) (s : State),
    (s.entry e.toNat).votes.find? (fun v => v.page = page && v.version = version && v.outcome.isNone) = some v ∧
      yIn (s.entry e.toNat) version = true ∧ v.y = none ∧ (lIn (s.entry e.toNat) = false ∨ v.l.isSome = true) ∧
      (pIn (s.entry e.toNat) = false ∨ v.p.isSome = true) :=
  ⟨65535, 0, 0, late, led .active { st := .live, votes := [late] }, by decide⟩
theorem witness_MirrorTraffic_9 : ∃ (rq : Req) (_x : Ext) (_e : Entry) (_i off _len : Nat) (_data : Bytes) (s : State),
    s.reachesByPort rq = true ∧ s.endpoint rq = true ∧ off / 2 ^ 40 % 16 = rq.ctx.val :=
  ⟨host, ext, {}, 65535, 15 * 2 ^ 40, 8, [], led .active { st := .live }, by decide⟩
theorem witness_MirrorTraffic_10 : ∃ (rq : Req) (op : OpCode) (_off : Nat) (_data : Bytes) (s : State),
    s.reachesByPort rq = true ∧ op ≠ .wr ∧ op ≠ .rd :=
  ⟨host, .cas, 0, [], inState .active, by decide⟩

theorem witness_StepProgramRunsStartAndEnd_1 : ∃ (e : BitVec 16) (h : Fin 68) (st : Word) (s : State),
    (s.entry e.toNat).queued.head? = some st ∧ State.takesUpdate (s.entry e.toNat) = true ∧
      s.groupRounded (s.entry e.toNat).ctx.toNat (s.entry e.toNat).group st = true ∧ s.runOfEntry e.toNat = none ∧
      s.hearthReady h = true ∧ (State.entryRegions (s.entry e.toNat)).contains (h.val / 17) = true :=
  ⟨65535, 67, 1, { led .active { st := .live, queued := [1], alloc := [(7, 1)] } with die.hearths := [] }, by decide⟩
theorem witness_StepProgramRunsStartAndEnd_2 : ∃ (h : Fin 68) (i : BitVec 16) (s : State),
    (s.engine h).copy = .mirror i ∧ (s.engine h).finished = true ∧ (s.entry i.toNat).scrubLines = [] ∧
      (s.entry i.toNat).role = true ∧ (s.entry i.toNat).repairing = [] ∧ s.settled (s.entry i.toNat).ctx.toNat = true ∧
      (s.entry i.toNat).st = .live :=
  ⟨67, 65535, ended { st := .live, role := true }, by decide⟩
theorem witness_StepProgramRunsStartAndEnd_3 : ∃ (h : Fin 68) (i : BitVec 16) (s : State),
    (s.engine h).copy = .mirror i ∧ (s.engine h).finished = true ∧ (s.entry i.toNat).scrubLines = [] ∧
      (s.entry i.toNat).role = false ∧ (s.entry i.toNat).degradedL = false ∧ (s.entry i.toNat).repairing = [] ∧
      (s.entry i.toNat).votes = [] ∧ s.settled (s.entry i.toNat).ctx.toNat = true ∧ (s.entry i.toNat).st = .live :=
  ⟨67, 65535, ended { st := .live }, by decide⟩
theorem witness_StepProgramRunsStartAndEnd_4 : ∃ (h : Fin 68) (s : State),
    (s.engine h).finished = false :=
  ⟨67, State.reset, by decide⟩

theorem witness_ProgramStoreAccess_1 : ∃ (rq : Req) (_k : BitVec 8) (len : BitVec 32) (s : State),
    s.storeAt rq = true ∧ len ≠ 0 :=
  ⟨host, 255, 1, inState .active, by decide⟩
theorem witness_ProgramStoreAccess_2 : ∃ (rq : Req) (_k : BitVec 8) (s : State),
    s.storeAt rq = true :=
  ⟨host, 255, inState .active, by decide⟩
theorem witness_ProgramStoreAccess_3 : ∃ (rq : Req) (k : BitVec 8) (off : Nat) (data : Bytes) (s : State),
    s.storeAt rq = true ∧ off + data.length ≤ 1048576 ∧ (s.slot rq.ctx k.toNat).st = .loading ∧
      unitsOk off data.length (s.slot rq.ctx k.toNat).length.toNat = true :=
  ⟨host, 255, 256, [0], world { life := life .active, prog.slots := [(255, { st := .loading, length := 257 })] }, by decide⟩
theorem witness_ProgramStoreAccess_4 : ∃ (rq : Req) (k : BitVec 8) (seq : BitVec 16) (s : State),
    s.storeAt rq = true ∧ (s.slot rq.ctx k.toNat).acted ≠ seq :=
  ⟨host, 255, 1, inState .active, by decide⟩
theorem witness_ProgramStoreAccess_5 : ∃ (rq : Req) (off _len : Nat) (_data : Bytes) (s : State),
    s.storeAt rq = true ∧ off < 1099511627776 :=
  ⟨host, 0, 8, natLe 8 1, inState .active, by decide⟩
theorem witness_ProgramStoreAccess_6 : ∃ (rq : Req) (_op : OpCode) (_area : BitVec 8) (off _len : Nat) (_data : Bytes)
  (s : State),
    s.reachesByPort rq = true ∧ (s.endpoint rq = false ∨ off / 1099511627776 % 16 ≠ rq.ctx.val) :=
  ⟨other, .wr, 0, 0, 8, natLe 8 1, inState .active, by decide⟩

theorem witness_YobelContextRegisters_1 : ∃ (y : YReq) (_c : Fin 16) (_reg : Nat) (_v : Word) (s : State),
    y.epoch ≠ s.yEpoch y :=
  ⟨{ yreq with epoch := 2 }, 15, 0, 1, State.reset, by decide⟩
theorem witness_YobelContextRegisters_2 : ∃ (y : YReq) (_c : Fin 16) (_a : Nat) (_v _w : Word) (_op : OpCode) (_sp : BitVec 4)
  (s : State),
    y.epoch = s.yEpoch y :=
  ⟨{ ybare with epoch := 0 }, 15, 0, 0, 0, .rd, 5, State.reset, by decide⟩
theorem witness_YobelContextRegisters_3 : ∃ (y : YReq) (_c : Fin 16) (a : Nat) (_v : Word) (s : State),
    s.yWrites y = true ∧ (a = 0 ∨ a = 8 ∨ (0x708 ≤ a ∧ a < 0x730 ∧ a % 8 = 0)) :=
  ⟨{ ybare with epoch := 0 }, 15, 0x708, 0, State.reset, by decide⟩
theorem witness_YobelContextRegisters_4 : ∃ (y : YReq) (_c : Fin 16) (_v : Word) (s : State),
    s.yWrites y = true :=
  ⟨{ yreq with ctxv := false, epoch := 0 }, 15, 1, State.reset, by decide⟩
theorem witness_YobelContextRegisters_5 : ∃ (y : YReq) (c : Fin 16) (seq : BitVec 16) (s : State),
    s.yWrites y = true ∧ seq ≠ (s.yctx y.port c).cmdActed :=
  ⟨{ yreq with ctxv := false, epoch := 0 }, 15, 1, State.reset, by decide⟩

theorem witness_YobelDataAndPrograms_1 : ∃ (k : Fin 9) (c : Fin 16) (_seg : BitVec 12) (_off : Nat) (_data : Bytes)
  (a : AttHdr) (s : State),
    (s.yctx k c).openAtt = some a ∧ (s.yctx k c).valid = true ∧ (s.yctx k c).claimStop = false :=
  ⟨8, 15, 4094, 0, [], hdr, ystate { ctx := [(15, { openAtt := some hdr, valid := true })] }, by decide⟩
theorem witness_YobelDataAndPrograms_3 : ∃ (y : YReq) (x : Ext) (seg : BitVec 12) (off : Nat) (data : Bytes) (s : State),
    s.yTaken y = true ∧ seg ≠ 0xFFF ∧ y.ext = some x ∧ x.hasAttempt = true ∧
      unitsOk off data.length (State.cfgElements (s.ySeg y.port y.ctx seg.toNat) * resultBytes (State.cfgRfmt (s.ySeg y.port
      y.ctx seg.toNat))) = true :=
  ⟨{ yreq with epoch := 0 }, ext, 4094, 0, [], State.reset, by decide⟩
theorem witness_YobelDataAndPrograms_4 : ∃ (y : YReq) (_seg : BitVec 12) (_off : Nat) (_data : Bytes) (s : State),
    s.yTaken y = true ∧ y.ext = none :=
  ⟨{ ybare with epoch := 0 }, 4094, 0, [], State.reset, by decide⟩
theorem witness_YobelDataAndPrograms_5 : ∃ (y : YReq) (k : Nat) (_v : Word) (s : State),
    s.yTaken y = true ∧ k < 4095 :=
  ⟨{ ybare with epoch := 0 }, 4094, 1, State.reset, by decide⟩
theorem witness_YobelDataAndPrograms_6 : ∃ (y : YReq) (k : Nat) (data : Bytes) (s : State),
    s.yTaken y = true ∧ k < 256 ∧ data.length = 64 :=
  ⟨{ ybare with epoch := 0 }, 255, List.replicate 64 0, State.reset, by decide⟩
theorem witness_YobelDataAndPrograms_7 : ∃ (y : YReq) (k : Nat) (data : Bytes) (i : YImage) (s : State),
    s.yTaken y = true ∧ k < 256 ∧ Map.get {} (s.yobel y.port).images (y.ctx.val * 256 + k) = i ∧ i.st = 1 ∧ i.units = [] ∧
      i.bytes = [] ∧ data.length = i.length.toNat ∧ 0 < data.length ∧ data.length ≤ 256 :=
  ⟨{ ybare with epoch := 0 }, 255, [1], { length := 1, st := 1 }, ystate { images := [(4095, { length := 1, st := 1 })] },
    by decide⟩
theorem witness_YobelDataAndPrograms_8 : ∃ (y : YReq) (slot : BitVec 12) (_v : Word) (s : State),
    s.yTaken y = true ∧ slot.toNat < (s.yobel y.port).slotsN.toNat :=
  ⟨{ ybare with epoch := 0 }, 1023, 1, State.reset, by decide⟩
theorem witness_YobelDataAndPrograms_9 : ∃ (k : Fin 9) (_slot : BitVec 12) (_fuel : Nat) (s : State),
    (s.engine (68 + k)).running = false ∧ (s.engine (68 + k)).finished = false :=
  ⟨8, 4095, 0, State.reset, by decide⟩
theorem witness_YobelDataAndPrograms_10 : ∃ (k : Fin 9) (slot : BitVec 12) (_fuel : Nat) (e : Engine) (s : State),
    s.yRun k slot.toNat = some e :=
  ⟨8, 4095, 0, { copy := .yobel 8 4095, running := true },
    { State.reset with engines := [(76, { copy := .yobel 8 4095, running := true })] }, by decide⟩

theorem witness_YobelInstallsCaptureAndTests_1 : ∃ (y : YReq) (r : InstallRec) (s : State),
    s.yInstalls y r = true :=
  ⟨{ ybare with epoch := 0 }, { slot := 1023, page := 0, version := 0, digest := 0 },
    ystate { slots := [(1023, { st := .live })] }, by decide⟩
theorem witness_YobelInstallsCaptureAndTests_2 : ∃ (y : YReq) (_r : InstallRec) (_op : OpCode) (s : State),
    s.yTaken y = true :=
  ⟨{ ybare with epoch := 0 }, { slot := 0, page := 0, version := 0, digest := 0 }, .rd, State.reset, by decide⟩
theorem witness_YobelInstallsCaptureAndTests_3 : ∃ (y : YReq) (r : InstallRec) (s : State),
    s.gated y r = true :=
  ⟨{ yreq with epoch := 0 }, { slot := 1023, page := 0, version := 0, digest := 0 },
    ystate { slots := [(1023, { st := .live })] }, by decide⟩
theorem witness_YobelInstallsCaptureAndTests_4 : ∃ (y : YReq) (_off _len : Nat) (op : OpCode) (s : State),
    s.yTaken y = true ∧ y.other = some op ∧ op ≠ .rd :=
  ⟨{ ybare with epoch := 0, other := some .wrc }, 0, 8, .wrc, State.reset, by decide⟩
theorem witness_YobelInstallsCaptureAndTests_5 : ∃ (y : YReq) (off len : Nat) (_data : Bytes) (sl : Nat) (x : YSlot)
  (s : State),
    s.yTaken y = true ∧ (y.other = none ∨ y.other = some .rd) ∧ s.portSlot y.port y.ctx off len = some (sl, x) ∧
      x.st ≠ .fenced ∧ State.claimOf y.ext = some x.claim :=
  ⟨{ yreq with epoch := 0 }, 0, 8, [], 1023, { st := .live, ctx := 15, length := 64 },
    ystate { slots := [(1023, { st := .live, ctx := 15, length := 64 })] }, by decide⟩
theorem witness_YobelInstallsCaptureAndTests_6 : ∃ (k : Fin 9) (c : Fin 16) (_o : TileOp) (a : AttHdr) (s : State),
    (s.yctx k c).openAtt = some a :=
  ⟨8, 15, tileOf, hdr, ystate { ctx := [(15, { openAtt := some hdr })] }, by decide⟩
theorem witness_YobelInstallsCaptureAndTests_7 : ∃ (k : Fin 9) (c : Fin 16) (r : CaptureRec × Bool) (s : State),
    ((s.yctx k c).captures.find? fun x => !x.2) = some r :=
  ⟨8, 15, (jobOf, false), ystate { ctx := [(15, { captures := [(jobOf, false)] })] }, by decide⟩
theorem witness_YobelInstallsCaptureAndTests_9 : ∃ (k : Fin 9) (c : Fin 16) (a : AttHdr) (s : State),
    (s.yctx k c).openAtt = some a :=
  ⟨8, 15, hdr, ystate { ctx := [(15, { openAtt := some hdr })] }, by decide⟩
theorem witness_YobelInstallsCaptureAndTests_10 : ∃ (y : YReq) (_seq : BitVec 16) (s : State),
    s.yWrites y = true :=
  ⟨{ ybare with epoch := 0 }, 1, State.reset, by decide⟩
theorem witness_YobelInstallsCaptureAndTests_11 : ∃ (y : YReq) (_start _stop : Word) (seq : BitVec 16) (_set : BitVec 32)
  (s : State),
    s.yWrites y = true ∧ seq ≠ (s.yobel y.port).testActed :=
  ⟨{ ybare with epoch := 0 }, 0, 1, 1, 1, State.reset, by decide⟩
theorem witness_YobelInstallsCaptureAndTests_12 : ∃ (k : Fin 9) (_result : BitVec 8) (_unit : BitVec 16) (_start _stop : Word)
  (s : State),
    (s.yobel k).granted = true :=
  ⟨8, 1, 0, 0, 1, ystate { granted := true }, by decide⟩

theorem witness_YobelReportsAreTaken_1 : ∃ (rq : Req) (p : Fin 25) (r : DigestRec) (i : Nat) (s : State),
    s.intakeAt rq p = true ∧ (State.claimOf rq.ext).isSome = true ∧ s.findShard rq.ctx r.shardId false = some i ∧
      (s.entry i).claim = r.claim :=
  ⟨{ tray with ext := some ext }, 8, recOf, 65535, intake {}, by decide⟩
theorem witness_YobelReportsAreTaken_2 : ∃ (rq : Req) (p : Fin 25) (_op : OpCode) (_r : Recs DigestRec)
  (_r' : Recs CaptureRec) (_r'' : Recs TestReport) (s : State),
    s.intakeAt rq p = true :=
  ⟨tray, 8, .wr, { recs := [recOf] }, { recs := [jobOf] }, { recs := [reportOf] }, intake {}, by decide⟩
theorem witness_YobelReportsAreTaken_3 : ∃ (rq : Req) (p : Fin 25) (_r : CaptureRec) (s : State),
    s.intakeAt rq p = true :=
  ⟨tray, 8, jobOf, intake {}, by decide⟩
theorem witness_YobelReportsAreTaken_4 : ∃ (k : Fin 9) (r : CaptureRec) (rest : List (Fin 9 × CaptureRec)) (s : State),
    s.tst.queue = (k, r) :: rest :=
  ⟨8, jobOf, [], { State.reset with tst.queue := [(8, jobOf)] }, by decide⟩
theorem witness_YobelReportsAreTaken_5 : ∃ (rq : Req) (p : Fin 25) (_r : TestReport) (s : State),
    s.intakeAt rq p = true :=
  ⟨tray, 8, reportOf, intake {}, by decide⟩
theorem witness_YobelReportsAreTaken_6 : ∃ (k : Fin 9) (_id : Word) (_digest : Digest) (_fault : BitVec 4) (s : State),
    (s.port k).probeRunning = true :=
  ⟨8, 0, 0, 0, { State.reset with ports := [(8, { probeRunning := true })] }, by decide⟩
theorem witness_YobelReportsAreTaken_7 : ∃ (k : Fin 9) (s : State),
    (s.yobel k).granted = true ∧ (s.yobel k).testing = false ∧ (s.yobel k).testStart.toNat ≤ (s.yNow k).toNat ∧
      (s.yNow k).toNat < (s.yobel k).testEnd.toNat :=
  ⟨8, ystate { granted := true, testEnd := 1 }, by decide⟩

theorem witness_HearthAndAcceleratorTests_1 : ∃ (q : Fin 4) (h : Nat) (rest : List Nat) (p : PatternSet) (s : State),
    (s.region q).testing = false ∧ (s.region q).power = .on ∧
      ((s.region q).lastStart = 0 ∨ s.outside (s.region q).lastStart (s.tst.rotateMin.toNat * 60 * second) = true) ∧
      p ∈ s.tst.sets ∧ p.set = s.tst.active ∧ p.cls = 1 ∧ s.hearthsIn q .spare = h :: rest ∧ s.hearthFree h = true :=
  ⟨3, 67, [], { set := 1, cls := 1, counter := 0, length := 0, testMs := 0, patterns := 0 },
    { State.reset with tst.active := 1, tst.sets := [{ set := 1, cls := 1, counter := 0, length := 0, testMs := 0, patterns := 0 }] }, by decide⟩
theorem witness_HearthAndAcceleratorTests_2 : ∃ (q : Fin 4) (o : Nat) (s : State),
    (s.region q).testing = true ∧ (s.hearth (s.region q).testHearth.toNat).role = .spare ∧
      s.nextOutgoing q (s.region q).testHearth.toNat = some o :=
  ⟨3, 51, region3 { testing := true, testHearth := 67 }, by decide⟩
theorem witness_HearthAndAcceleratorTests_3 : ∃ (q : Fin 4) (_n : Nat) (s : State),
    (s.region q).testing = true :=
  ⟨3, 1, region3 { testing := true, testHearth := 67 }, by decide⟩
theorem witness_HearthAndAcceleratorTests_4 : ∃ (q : Fin 4) (h : Nat) (rest : List Nat) (s : State),
    (s.region q).outgoing ≠ 0x7F ∧ (s.hearth (s.region q).outgoing.toNat).role = .outgoing ∧
      s.hearthFree (s.region q).outgoing.toNat = true ∧ s.hearthsIn q .spare = h :: rest :=
  ⟨3, 67, [], { region3 { outgoing := 51 } with die.hearths := [(51, { role := .outgoing }), (67, { role := .spare })] },
    by decide⟩
theorem witness_HearthAndAcceleratorTests_5 : ∃ (q : Fin 4) (s : State),
    (s.region q).outgoing ≠ 0x7F :=
  ⟨3, region3 { outgoing := 66 }, by decide⟩
theorem witness_HearthAndAcceleratorTests_6 : ∃ (h : Fin 68) (s : State),
    (s.hearth h).uncovered = false ∧ (s.hearth h).role ≠ .failed ∧
      (s.hearth h).lastPass.toNat + (17 * s.tst.rotateMin.toNat * 60 + s.tst.deferH.toNat * 3600) * second ≤ (s.testClock
      h).toNat :=
  ⟨67, { State.reset with tim.offset := 320400000000000 }, by decide⟩
theorem witness_HearthAndAcceleratorTests_7 : ∃ (k : Fin 9) (s : State),
    (s.tstPort k).due ≠ 0 ∧ (s.tstPort k).overdue = false ∧
      (s.tstPort k).due.toNat + s.tst.deferH.toNat * 3600 * second ≤ s.now.toNat :=
  ⟨8, { State.reset with tst.ports := [(8, { due := 1 })], tim.offset := 259200000000001 }, by decide⟩
theorem witness_HearthAndAcceleratorTests_8 : ∃ (rq : Req) (k : Fin 9) (seq : BitVec 16) (_set : BitVec 32) (s : State),
    s.served rq false .both = true ∧ seq ≠ s.tst.grantActed ∧ s.portUp k = true ∧ s.portInAttempt k = false ∧
      s.now.toNat < s.tst.grantEnd.toNat ∧ (s.tstPort k).grantOpen = none ∧ s.tst.grantStart.toNat < s.tst.grantEnd.toNat ∧
      s.tst.grantEnd.toNat - s.tst.grantStart.toNat ≤ 86400 * second :=
  ⟨mgmt, 8, 1, 1, { inState .active with tst.grantEnd := 86400000000000 }, by decide⟩
theorem witness_HearthAndAcceleratorTests_9 : ∃ (rq : Req) (k : Fin 9) (seq : BitVec 16) (_set : BitVec 32) (s : State),
    s.served rq false .both = true ∧ seq ≠ s.tst.grantActed ∧ s.portUp k = false :=
  ⟨mgmt, 8, 1, 1, State.reset, by decide⟩
theorem witness_HearthAndAcceleratorTests_10 : ∃ (k : Fin 9) (s : State),
    (s.tstPort k).draining = true ∧ (∀ e ∈ s.entriesAt k, e.2.st = .fenced ∨ e.2.st = .free) :=
  ⟨8, { State.reset with tst.ports := [(8, { draining := true })] }, by decide⟩
theorem witness_HearthAndAcceleratorTests_11 : ∃ (k : Fin 9) (s : State),
    (∃ e ∈ s.entriesAt k, e.2.st = .live) :=
  ⟨8, intake {}, by decide⟩
theorem witness_HearthAndAcceleratorTests_12 : ∃ (rq : Req) (s : State),
    s.served rq false .both = true ∧ (∀ n : Fin 16, (s.ctx n).life.waitReq = none) :=
  ⟨mgmt, State.reset, by decide⟩

theorem witness_PatternPacksAndSignatures_1 : ∃ (rq : Req) (_set : BitVec 32) (seq : BitVec 16) (b : Bytes) (s : State),
    s.served rq false .both = true ∧ seq ≠ s.tst.packActed ∧ s.kin.pack = some b :=
  ⟨mgmt, 1, 1, [], { State.reset with kin.pack := some [] }, by decide⟩
theorem witness_PatternPacksAndSignatures_2 : ∃ (rq : Req) (_set : BitVec 32) (seq : BitVec 16) (s : State),
    s.served rq false .both = true ∧ seq ≠ s.tst.packActed :=
  ⟨mgmt, 1, 1, State.reset, by decide⟩
theorem witness_PatternPacksAndSignatures_3 : ∃ (rq : Req) (_cls _idx : BitVec 8) (seq : BitVec 16) (s : State),
    s.served rq false .both = true ∧ seq ≠ s.tst.sigActed :=
  ⟨mgmt, 1, 0, 1, State.reset, by decide⟩
theorem witness_PatternPacksAndSignatures_4 : ∃ (rq : Req) (s : State),
    s.served rq false .both = true ∧ s.keptAnswer rq 0xD0D0 = none :=
  ⟨mgmt, State.reset, by decide⟩

theorem witness_ContextCommands_1 : ∃ (rq : Req) (n : Fin 16) (seq : BitVec 16) (c : ClrCtx) (s : State),
    s.ctxWrite rq n seq .charter = true ∧ (s.ctx n).life.st = .chartered ∧ (s.ctx n).life.activating = false ∧
      s.charterNeighbours n = [] ∧ (s.judged n seq).judgeDefinition n = .ok c ∧ s.entriesOf n = [] ∧ s.localNodes n = [] ∧
      (∀ g ∈ c.groups, g.rootPages = 0) :=
  ⟨host, 15, 1, _, apart, by decide, by decide, by decide, by decide, rfl, by decide, by decide, by decide⟩
theorem witness_ContextCommands_2 : ∃ (rq : Req) (n : Fin 16) (seq : BitVec 16) (code : Nat) (s : State),
    s.ctxWrite rq n seq .charter = true ∧ (s.ctx n).life.st = .chartered ∧ (s.ctx n).life.activating = false ∧
      s.charterNeighbours n = [] ∧ (s.judged n seq).judgeDefinition n = .error code :=
  ⟨host, 15, 1, 6, { apart with fabric.topo := [] }, by decide, by decide, by decide, by decide, rfl⟩
theorem witness_ContextCommands_3 : ∃ (_n : Fin 16) (_seq : BitVec 16) (s : State),
    s.rst.oos = true :=
  ⟨15, 1, { State.reset with rst.oos := true }, by decide⟩
theorem witness_ContextCommands_4 : ∃ (rq : Req) (_d : Digest) (s : State),
    s.reaches rq false = true :=
  ⟨other, 1, inState .chartered, by decide⟩
theorem witness_ContextCommands_5 : ∃ (rq q : Req) (d : Digest) (s : State),
    s.reaches rq false = true ∧ (s.ctx rq.ctx).life.waitReq = some q ∧ (s.ctx rq.ctx).life.activating = false ∧
      (s.ctx rq.ctx).life.checks.contains rq.source = true ∧ d ≠ (s.ctx rq.ctx).life.digest :=
  ⟨other, host, 1, world { life := { life .chartered with waitReq := some host, checks := [2] } }, by decide⟩
theorem witness_ContextCommands_6 : ∃ (rq : Req) (n : Fin 16) (seq : BitVec 16) (s : State),
    s.ctxWrite rq n seq .charter = true ∧ (s.ctx n).life.st = .active ∧ (s.ctx n).life.quiescing = false ∧ s.openAtt n = none :=
  ⟨host, 15, 1, inState .active, by decide⟩
theorem witness_ContextCommands_7 : ∃ (rq : Req) (n : Fin 16) (seq : BitVec 16) (s : State),
    s.ctxWrite rq n seq .charter = true ∧ (s.ctx n).life.st = .quiesced ∧ (s.ctx n).life.resuming = false ∧
      s.entriesOf n = [] :=
  ⟨host, 15, 1, inState .quiesced, by decide⟩
theorem witness_ContextCommands_9 : ∃ (rq : Req) (n : Fin 16) (seq : BitVec 16) (s : State),
    s.ctxWrite rq n seq .both = true ∧ s.bareContext n = true ∧ (s.ctx n).life.waitReq = none :=
  ⟨host, 15, 1, inState .quiesced, by decide⟩
theorem witness_ContextCommands_10 : ∃ (rq : Req) (n : Fin 16) (seq : BitVec 16) (s : State),
    s.ctxWrite rq n seq .both = true ∧ (s.ctx n).life.st = .empty :=
  ⟨mgmt, 15, 1, State.reset, by decide⟩
theorem witness_ContextCommands_11 : ∃ (rq : Req) (n : Fin 16) (seq : BitVec 16) (c : Instr) (s : State),
    s.ctxWrite rq n seq .charter = true ∧ (c = .ctxActivate rq n seq ∧
      (s.ctx n).life.st ≠ .chartered ∨ c = .ctxQuiesce rq n seq ∧ (s.ctx n).life.st ≠ .active ∨ c = .ctxResume rq n seq ∧
      (s.ctx n).life.st ≠ .quiesced ∨ c = .ctxClear rq n seq ∧ (s.ctx n).life.st ≠ .empty) :=
  ⟨host, 15, 1, .ctxResume host 15 1, inState .active, by decide, .inr (.inr (.inl ⟨rfl, by decide⟩))⟩
theorem witness_ContextCommands_12 : ∃ (rq : Req) (n : Fin 16) (s : State),
    s.served rq false .charter = true ∧ rq.ctx = n ∧ (s.ctx n).life.waitReq = none :=
  ⟨host, 15, inState .active, by decide⟩

theorem witness_PagesAndBinds_1 : ∃ (r : DirtyRun) (q : List DirtyRun) (s : State),
    s.alc.dirty = r :: q ∧ (s.hbm r.stack).failed = false ∧ s.mir.entries = [] ∧ s.alc.waiters = [] ∧
      (∀ m : Fin 16, (s.ctx m).life.st ≠ .wiping ∧ (s.ctx m).life.resuming = false) :=
  ⟨{ owner := none, part := .escrow, stack := 7, count := 1 }, [],
    { State.reset with alc.dirty := [{ owner := none, part := .escrow, stack := 7, count := 1 }] }, by decide⟩
theorem witness_PagesAndBinds_2 : ∃ (n : Fin 16) (r : DirtyRun) (s : State),
    s.alc.dirty = [r] ∧ r.count ≤ 1 ∧ s.mir.entries = [] ∧ s.alc.waiters = [] ∧ (s.ctx n).life.st = .wiping ∧
      (∀ m : Fin 16, m ≠ n → (s.ctx m).life.st ≠ .wiping ∧ (s.ctx m).life.resuming = false) :=
  ⟨15, { owner := some 15, part := .mirror, stack := 7, count := 1 },
    { inState .wiping with alc.dirty := [{ owner := some 15, part := .mirror, stack := 7, count := 1 }] }, by decide⟩
theorem witness_PagesAndBinds_3 : ∃ (n : Fin 16) (w : Waiter) (s : State),
    s.alc.waiters = [w] ∧ w.ctx = n ∧ (s.ctx n).life.activating = false :=
  ⟨15, { ctx := 15, held := [], mirrorDemand := 1, rootDemand := 0, deadline := 0 },
    { inState .waitClean with alc.waiters := [{ ctx := 15, held := [], mirrorDemand := 1, rootDemand := 0, deadline := 0 }] },
    by decide⟩
theorem witness_PagesAndBinds_4 : ∃ (e : BitVec 16) (src dst : Fin 8) (reason : BitVec 2) (_last : Bool) (s : State),
    s.mayMove e.toNat src dst reason = true :=
  ⟨65535, 7, 0, 1, true, led .active { st := .live, alloc := [(0, 2), (7, 1)] }, by decide⟩
theorem witness_PagesAndBinds_5 : ∃ (e : BitVec 16) (src dst : Fin 8) (reason : BitVec 2) (_last : Bool) (s : State),
    s.mayMove e.toNat src dst reason = false :=
  ⟨65535, 7, 6, 2, true, led .active { st := .live, alloc := [(7, 1)] }, by decide⟩
theorem witness_PagesAndBinds_6 : ∃ (n : Fin 16) (q : Req) (s : State),
    (s.ctx n).life.waitReq = some q ∧ (s.ctx n).life.resuming = true ∧ (s.ctx n).life.st = .quiesced :=
  ⟨15, host, world { life := { life .quiesced with waitReq := some host, resuming := true } }, by decide⟩
theorem witness_PagesAndBinds_7 : ∃ (rq : Req) (n : Fin 16) (logical : BitVec 16) (port : BitVec 4) (seq : BitVec 16)
  (c : Nat) (s : State),
    s.served rq false .charter = true ∧ rq.ctx = n ∧ seq ≠ (s.ctx n).bind.acted ∧ s.bindCause n logical port = some c :=
  ⟨host, 15, 32, 9, 1, 3, world { life := life .active, bind.ever := [32] }, by decide⟩
theorem witness_PagesAndBinds_8 : ∃ (rq : Req) (n : Fin 16) (logical : BitVec 16) (port : BitVec 4) (seq : BitVec 16)
  (s : State),
    s.served rq false .charter = true ∧ rq.ctx = n ∧ seq ≠ (s.ctx n).bind.acted ∧ s.bindCause n logical port = none ∧
      s.entriesOf n = [] ∧ s.portOfNode n logical = none :=
  ⟨host, 15, 32, 8, 1,
    { world { life := life .active, bind.ever := [32] } with ports := [(8, { state := .up, conformed := true }), (9, { state := .up })] }, by decide⟩
theorem witness_PagesAndBinds_9 : ∃ (rq : Req) (n : Fin 16) (_logical : BitVec 16) (_port : BitVec 4) (_seq : BitVec 16)
  (s : State),
    s.served rq false .charter = true ∧ rq.ctx ≠ n :=
  ⟨host, 14, 32, 8, 1, inState .active, by decide⟩

theorem witness_CharterAndKeyReleaseLoading_1 : ∃ (rq : Req) (_n : Fin 16) (off _len : Nat) (_data : Bytes) (s : State),
    s.opened rq = true ∧ off < 2 ^ 32 :=
  ⟨other, 15, 0, 1, [0], inState .empty, by decide⟩
theorem witness_CharterAndKeyReleaseLoading_2 : ∃ (rq : Req) (op : OpCode) (n : Fin 16) (_off : Nat) (_data : Bytes)
  (s : State),
    s.reachesByPort rq = true ∧ (s.endpoint rq = false ∨ rq.ctx ≠ n ∨ op ≠ .wrc) :=
  ⟨other, .wrc, 15, 0, [0], inState .chartered, by decide⟩
theorem witness_CharterAndKeyReleaseLoading_3 : ∃ (rq : Req) (n : Fin 16) (off b : Nat) (data : Bytes) (s : State),
    s.reachesByPort rq = true ∧ s.endpoint rq = true ∧ rq.ctx = n ∧ off < 2 ^ 32 ∧ 256 ≤ off ∧
      (s.ctx n).life.relUnits.contains 0 = true ∧ (s.ctx n).life.relBytes.le 8 4 = b ∧ State.releaseLength 1 ≤ b ∧
      b ≤ State.releaseLength 255 ∧ unitsOk off data.length b = true ∧ (s.ctx n).esc.rstState ≠ 1 ∧
      (∀ u ∈ unitsOf off data.length, u ∉ (s.ctx n).life.relUnits) ∧
      State.unitsBytes (((s.ctx n).life.relUnits ++ unitsOf off data.length).filter fun u => decide (256 * u < b)) b = b :=
  ⟨host, 15, 256, State.releaseLength 1, List.replicate 2712 0, releasing, by decide +kernel⟩
theorem witness_CharterAndKeyReleaseLoading_4 : ∃ (rq : Req) (_m : RestoreDist) (s : State),
    s.reaches rq false = true :=
  ⟨other, { release := true, seq := 1, step := 0, windows := [], plain := [], keys := [] }, inState .quiesced, by decide⟩
theorem witness_CharterAndKeyReleaseLoading_5 : ∃ (rq : Req) (_step : Word) (_roots : VoteRoots) (z : BitVec 16) (s : State),
    s.reaches rq false = true ∧ (s.ctx rq.ctx).life.stepRoot = true ∧ (s.ctx rq.ctx).clr.azards.contains rq.source = true ∧
      z ∈ (s.ctx rq.ctx).clr.azards ∧ z ≠ rq.source ∧ (∀ v ∈ (s.ctx rq.ctx).life.notes, v.node ≠ z) :=
  ⟨other, 1, { roots := [] }, 3, world { life := { life .active with stepRoot := true }, clr.azards := [2, 3] }, by decide⟩
theorem witness_CharterAndKeyReleaseLoading_6 : ∃ (rq : Req) (off len : Nat) (_data : Bytes) (s : State),
    s.opened rq = true ∧ off < 0x10000 ∧ (
    let chain := natLe 4 s.sec.identityChain.length ++ natLe 4 0 ++ s.sec.identityChain
    off + len ≤ chain.length) :=
  ⟨other, 0, 8, [], inState .empty, by decide⟩

theorem witness_LifeCycleAndEntropy_1 : ∃ (rq : Req) (_data : Word) (s : State),
    s.served rq true .both = true ∧ s.keptAnswer rq 0xF060 = none :=
  ⟨mgmt, 1, State.reset, by decide⟩
theorem witness_LifeCycleAndEntropy_2 : ∃ (rq : Req) (_data : Word) (a : KeptAnswer) (s : State),
    s.served rq true .both = true ∧ s.keptAnswer rq 0xF060 = some a :=
  ⟨mgmt, 1, answered 0xF060 mgmt, { State.reset with ctl.kept := [answered 0xF060 mgmt] }, by decide⟩
theorem witness_LifeCycleAndEntropy_3 : ∃ (rq : Req) (length : BitVec 32) (seq : BitVec 16) (k : Nat) (c : Instr) (s : State),
    s.lcWrite rq length seq = true ∧ (c = .lcEnroll rq length seq ∧ k = 1 ∨ c = .lcRotate rq length seq ∧
      k = 2 ∨ c = .lcDisown rq length seq ∧ k = 3 ∨ c = .lcService rq length seq ∧ k = 4 ∨ c = .lcRetire rq length seq ∧
      k = 5 ∨ c = .lcProvision rq length seq ∧ k = 6) :=
  ⟨mgmt, 32, 1, 6, .lcProvision mgmt 32 1, { State.reset with sec.lcData := List.replicate 32 0 }, by decide,
    .inr (.inr (.inr (.inr (.inr ⟨rfl, rfl⟩))))⟩
theorem witness_LifeCycleAndEntropy_4 : ∃ (s : State),
    s.kin.power = .ready ∧ s.sec.failTimes.length < 2 :=
  ⟨{ State.reset with sec.failTimes := [0] }, by decide⟩
theorem witness_LifeCycleAndEntropy_5 : ∃ (a b : Word) (s : State),
    s.kin.power = .ready ∧ s.sec.failTimes = [a, b] ∧ (s.now - a).toNat < second :=
  ⟨1, 2, { State.reset with sec.failTimes := [1, 2], tim.offset := 1000000000 }, by decide⟩
theorem witness_LifeCycleAndEntropy_6 : ∃ (a b : Word) (s : State),
    s.kin.power = .ready ∧ s.sec.failTimes = [a, b] ∧ second ≤ (s.now - a).toNat :=
  ⟨1, 2, { State.reset with sec.failTimes := [1, 2], tim.offset := 1000000001 }, by decide⟩
theorem witness_LifeCycleAndEntropy_7 : ∃ (s : State),
    s.sec.drbgValid = true :=
  ⟨State.reset, by decide⟩
theorem witness_LifeCycleAndEntropy_8 : ∃ (_tms : Bool) (s : State),
    s.sec.lc ≠ .service :=
  ⟨true, State.reset, by decide⟩
theorem witness_LifeCycleAndEntropy_9 : ∃ (_tms : Bool) (s : State),
    s.sec.lc = .service :=
  ⟨true, { State.reset with sec.lc := .service }, by decide⟩

theorem witness_CheckpointsDrainAndCommit_1 : ∃ (c : Fin 16) (s : State),
    (s.ctx c).esc.included = [] :=
  ⟨15, State.reset, by decide⟩
theorem witness_CheckpointsDrainAndCommit_2 : ∃ (c : Fin 16) (i : BitVec 16) (p : Nat) (s : State),
    (s.ctx c).esc.included = [i] ∧ State.drains (s.entry i.toNat) = true ∧ s.nextPage c i.toNat = some p ∧
      s.mayPut c i.toNat = true :=
  ⟨15, 65535, 0, draining { included := [65535] } { drainSet := [0], snapVoted := [(0, 1)] }, by decide⟩
theorem witness_CheckpointsDrainAndCommit_3 : ∃ (c : Fin 16) (i : BitVec 16) (p : Nat) (s : State),
    (s.ctx c).esc.included = [i] ∧ State.drains (s.entry i.toNat) = true ∧ s.nextPage c i.toNat = some p ∧
      s.mayPut c i.toNat = true ∧ (s.ctx c).esc.curSeq ≠ 0 ∧ s.heldOk i.toNat p (s.heldContent c i.toNat p) = false ∧
      State.otherLost (s.entry i.toNat) = true :=
  ⟨15, 65535, 0, draining { included := [65535] } { drainSet := [0], snapVoted := [(0, 1)], degradedP := true }, by decide,
    by decide, by decide, by decide, by decide, by decide +kernel, by decide⟩
theorem witness_CheckpointsDrainAndCommit_4 : ∃ (c : Fin 16) (i : BitVec 16) (s : State),
    (s.ctx c).esc.included = [i] ∧ State.drains (s.entry i.toNat) = true ∧ s.nextPage c i.toNat = none ∧
      s.manifestDue c i.toNat = true ∧ s.mayPut c i.toNat = true :=
  ⟨15, 65535, draining { included := [65535] } {}, by decide⟩
theorem witness_CheckpointsDrainAndCommit_5 : ∃ (id : BitVec 32) (s : State),
    (∀ o ∈ s.ctl.out, o.id ≠ id) :=
  ⟨5, State.reset, by decide⟩
theorem witness_CheckpointsDrainAndCommit_6 : ∃ (o : Outstanding) (c : Fin 16) (f : BitVec 16) (i p : Nat) (s : State),
    s.ctl.out = [o] ∧ o.msg.dest = .node c f ∧ o.msg.op = .wrc ∧ o.msg.args = [1, 1, i, p, (s.ctx c).esc.curSeq.toNat] ∧
      (s.ctx c).esc.curSeq ≠ 0 ∧ s.noSeals c = true :=
  ⟨putOf [1, 1, 65535, 0, 9], 15, 3, 65535, 0, { draining {} {} with ctl.out := [putOf [1, 1, 65535, 0, 9]] }, by decide⟩
theorem witness_CheckpointsDrainAndCommit_7 : ∃ (o : Outstanding) (c : Fin 16) (f : BitVec 16) (i p : Nat) (s : State),
    s.ctl.out = [o] ∧ o.msg.dest = .node c f ∧ o.msg.op = .wrc ∧ o.msg.args = [1, 3, i, p, (s.ctx c).esc.curSeq.toNat] ∧
      (s.ctx c).esc.curSeq ≠ 0 ∧ s.noSeals c = true ∧ (s.ctx c).esc.manifestsOut = 1 :=
  ⟨putOf [1, 3, 65535, 0, 9], 15, 3, 65535, 0,
    { draining { manifestsOut := 1 } {} with ctl.out := [putOf [1, 3, 65535, 0, 9]] }, by decide⟩
theorem witness_CheckpointsDrainAndCommit_8 : ∃ (rq : Req) (shard : Word) (seq : BitVec 32) (_page i : Nat) (s : State),
    s.reaches rq false = true ∧ (s.findShard rq.ctx shard true).or (s.findShard rq.ctx shard false) = some i ∧
      (s.ctx rq.ctx).esc.curSeq = seq ∧ seq ≠ 0 ∧ (s.entry i).peer = rq.source ∧ s.noSeals rq.ctx = true :=
  ⟨other, 0, 9, 0, 65535, draining {} { peer := 2 }, by decide⟩
theorem witness_CheckpointsDrainAndCommit_9 : ∃ (rq : Req) (seq : DoneSeq) (_shard _claim : Word) (_target : BitVec 8)
  (_d : Digest) (s : State),
    s.reaches rq false = true ∧ (s.ctx rq.ctx).life.stepRoot = true ∧ (s.ctx rq.ctx).esc.curSeq = seq.seq ∧ seq.seq ≠ 0 :=
  ⟨other, { seq := 9 }, 0, 0, 0, 0, world { life := { life .active with stepRoot := true }, esc.curSeq := 9 }, by decide⟩
theorem witness_CheckpointsDrainAndCommit_10 : ∃ (c : Fin 16) (s : State),
    s.manifestReady c = false :=
  ⟨15, State.reset, by decide⟩
theorem witness_CheckpointsDrainAndCommit_11 : ∃ (c : Fin 16) (s : State),
    s.manifestReady c = true :=
  ⟨15, world { life := { life .active with stepRoot := true }, esc := { curSeq := 9, head := some 0 } }, by decide⟩
theorem witness_CheckpointsDrainAndCommit_12 : ∃ (rq : Req) (_seq : BitVec 32) (s : State),
    s.reaches rq false = true :=
  ⟨other, 9, inState .active, by decide⟩
theorem witness_CheckpointsDrainAndCommit_13 : ∃ (rq : Req) (seq : BitVec 32) (_cause : BitVec 8) (s : State),
    s.reaches rq false = true ∧ seq ≠ 0 ∧ (s.ctx rq.ctx).esc.curSeq = seq ∧ s.noSeals rq.ctx = true :=
  ⟨other, 9, 6, draining {} {}, by decide⟩
theorem witness_CheckpointsDrainAndCommit_14 : ∃ (rq : Req) (n : Fin 16) (_max : BitVec 32) (seqno : BitVec 16) (s : State),
    s.rstWrite rq n seqno = true ∧ s.noSeals n = true ∧ (s.ctx n).esc.curSeq ≠ 0 :=
  ⟨host, 15, 0, 1, draining {} {}, by decide⟩
theorem witness_CheckpointsDrainAndCommit_15 : ∃ (rq : Req) (n : Fin 16) (_max : BitVec 32) (seqno : BitVec 16)
  (_c : Candidate) (_reached : Bool) (s : State),
    s.rstWrite rq n seqno = true ∧ s.noSeals n = true ∧ (s.ctx n).esc.curSeq = 0 ∧ (s.ctx n).life.relUnits = [] :=
  ⟨host, 15, 0xFFFFFFFF, 1, { seq := 9, manifest := [], shards := [] }, true, inState .quiesced, by decide⟩
theorem witness_CheckpointsDrainAndCommit_16 : ∃ (rq : Req) (n : Fin 16) (_max : BitVec 32) (seqno : BitVec 16) (s : State),
    s.rstWrite rq n seqno = true ∧ s.noSeals n = true ∧ (s.ctx n).esc.curSeq = 0 ∧ (s.ctx n).life.st = .quiesced ∧
      (s.ctx n).life.stepRoot = true ∧ (s.ctx n).life.charter.lineage ≠ 0 ∧ (s.ctx n).life.charter.flues ≠ [] :=
  ⟨host, 15, 1, 1,
    world { life := { life .quiesced with stepRoot := true, charter := { (life .quiesced).charter with lineage := 1, flues := [3] } } }, by decide⟩

theorem witness_FlueTargetsAndSpillPeers_1 : ∃ (f : Fin 4) (rq : Req) (area : BitVec 4) (slot : BitVec 6) (seqno : BitVec 16)
  (_obj : Bytes) (s : State),
    s.flueNew f rq area slot seqno = true :=
  ⟨3, other, 1, 63, 1, [], State.reset, by decide⟩
theorem witness_FlueTargetsAndSpillPeers_2 : ∃ (f : Fin 4) (rq : Req) (area : BitVec 4) (slot : BitVec 6) (seqno : BitVec 16)
  (_key : Bytes) (s : State),
    s.flueNew f rq area slot seqno = true :=
  ⟨3, other, 1, 63, 1, [], State.reset, by decide⟩
theorem witness_FlueTargetsAndSpillPeers_3 : ∃ (f : Fin 4) (rq : Req) (area : BitVec 4) (slot : BitVec 6) (seqno : BitVec 16)
  (key : Bytes) (s : State),
    s.flueNew f rq area slot seqno = true ∧ (State.parseObject key).kind = 1 :=
  ⟨3, other, 1, 63, 1, List.replicate 6 0 ++ [1], State.reset, by decide⟩
theorem witness_FlueTargetsAndSpillPeers_4 : ∃ (f : Fin 4) (rq : Req) (area : BitVec 4) (slot : BitVec 6) (seqno : BitVec 16)
  (key : Bytes) (s : State),
    s.flueNew f rq area slot seqno = true ∧ (State.parseObject key).kind = 3 :=
  ⟨3, other, 1, 63, 1, List.replicate 6 0 ++ [3], State.reset, by decide⟩
theorem witness_FlueTargetsAndSpillPeers_5 : ∃ (f : Fin 4) (rq : Req) (area : BitVec 4) (slot : BitVec 6) (seqno : BitVec 16)
  (key : Bytes) (s : State),
    s.flueNew f rq area slot seqno = true ∧ (State.parseObject key).kind ≠ 1 ∧ (State.parseObject key).kind ≠ 3 :=
  ⟨3, other, 1, 63, 1, [], State.reset, by decide⟩
theorem witness_FlueTargetsAndSpillPeers_8 : ∃ (rq : Req) (p : Fin 25) (_slot : Nat) (_d : Bytes) (s : State),
    rq.path = .port p ∧ s.reaches rq false = true ∧ rq.ctxv = false ∧ s.isSpillPeer p = true :=
  ⟨peerQ, 24, 8191, [], { port24 { state := .up } with kin.img.spillPeer0 := 0x8000000000000000 }, by decide⟩
theorem witness_FlueTargetsAndSpillPeers_9 : ∃ (rq : Req) (p : Fin 25) (_slot : Nat) (_data : Option Bytes) (s : State),
    rq.path = .port p ∧ s.reaches rq false = true ∧ (rq.ctxv = true ∨ s.isSpillPeer p = false) :=
  ⟨peerQ, 24, 8191, none, port24 { state := .up }, by decide⟩

theorem witness_LinkRegistersTrainingAndHello_1 : ∃ (rq : Req) (p : Fin 25) (_data : Word) (s : State),
    s.servedReady rq = true ∧ s.isSpillPeer p = false :=
  ⟨mgmt, 24, 0, State.reset, by decide⟩
theorem witness_LinkRegistersTrainingAndHello_2 : ∃ (rq : Req) (p : Fin 25) (s : State),
    s.servedReady rq = true ∧ s.isSpillPeer p = false :=
  ⟨mgmt, 24, State.reset, by decide⟩
theorem witness_LinkRegistersTrainingAndHello_3 : ∃ (rq : Req) (_p : Fin 25) (_data : Word) (s : State),
    s.servedReady rq = true :=
  ⟨mgmt, 24, 0, State.reset, by decide⟩
theorem witness_LinkRegistersTrainingAndHello_4 : ∃ (rq : Req) (_data : Word) (s : State),
    s.servedReady rq = true ∧ (∀ p, s.isSpillPeer p = false) :=
  ⟨mgmt, 0, State.reset, by decide, fun _ => rfl⟩
theorem witness_LinkRegistersTrainingAndHello_5 : ∃ (p : Fin 25) (s : State),
    s.kin.power = .ready ∧ (s.port p).state = .down ∧ (s.port p).enable = true ∧ s.isAnchor p = true ∧ s.moduleReady p = true :=
  ⟨24, port24 { enable := true, mode := 0, width := 1 }, by decide⟩
theorem witness_LinkRegistersTrainingAndHello_6 : ∃ (p : Fin 25) (_lanes : BitVec 16) (s : State),
    (s.port p).state = .training :=
  ⟨24, 16, port24 { state := .training }, by decide⟩
theorem witness_LinkRegistersTrainingAndHello_7 : ∃ (p : Fin 25) (s : State),
    s.isSpillPeer p = false :=
  ⟨24, port24 { state := .training }, by decide⟩
theorem witness_LinkRegistersTrainingAndHello_8 : ∃ (p : Fin 25) (_raw : Bytes) (s : State),
    (s.port p).state = .hello ∧ (s.port p).helloGot = none ∧ s.isSpillPeer p = false :=
  ⟨24, [], port24 { state := .hello }, by decide⟩
theorem witness_LinkRegistersTrainingAndHello_9 : ∃ (p : Fin 25) (h : Hello) (_ct _sig : Bytes) (s : State),
    (s.port p).state = .hello ∧ (s.port p).helloGot = some h ∧ (s.port p).keysSet = false ∧ s.initiates p h = false ∧
      s.isSpillPeer p = false :=
  ⟨24, hello, [], [], port24 { state := .hello, helloGot := some hello }, by decide⟩
theorem witness_LinkRegistersTrainingAndHello_10 : ∃ (p : Fin 25) (h : Hello) (_payload : Bytes) (s : State),
    (s.port p).state = .hello ∧ (s.port p).helloGot = some h ∧ (s.port p).keysSet = true ∧ (s.port p).finishGot = false ∧
      s.isSpillPeer p = false ∧ (s.port p).peerEpoch = h.packageEpoch ∧ s.sec.error = false :=
  ⟨24, hello, [], port24 { state := .hello, helloGot := some hello, keysSet := true }, by decide⟩

theorem witness_LinkTrafficVerdictsAndTopology_1 : ∃ (p : Fin 25) (c : Codeword) (s : State),
    (s.port p).state = .up ∧ (s.port p).mode ≠ 2 ∧ c.correctable = false ∧ (s.port p).discarding = false :=
  ⟨24, { cw with correctable := false }, port24 { state := .up }, by decide⟩
theorem witness_LinkTrafficVerdictsAndTopology_2 : ∃ (p : Fin 25) (c : Codeword) (s : State),
    (s.port p).state = .up ∧ (s.port p).mode ≠ 2 ∧ c.correctable = true ∧ c.packets = [] ∧ c.nack = false :=
  ⟨24, cw, port24 { state := .up }, by decide⟩
theorem witness_LinkTrafficVerdictsAndTopology_3 : ∃ (p : Fin 25) (c : Codeword) (s : State),
    (s.port p).state = .up ∧ (s.port p).mode ≠ 2 ∧ c.correctable = true ∧ c.packets = [] ∧ c.nack = true ∧
      s.isSpillPeer p = false :=
  ⟨24, { cw with nack := true }, port24 { state := .up }, by decide⟩
theorem witness_LinkTrafficVerdictsAndTopology_4 : ∃ (p : Fin 25) (c : Codeword) (x : Packet) (s : State),
    (s.port p).state = .up ∧ (s.port p).mode ≠ 2 ∧ c.correctable = true ∧ c.nack = false ∧ c.packets = [x] ∧ x.crcOk = true ∧
      c.seq = (s.port p).rxSeq ∧ (x.req.ctxv = true → (s.port p).closedFor.contains x.req.ctx.val = false) :=
  ⟨24, { cw with packets := [pkt] }, pkt, port24 { state := .up }, by decide⟩
theorem witness_LinkTrafficVerdictsAndTopology_5 : ∃ (p : Fin 25) (c : Codeword) (x : Packet) (s : State),
    (s.port p).state = .up ∧ (s.port p).mode = 2 ∧ c.correctable = true ∧ c.packets = [x] ∧ x.crcOk = true ∧ x.tagOk = true ∧
      x.vc ≠ 3 ∧ (s.port p).rsnIn.toNat < x.rsn.toNat ∧ (s.port p).gapDue = false :=
  ⟨24, { cw with packets := [pkt] }, pkt, port24 { state := .up, mode := 2 }, by decide⟩
theorem witness_LinkTrafficVerdictsAndTopology_6 : ∃ (p : Fin 25) (_rsn : BitVec 48) (s : State),
    (s.port p).state = .up ∧ (s.port p).mode = 2 ∧ s.isSpillPeer p = false :=
  ⟨24, 1, port24 { state := .up, mode := 2 }, by decide⟩
theorem witness_LinkTrafficVerdictsAndTopology_7 : ∃ (p : Fin 25) (_present : Bool) (_st : BitVec 3) (_temp : BitVec 8)
  (_s : State),
    21 ≤ p.val :=
  ⟨21, true, 3, 0, State.reset, by decide⟩
theorem witness_LinkTrafficVerdictsAndTopology_8 : ∃ (p : Fin 25) (s : State),
    (s.port p).mode = 2 ∧ (s.port p).state = .down :=
  ⟨24, port24 { mode := 2 }, by decide⟩
theorem witness_LinkTrafficVerdictsAndTopology_9 : ∃ (p : Fin 25) (s : State),
    s.isSpillPeer p = false :=
  ⟨24, State.reset, by decide⟩
theorem witness_LinkTrafficVerdictsAndTopology_10 : ∃ (p : Fin 25) (a : Topo) (s : State),
    9 ≤ p.val ∧ (s.port p).state = .up ∧ State.posEq a.pos s.fabric.selfPos = false ∧
      State.posEq a.pos (s.port p).peerPos = false :=
  ⟨24, topoOf, port24 { state := .up }, by decide⟩
theorem witness_LinkTrafficVerdictsAndTopology_11 : ∃ (s : State),
    s.kin.power = .ready :=
  ⟨State.reset, by decide⟩

theorem witness_IncrementAndOffsetSteps_1 : ∃ (rq : Req) (_data : Word) (s : State),
    s.served rq false .both = true :=
  ⟨mgmt, 0, State.reset, by decide⟩
theorem witness_IncrementAndOffsetSteps_2 : ∃ (rq : Req) (_data : Word) (s : State),
    s.served rq false .both = true :=
  ⟨mgmt, 0, State.reset, by decide⟩
theorem witness_IncrementAndOffsetSteps_3 : ∃ (s : State),
    (s.kin.power ≠ .off ∧ s.tim.offNext = some 1 ∧ s.evr.freeze = false) :=
  ⟨{ State.reset with tim.offNext := some 1 }, by decide⟩
theorem witness_IncrementAndOffsetSteps_4 : ∃ (s : State),
    s.kin.power = .off :=
  ⟨kinAt .off 0 0, by decide⟩

theorem witness_RtcPulsesPpsAndHoldover_1 : ∃ (rq : Req) (_data : Word) (s : State),
    s.served rq true .both = true :=
  ⟨mgmt, 1, State.reset, by decide⟩
theorem witness_RtcPulsesPpsAndHoldover_2 : ∃ (s : State),
    (s.kin.power ≠ .off ∨ s.pwr.vbatOk = true) :=
  ⟨State.reset, by decide⟩
theorem witness_RtcPulsesPpsAndHoldover_3 : ∃ (s : State),
    s.kin.power = .off ∧ s.pwr.vbatOk = false :=
  ⟨{ kinAt .off 0 0 with pwr.vbatOk := false }, by decide⟩
theorem witness_RtcPulsesPpsAndHoldover_4 : ∃ (rq : Req) (_j : Fin 4) (_data : Word) (s : State),
    s.served rq false .both = true :=
  ⟨mgmt, 3, 1, State.reset, by decide⟩

theorem witness_ProbesAndTheTwoWayExchange_1 : ∃ (rq : Req) (port : BitVec 5) (_id seq : BitVec 16) (_stamp : MacStamp)
  (s : State),
    (s.served rq false .both = true ∧ port.toNat < 25 ∧ seq ≠ s.tim.probeActed ∧ s.exchanges port.toNat = true) :=
  ⟨mgmt, 24, 1, 1, {}, port24 { state := .up }, by decide⟩
theorem witness_ProbesAndTheTwoWayExchange_2 : ∃ (rq : Req) (q : Fin 4) (s : State),
    (s.served rq false .both = true ∧ s.keptAnswer rq (0x3088 + 16 * q.val) = none ∧
      s.keptAnswer rq 0x3088 = some (answered 0x3088 mgmt)) :=
  ⟨mgmt, 3, { State.reset with ctl.kept := [answered 0x3088 mgmt] }, by decide⟩
theorem witness_ProbesAndTheTwoWayExchange_3 : ∃ (p : Fin 25) (_id : BitVec 16) (_stamp : MacStamp) (_echo : Stamp) (s : State),
    s.exchanges p = true :=
  ⟨24, 1, {}, 0, port24 { state := .quarantine }, by decide⟩
theorem witness_ProbesAndTheTwoWayExchange_4 : ∃ (p : Fin 25) (_t1 : MacStamp) (s : State),
    s.exchanges p = true :=
  ⟨24, {}, port24 { state := .up }, by decide⟩
theorem witness_ProbesAndTheTwoWayExchange_5 : ∃ (p : Fin 25) (_m : SyncMsg) (_epoch : BitVec 32) (_t2 _t3 : MacStamp)
  (s : State),
    9 ≤ p.val ∧ s.exchanges p = true :=
  ⟨24, syncOf, 0x00010000, {}, {}, port24 { state := .up }, by decide⟩
theorem witness_ProbesAndTheTwoWayExchange_6 : ∃ (p : Fin 25) (_m : SyncMsg) (_epoch : BitVec 32) (_t2 _t3 : MacStamp)
  (_s : State),
    p.val < 9 :=
  ⟨8, syncOf, 0x00010000, {}, {}, State.reset, by decide⟩
theorem witness_ProbesAndTheTwoWayExchange_7 : ∃ (p : Fin 25) (m : SyncMsg) (_t4 : MacStamp) (s : State),
    s.exchanges p = true ∧ (∀ x ∈ (s.peerTime p).sentReq, x.1 ≠ m.prevSeq) :=
  ⟨24, syncOf, {}, port24 { state := .up }, by decide⟩
theorem witness_ProbesAndTheTwoWayExchange_8 : ∃ (p : Fin 25) (m : SyncMsg) (_t4 : MacStamp) (t1 t2 t4' : Stamp) (s : State),
    s.exchanges p = true ∧ s.tim.source ≠ 0 ∧ m.seq ≠ m.prevSeq ∧ (s.peerTime p).sentReq = [(m.prevSeq, t1)] ∧
      (s.peerTime p).waiting = [(m.prevSeq, t2, t4')] :=
  ⟨24, syncOf, {}, 0, 1, 2,
    { port24 { state := .up } with tim.source := 1, tim.peer := [(24, { sentReq := [(1, 0)], waiting := [(1, 1, 2)] })] },
    by decide⟩

theorem witness_InputsAndEventRecorder_1 : ∃ (i : Fin 16) (_start : Word) (s : State),
    s.inputCfg i ≠ {} ∧ (∀ p, s.isSpillPeer p = false) :=
  ⟨15, 0, { State.reset with kin.img.inputs := [(15, { hold := 1 })] }, by decide, fun _ => rfl⟩
theorem witness_InputsAndEventRecorder_2 : ∃ (i : Fin 16) (_level : Bool) (_start : Word) (s : State),
    s.inputCfg i = {} :=
  ⟨15, true, 0, State.reset, by decide⟩
theorem witness_InputsAndEventRecorder_3 : ∃ (_i : Fin 16) (s : State),
    (∀ p, s.isSpillPeer p = false) :=
  ⟨15, State.reset, fun _ => rfl⟩
theorem witness_InputsAndEventRecorder_4 : ∃ (rq : Req) (_m : BitVec 16) (s : State),
    s.served rq true .both = true :=
  ⟨mgmt, 0x8000, State.reset, by decide⟩
theorem witness_InputsAndEventRecorder_5 : ∃ (rq : Req) (_data : Word) (s : State),
    s.served rq true .both = true :=
  ⟨mgmt, 0, State.reset, by decide⟩
theorem witness_InputsAndEventRecorder_6 : ∃ (rq : Req) (s : State),
    (s.served rq true .both = true ∧ s.keptAnswer rq 0xE078 = none ∧ s.keptAnswer host 0xE078 = some (answered 0xE078 host)) :=
  ⟨mgmt, { State.reset with ctl.kept := [answered 0xE078 host] }, by decide⟩
theorem witness_InputsAndEventRecorder_7 : ∃ (rq : Req) (s : State),
    s.served rq true .both = true :=
  ⟨mgmt, State.reset, by decide⟩
theorem witness_InputsAndEventRecorder_8 : ∃ (s : State),
    s.evr.freeze = true ∧ s.evr.lost = s.evr.lostAtFreeze :=
  ⟨{ State.reset with evr.freeze := true }, by decide⟩

theorem witness_BackgroundWorkAndRequesters_1 : ∃ (_last _good : Bool) (s : State),
    s.die.retireDue = [] ∧ (∀ k : Fin 8, (s.hbm k).retiredPages ≤ 1024) ∧ s.scrubOwed = none :=
  ⟨true, true, State.reset, by decide⟩
theorem witness_BackgroundWorkAndRequesters_2 : ∃ (s : State),
    s.die.retireDue = [] ∧ (∀ k : Fin 8, (s.hbm k).retiredPages ≤ 1024) ∧ s.scrubOwed = none ∧
      s.scrubFrom s.die.scrubPage 8 / State.stackPagesHeld < 8 ∧ (
    let i := s.scrubFrom s.die.scrubPage 8 / State.stackPagesHeld
    (s.hbm i).detTimes.length < 64) :=
  ⟨State.reset, by decide⟩
theorem witness_BackgroundWorkAndRequesters_3 : ∃ (i : Fin 8) (s : State),
    (s.hbm i).failed = false :=
  ⟨7, State.reset, by decide⟩
theorem witness_BackgroundWorkAndRequesters_4 : ∃ (_erases _worst : Nat) (_intact : Bool) (s : State),
    (s.evr.stopped.contains 3 = true ∧ s.evr.stopped.contains 0 = false ∧ s.evr.spareUsed < State.spareTotal) :=
  ⟨1, 1, false, { State.reset with evr.stopped := [3] }, by decide, by decide, spare_left⟩
theorem witness_BackgroundWorkAndRequesters_6 : ∃ (s : State),
    s.tel.hold = true :=
  ⟨{ State.reset with tel.hold := true }, by decide⟩
theorem witness_BackgroundWorkAndRequesters_7 : ∃ (id : BitVec 32) (_r : Result) (_cause : BitVec 8) (_epoch : BitVec 32)
  (_d : Bytes) (s : State),
    (∀ o ∈ s.ctl.out, o.id ≠ id) :=
  ⟨5, .ok, 0, 0, [], State.reset, by decide⟩
theorem witness_BackgroundWorkAndRequesters_8 : ∃ (o : Outstanding) (_r : Result) (_cause : BitVec 8) (_epoch : BitVec 32)
  (_d : Bytes) (s : State),
    s.ctl.out = [o] ∧ o.msg.op = .wr ∧ o.msg.addr ≠ 0x1000 ∧ o.msg.addr / 17592186044416 ≠ 6 :=
  ⟨wrOut, .ok, 0, 0, [], { State.reset with ctl.out := [wrOut] }, by decide⟩
theorem witness_BackgroundWorkAndRequesters_9 : ∃ (o : Outstanding) (s : State),
    s.ctl.out = [o] ∧ s.outside o.since (1000 * o.wait) = false :=
  ⟨wrOut, { State.reset with ctl.out := [wrOut] }, by decide⟩
theorem witness_BackgroundWorkAndRequesters_10 : ∃ (o : Outstanding) (s : State),
    s.ctl.out = [o] ∧ s.outside o.since (1000 * o.wait) = true :=
  ⟨wrOut, { State.reset with ctl.out := [wrOut], tim.offset := 100000 }, by decide⟩
theorem witness_BackgroundWorkAndRequesters_12 : ∃ (p : Fin 25) (rq : Req) (_off _len : Nat) (s : State),
    rq.path = .port p ∧ s.kin.power = .ready ∧ s.portUp p = true ∧ s.rst.drained = false ∧ rq.ctxv = true ∧
      (s.port p).closedFor.contains rq.ctx = false ∧ s.sourceOk p rq = true ∧ rq.epoch = s.epochOf true rq.ctx ∧
      s.queueFull p = true :=
  ⟨9, host, 0, 8, fullPort, rfl, rfl, rfl, rfl, rfl, by decide, by decide, rfl,
    by simp [State.queueFull, State.unanswered, fullPort, led, inState, world, held, host, life, -List.reduceReplicate]⟩

theorem witness_ControlSpaceAccesses_1 : ∃ (rq : Req) (_op : OpCode) (_a _len : Nat) (_data : Bytes) (_env : WriteEnv)
  (s : State),
    s.reaches rq false = true :=
  ⟨mgmt, .fadd, 8, 8, [], {}, State.reset, by decide⟩
theorem witness_ControlSpaceAccesses_2 : ∃ (rq : Req) (_env : WriteEnv) (s : State),
    s.reaches rq false = true :=
  ⟨mgmt, {}, State.reset, by decide⟩
theorem witness_ControlSpaceAccesses_3 : ∃ (rq : Req) (_env : WriteEnv) (s : State),
    s.served rq false .both = true ∧ s.sec.lc ≠ .retired :=
  ⟨mgmt, {}, State.reset, by decide⟩
theorem witness_ControlSpaceAccesses_4 : ∃ (rq : Req) (_v _w : Word) (_env : WriteEnv) (s : State),
    s.served rq false .both = true :=
  ⟨mgmt, 1, 0, {}, State.reset, by decide⟩
theorem witness_ControlSpaceAccesses_6 : ∃ (_data : Bytes) (_env : WriteEnv) (s : State),
    s.kin.power ≠ .off ∧ s.kin.power ≠ .railLost :=
  ⟨[], {}, State.reset, by decide⟩
theorem witness_ControlSpaceAccesses_7 : ∃ (_v : Word) (_env : WriteEnv) (s : State),
    s.kin.power = .ready :=
  ⟨1, {}, State.reset, by decide⟩
theorem witness_ControlSpaceAccesses_8 : ∃ (s : State),
    s.kin.power = .ready ∧ s.sec.lc ≠ .retired ∧ s.ctl.i3cOffset = 0x1008 :=
  ⟨{ State.reset with ctl.i3cOffset := 0x1008 }, by decide⟩
theorem witness_ControlSpaceAccesses_9 : ∃ (_data : Bytes) (_env : WriteEnv) (s : State),
    s.kin.power = .off :=
  ⟨[], {}, kinAt .off 0 0, by decide⟩

theorem witness_EveryStepKeepsTheMachineSound_1 : ∃ (s t : State),
    s.tablesWf = true ∧ s.rangesOk = true ∧ step s = .next t :=
  ⟨State.reset, State.reset, by decide, by decide, rfl⟩


/-! ## Single steps and shared operations, on figures of the spec -/

/-- The state after one command, reset where it does not answer a next state. -/
def after (c : Instr) (s : State) : State :=
  match step { s with pending := [c] } with
  | .next t => t
  | _ => State.reset
/-- An engine after a command. -/
def engAfter (c : Instr) (s : State) : Engine := (after c s).engine 67

-- 06, "Encoding": the three encoded instructions of the worked case
theorem test_word_vfma : encR 0x34 (fr 0 2 22 1 2) = 0x3400158220000000 := by decide
theorem test_word_vld : encI 0x21 (fi 0 4 16 26 0) = 0x2100243400000000 := by decide
theorem test_word_bne : encI 0x06 (fi 0 0 17 0 0xFFFFFFF8) = 0x06000440FFFFFFF8 := by decide

-- 03, R60–R70: 2²⁴ + 1 + 1 at E0 = −79 is 16,777,218 in every order
theorem test_convert : convert (contribValue 0 0 0x4B800000) (-79) = .value (2 ^ 103) (some 24) := by decide +kernel
theorem test_convert_one : convert (contribValue 0 0 0x3F800000) (-79) = .value (2 ^ 79) (some 0) := by decide +kernel
theorem test_final_rne : finalRne 0 (2 ^ 103 + 2 ^ 80) (-79) = (0x4B800001, false) := by decide +kernel
-- 03, R63: 5,242,880 overflows at E0 = −90 and converts at −81, where 3 · 2⁻⁸³ converts to 0
theorem test_overflow : convert (contribValue 0 0 0x4AA00000) (-90) = .overflow 22 := by decide
theorem test_no_overflow : convert (contribValue 0 0 0x4AA00000) (-81) = .value (5 * 2 ^ 101) (some 22) := by decide +kernel
theorem test_truncated : convert (contribValue 0 0 0x16C00000) (-81) = .value 0 (some (-82)) := by decide
-- 03, R61: an MX scale of 255 is not finite, and a scale of 127 leaves FP4 4.0 as it is
theorem test_mx_scale : convert (contribValue 7 255 0) 0 = .nonfinite := by decide
theorem test_mx_four : convert (contribValue 7 127 6) 0 = .value 4 (some 2) := by decide
-- 03, R72, R73: block 5 of the segment of 323 elements
def blockFive : Bytes :=
  [0x02, 0x02, 0, 0, 5, 0, 0, 0, 0, 0, 0x18, 0, 0, 0xFC, 0x99, 0x99, 0x01, 0, 0, 0, 0, 0, 0, 0]
theorem test_block_out :
    encodeBlock 5 [1572864, -262144, 104857] [false, false, false] [false, false, false] false 0 = blockFive := by decide
theorem test_block_in : decodeBlock 323 blockFive =
    some { block := 5, ovf := false, maxexp := 0, nfmask := 0, vals := [1572864, -262144, 104857] } := by decide
theorem test_block_wrong_segment : decodeBlock 322 blockFive = none := by decide

-- 04, R90: group 5 on a closed ring of eight
def ring : List SNode := (List.range 8).map fun i => { lnode := BitVec.ofNat 16 i, pos := 0, co := BitVec.ofNat 64 i }
theorem test_ring : State.buildLine 5 0 (some 8) ring =
    ([(0, 7), (1, 0), (2, 3), (3, 4), (4, 5), (6, 5), (7, 6)], [{ lnode := 5, pos := 0, co := 5 }]) := by decide

-- 05, R126: the vote's table
def allIn : Entry := { st := .live, degradedL := false, degradedP := false }
theorem test_vote_agreed : judgeVote allIn { ballot with y := some 7, l := some 7, p := some 7 } = some .agreed := by decide
theorem test_vote_accel : judgeVote allIn { ballot with y := some 8, l := some 7, p := some 7 } = some .accelOdd := by decide
theorem test_vote_local : judgeVote allIn { ballot with y := some 7, l := some 8, p := some 7 } = some .localOdd := by decide
theorem test_vote_partner : judgeVote allIn { ballot with y := some 7, l := some 7, p := some 8 } = some .partnerOdd := by decide
theorem test_vote_none : judgeVote allIn { ballot with y := some 7, l := some 8, p := some 9 } = some .noMajority := by decide

-- 05, R116 and 18: the CAS that grants claim 12 on entry 0x0310 answers the old claim 11
def claimed : State := { inState .active with mir.entries := [(65535, { allIn with ctx := 15, claim := 11 })] }
theorem test_claim_answer : ((after (.claimCas host 65535 11 12) claimed).answers.map fun a => (a.result, a.data)) =
    [(.ok, [11, 0, 0, 0, 0, 0, 0, 0])] := by decide +kernel
theorem test_claim_raised : ((after (.claimCas host 65535 11 12) claimed).entry 65535).claim = 12 := by decide +kernel
theorem test_claim_other : ((after (.claimCas host 65535 10 12) claimed).entry 65535).claim = 11 := by decide +kernel

-- 13, R309: the tick after the increment becomes 10.000120 ns
def ticking : State :=
  { State.reset with tim.acc := BitVec.ofNat 96 (40000000000 * 2 ^ 32), tim.incNext := some 0x0000000A0007DD44 }
theorem test_tick_time : (after .refclkTick ticking).now = 40000000010 := by decide
theorem test_tick_fraction : (after .refclkTick ticking).tim.acc.toNat % 2 ^ 32 = 0x0007DD44 := by decide
-- 13, R316: θ is 6.875 ns on the link to the parent
def stampOf (ns thousandths : Nat) : Stamp := (ns * 1000 + thousandths) * 2 ^ 32 / 1000
theorem test_theta : ((State.reset.completeExchange 9 (stampOf 1000000000000 0) (stampOf 1000000000107 250)
    (stampOf 1000000020000 0) (stampOf 1000000020093 500)).peerTime 9).theta = 1760 := by decide

-- 10, R244: the BF16 record of the worked case matches, and with the odd cell it does not
def bf16Case (out : BitVec 32) : CaptureRec :=
  { jobOf with m := 2, k := 2, n := 1, abfmt := 1, eA := [0x40600000, 0xBE800000], b := [0x4000, 0x4080],
               eCin := [0x3FC00000], eCout := [out] }
theorem test_capture_match : State.columnOdd 4 (bf16Case 0x40F00000) 0 = false := by decide +kernel
theorem test_capture_mismatch : State.columnOdd 4 (bf16Case 0x41180000) 0 = true := by decide +kernel

-- 19, R430: 842 W under a limit of 700 W halves rate work and asserts THROTTLE_OUT; then the clock falls a step a window
def limited : State := { State.reset with pwr.limit := 700 }
def drawing (mw : BitVec 32) : PowerSample := { mw, junction := 0, hbmHot := false }
theorem test_power_first : (after (.powerWindow <| drawing 842000) limited).pwr.halved = true := by decide
theorem test_power_out : (after (.powerWindow <| drawing 842000) limited).pwr.out = true := by decide
theorem test_power_stays : (after (.powerWindow <| drawing 842000) limited).pwr.clockSteps = 0 := by decide
theorem test_power_second : (after (.powerWindow <| drawing 805000) { limited with pwr.halved := true, pwr.active := true }).pwr.clockSteps = 1 := by decide
theorem test_power_between : (after (.powerWindow <| drawing 698000) { limited with pwr.halved := true, pwr.active := true }).pwr.halved = true := by decide

-- SHAKE256 of the empty string begins 46 B9 DD 2B (FIPS 202, as 00 cites it)
theorem test_shake : shake256 [] 4 = [0x46, 0xB9, 0xDD, 0x2B] := by decide +kernel

-- 06, R157, R159: s0 reads 0, an addition wraps, a branch is taken
def scalars : Engine := { regs := { s := [(1, 0xFFFFFFFFFFFFFFFF), (2, 2)] } }
theorem test_sadd_wraps : (engAfter (.sadd 67 (fr 0 3 1 2 0)) (eng (encR 0x12 (fr 0 3 1 2 0)) scalars)).regs.sc 3 = 1 := by decide
theorem test_sadd_s0 : (engAfter (.sadd 67 (fr 0 0 1 2 0)) (eng (encR 0x12 (fr 0 0 1 2 0)) scalars)).regs.sc 0 = 0 := by decide

-- one tick counts one in the raw counter (13, R308)
theorem test_front_first : (after .refclkTick { State.reset with pending := [] }).tim.raw = 1 := by decide

-- 18, R401, R402, R416: a limit of 100 W is raised to 300 W; an access off an 8-byte bound is answered NACK_ADDRESS
theorem test_limit_clamped : (after (.registerWrite mgmt .wr 0x1008 8 (natLe 8 100) {}) State.reset).pwr.limit = 300 := by decide
theorem test_misaligned : ((after (.registerWrite mgmt .rd 0x100C 8 [] {}) State.reset).answers.map fun a => a.result) =
    [.nackAddress] := by decide
theorem test_increment_stored : (after (.timeIncrementWrite mgmt 0x0000000A0007DD44) State.reset).tim.incNext =
    some 0x0000000A0007DD44 := by decide

end Sys2Proof.Tests
end

section
/-!
PROOFS. The statements of 00, "Scope": accesses to control space (18 R413, R414) and the state after reset.  First what an
access does, one rule per outcome; then what the registers named store; then the management paths.
-/

namespace Sys2Proof.Machine
open State

/-! ## Numbers in little-endian bytes -/

@[simp] theorem natLe_length (n x : Nat) : (natLe n x).length = n := by
  induction n generalizing x with
  | zero => rfl
  | succ n ih => simp [natLe, ih]

/-- The bytes of a number give it back, as far as they reach. -/
theorem leNat_natLe (n x : Nat) : leNat (natLe n x) = x % 256 ^ n := by
  induction n generalizing x with
  | zero => simp [natLe, leNat, Nat.mod_one]
  | succ n ih => simp [natLe, leNat, ih, Nat.pow_succ', Nat.mod_mul]

theorem Bytes.le_natLe_append (n x : Nat) (d : Bytes) : Bytes.le (natLe n x ++ d) 0 n = x % 256 ^ n := by
  simp [Bytes.le, leNat_natLe]

theorem Bytes.word_natLe_append (v : Word) (d : Bytes) : Bytes.word (natLe 8 v.toNat ++ d) 0 = v := by
  have hv : v.toNat % 256 ^ 8 = v.toNat := Nat.mod_eq_of_lt v.isLt
  rw [Bytes.word, Bytes.le_natLe_append, hv, BitVec.ofNat_toNat, BitVec.setWidth_eq]

theorem Bytes.word_append_right (b d : Bytes) (o : Nat) : Bytes.word (b ++ d) (b.length + o) = Bytes.word d o := by
  simp [Bytes.word, Bytes.le]

theorem Bytes.at_natLe (n x : Nat) : Bytes.at (natLe n x) 0 n = natLe n x := by
  have ht : (natLe n x).take n = natLe n x := List.take_of_length_le (Nat.le_of_eq (natLe_length n x))
  simp only [Bytes.at, List.drop_zero, ht, natLe_length, Nat.sub_self, List.replicate_zero, List.append_nil]

@[simp] theorem payloadWords_nil : payloadWords [] = [] := rfl

/-- A payload that begins with the bytes of a word begins with that word. -/
@[simp] theorem payloadWords_natLe_append (v : Word) (d : Bytes) :
    payloadWords (natLe 8 v.toNat ++ d) = v :: payloadWords d := by
  have hrest (i : Nat) : Bytes.word (natLe 8 v.toNat ++ d) (8 * (i + 1)) = Bytes.word d (8 * i) := by
    have h := Bytes.word_append_right (natLe 8 v.toNat) d (8 * i)
    rwa [natLe_length, show 8 + 8 * i = 8 * (i + 1) by omega] at h
  simp [payloadWords, List.range_succ_eq_map, Bytes.word_natLe_append, hrest, Function.comp_def]

@[simp] theorem payloadWords_natLe (v : Word) : payloadWords (natLe 8 v.toNat) = [v] := by
  simpa using payloadWords_natLe_append v []

/-- A clamped field holds the nearer limit (R416). -/
theorem clampField_toNat {n least most : Nat} (w : Word) (lo : Nat) (hl : least ≤ most) (hm : most < 2 ^ n) :
    (clampField w lo n least most).toNat = max least (min most (w.extractLsb' lo n).toNat) := by
  have h : clampNat least most (w.extractLsb' lo n).toNat = max least (min most (w.extractLsb' lo n).toNat) := by
    unfold clampNat; split
    · omega
    · split <;> omega
  rw [clampField, h, BitVec.toNat_ofNat, Nat.mod_eq_of_lt (by omega)]

namespace State

variable (s : State)

/-! ## Requests that reach control space -/

/-- What reaches a register that does not answer in ember mode reaches one that does (R365). -/
theorem reaches_ember {rq : Req} (h : s.reaches rq false = true) (e : Bool) : s.reaches rq e = true := by
  have hans (h : s.answering false = true) : s.answering e = true := by
    unfold answering at *; split at h <;> simp_all
  unfold reaches at *
  cases hp : rq.path <;> simp_all

theorem served_iff {rq : Req} {e : Bool} {w : Who} :
    s.served rq e w = true ↔ s.reaches rq e = true ∧ s.mayUse rq w = true := by
  simp [served]

/-- A requester of control space may write there, and read what is readable (R343, R348). -/
theorem mayAccess_of_mayUse {rq : Req} {op : OpCode} {a : Nat} (h : s.mayUse rq .both = true)
    (hr : op ≠ .rd ∨ s.readable a = true) : s.mayAccess rq op a = true := by
  have hu : (management rq || s.endpoint rq) = true := h
  unfold mayAccess
  rw [hu]
  rcases hr with hr | hr <;> simp [hr]

theorem mayAccess_of_served {rq : Req} {op : OpCode} {a : Nat} {e : Bool} (h : s.served rq e .both = true)
    (hr : op ≠ .rd ∨ s.readable a = true) : s.mayAccess rq op a = true :=
  s.mayAccess_of_mayUse (s.served_iff.mp h).2 hr

/-- Outside RETIRED every register is readable (R348). -/
theorem readable_of_lc (a : Nat) (h : s.sec.lc ≠ .retired) : s.readable a = true := by
  simp [readable, h]

/-- Anyone reads ID_ (R343). -/
theorem mayAccess_id (rq : Req) {a : Nat} (h : a < 0x1000) : s.mayAccess rq .rd a = true := by
  simp [mayAccess, readable, h]

/-! ## The rules of an access, one per outcome (R413) -/

section
variable {s} {rq : Req} {op : OpCode} {a n : Nat} {data : Bytes} {e : WriteEnv} {new : Bool}

theorem access_nackAccess_of_op (h : s.reaches rq false = true) (hr : op ≠ .rd) (hw : op ≠ .wr) :
    s.access rq op a n data e new = s.nackAccess rq := by
  simp [access, judge_eq _ (s.reaches_ember h _), hr, hw]

theorem access_nackAddress (h : s.reaches rq false = true) (ho : op = .rd ∨ op = .wr)
    (hb : inBlock a (if op = .rd then n else data.length) = false) :
    s.access rq op a n data e new = s.nackAddress rq := by
  have hop : (decide (op ≠ .rd) && decide (op ≠ .wr)) = false := by rcases ho with rfl | rfl <;> rfl
  simp only [access, judge_eq _ (s.reaches_ember h _), hop, hb, Bool.not_false, Bool.true_or, Bool.false_eq_true, if_true,
    if_false]

theorem access_nackAccess_of_requester (h : s.reaches rq false = true) (ho : op = .rd ∨ op = .wr)
    (hb : inBlock a (if op = .rd then n else data.length) = true) (hn : (if op = .rd then n else data.length) ≤ 256)
    (hm : s.mayAccess rq op a = false) : s.access rq op a n data e new = s.nackAccess rq := by
  have hop : (decide (op ≠ .rd) && decide (op ≠ .wr)) = false := by rcases ho with rfl | rfl <;> rfl
  have hlong : decide (256 < if op = .rd then n else data.length) = false := decide_eq_false (Nat.not_lt.mpr hn)
  simp only [access, judge_eq _ (s.reaches_ember h _), hop, hb, hlong, hm, Bool.not_true, Bool.not_false, Bool.and_false,
    Bool.or_false, Bool.false_eq_true, if_true, if_false]

/-- An access that starts off an 8-byte boundary, has no whole number of registers or leaves its block (R413). -/
theorem inBlock_eq_false (h : a % 8 ≠ 0 ∨ n % 8 ≠ 0 ∨ n = 0 ∨ inBlock a n = false) : inBlock a n = false := by
  rcases h with h | h | h | h <;> simp_all [inBlock]

/-- A request that was answered before gets the kept answer again (R412). -/
theorem once_of_kept {k : State → State} {x : KeptAnswer} (h : s.keptAnswer rq a = some x) :
    s.once rq a k = s.again rq x.answer := by
  simp [once, h]

/-- A register without an effect of its read is read as it stands. -/
theorem readRegs_of_quiet (l : List Nat) (h : ∀ r ∈ l, readActs r = false) :
    s.readRegs l = (s, l.flatMap fun r => natLe 8 (s.regValue r).toNat) := by
  induction l with
  | nil => rfl
  | cons r l ih =>
    have hr : readActs r = false := h r (by simp)
    have hreg : s.readReg r = (s, s.regValue r) := by
      unfold readReg
      split
      · next hd => simp [readActs, hd] at hr
      · split
        · next he => simp [readActs, he] at hr
        · simp [hr]
    simp [readRegs, hreg, ih fun x hx => h x (by simp [hx])]

/-- A permitted read of registers whose read has no effect (R413). -/
theorem access_rd (h : s.reaches rq false = true) (hb : inBlock a n = true) (hn : n ≤ 256)
    (hm : s.mayAccess rq .rd a = true) (hq : ∀ r ∈ regsOf a n, readActs r = false) :
    s.access rq .rd a n data e new = s.answer rq .ok 0 ((regsOf a n).flatMap fun r => natLe 8 (s.regValue r).toNat) := by
  have hrep : repeats .rd a n data = false := by simpa [repeats] using hq
  simp [access, judge_eq _ (s.reaches_ember h _), hb, hm, hrep, readRegs_of_quiet _ hq, Nat.not_lt.mpr hn]

/-- A permitted write whose repeat would change nothing more, or that is never a repeat (R413, R414). -/
theorem access_wr (h : s.reaches rq false = true) (hb : inBlock a data.length = true)
    (hm : s.mayAccess rq .wr a = true) (hr : repeats .wr a data.length data = false ∨ new = true) :
    s.access rq .wr a n data e new = s.writeRegs rq e a (payloadWords data) := by
  rcases hr with hr | hr <;> simp [access, judge_eq _ (s.reaches_ember h _), hb, hm, hr]

/-- A permitted write whose repeat would double its effect acts once (R412). -/
theorem access_wr_once (h : s.reaches rq false = true) (hb : inBlock a data.length = true)
    (hm : s.mayAccess rq .wr a = true) (hr : repeats .wr a data.length data = true) :
    s.access rq .wr a n data e false = s.once rq a fun s => s.writeRegs rq e a (payloadWords data) := by
  simp [access, judge_eq _ (s.reaches_ember h _), hb, hm, hr]

end

/-! ## Registers written one after another (R405; log entry 38) -/

/-- One register written in a write of several: its answer stands alone, its packets follow those already sent. -/
def wroteOne (rq : Req) (e : WriteEnv) (a : Nat) (w : Word) : State :=
  let t := ({ s with answers := [], sent := [] }).writeReg rq e a w
  { t with sent := s.sent ++ t.sent }

theorem writeRegs_cons (rq : Req) (e : WriteEnv) (a : Nat) (w : Word) (r : List Word) :
    s.writeRegs rq e a (w :: r) = match (s.wroteOne rq e a w).answers, r with
      | [x], _ :: _ => if x.result = .ok then (s.wroteOne rq e a w).writeRegs rq e (a + 8) r else s.wroteOne rq e a w
      | _, _ => s.wroteOne rq e a w := by
  cases r <;> rfl

theorem writeRegs_one (rq : Req) (e : WriteEnv) (a : Nat) (w : Word) :
    s.writeRegs rq e a [w] = s.wroteOne rq e a w := by
  rw [writeRegs_cons]; split <;> simp_all

theorem writeRegs_cons_ok {rq : Req} {e : WriteEnv} {a : Nat} {w : Word} {x : Answer} (r : List Word)
    (hx : (s.wroteOne rq e a w).answers = [x]) (hr : x.result = .ok) (hn : r ≠ []) :
    s.writeRegs rq e a (w :: r) = (s.wroteOne rq e a w).writeRegs rq e (a + 8) r := by
  obtain ⟨v, r, rfl⟩ := List.exists_cons_of_ne_nil hn
  simp [writeRegs_cons, hx, hr]

theorem begin_wroteOne (rq : Req) (e : WriteEnv) (a : Nat) (w : Word) :
    s.begin.wroteOne rq e a w = s.begin.writeReg rq e a w := rfl

/-- A write of one register is that register's own write. -/
theorem begin_writeRegs_one (rq : Req) (e : WriteEnv) (a : Nat) (w : Word) :
    s.begin.writeRegs rq e a [w] = s.begin.writeReg rq e a w := by
  rw [writeRegs_one, begin_wroteOne]

theorem writeReg_of_storeReg {rq : Req} {e : WriteEnv} {a : Nat} {w : Word} {t : State} (h : s.storeReg a w = some t) :
    s.writeReg rq e a w = t.ok rq := by
  simp [writeReg, h]

end State

/-! ## What the commands of this family run -/

theorem exec_registerWrite (rq : Req) (op : OpCode) (a n : Nat) (d : Bytes) (e : WriteEnv) (s : State) :
    exec (.registerWrite rq op a n d e) s = .next (s.begin.access rq op a n d e false) := rfl
theorem exec_sgmiiDatagram (rq : Req) (op : OpCode) (a n : Nat) (d : Bytes) (e : WriteEnv) (s : State) :
    exec (.sgmiiDatagram rq op a n d e) s = .next (s.begin.sgmiiRequest rq op a n d e) := rfl
theorem exec_i3cPrivateWrite (d : Bytes) (e : WriteEnv) (s : State) :
    exec (.i3cPrivateWrite d e) s = .next (s.begin.i3cWrite d e) := rfl
theorem exec_i3cPrivateRead (s : State) : exec .i3cPrivateRead s = .next s.begin.i3cRead := rfl

namespace State
variable (s : State)

/-! ## The registers that the statement names -/

@[simp] theorem begin_mayAccess (rq : Req) (op : OpCode) (a : Nat) : s.begin.mayAccess rq op a = s.mayAccess rq op a := rfl
@[simp] theorem begin_readable (a : Nat) : s.begin.readable a = s.readable a := rfl

theorem regsOf_one (a : Nat) : regsOf a 8 = [a] := by simp [regsOf]

/-- A permitted read of one register of 8 bytes, whose read has no effect. -/
theorem access_rd_one {rq : Req} {a : Nat} {d : Bytes} {e : WriteEnv} {new : Bool} (h : s.reaches rq false = true)
    (hb : inBlock a 8 = true) (hm : s.mayAccess rq .rd a = true) (hq : readActs a = false) :
    s.access rq .rd a 8 d e new = s.answer rq .ok 0 (natLe 8 (s.regValue a).toNat) := by
  rw [access_rd h hb (by decide) hm (by simpa [regsOf_one] using hq)]
  simp [regsOf_one]

/-- A permitted write of one register whose repeat changes nothing more: it has no W1C bit, and it is neither of the two
data registers (R412). -/
theorem access_wr_one {rq : Req} {a n : Nat} {v : Word} {e : WriteEnv} {new : Bool} (h : s.reaches rq false = true)
    (hb : inBlock a 8 = true) (hm : s.mayAccess rq .wr a = true) (h1 : a ≠ 0x2830) (h2 : a ≠ 0xF060)
    (hc : w1cMask a = 0) :
    s.begin.access rq .wr a n (natLe 8 v.toNat) e new = s.begin.writeReg rq e a v := by
  rw [access_wr (by simpa using h) (by simpa using hb) (by simpa using hm), payloadWords_natLe, begin_writeRegs_one]
  exact .inl (by simp [repeats, regsOf_one, h1, h2, hc])

theorem regValue_now : s.regValue 0x3008 = s.now := rfl
theorem regValue_pwrLimit : (s.regValue 0x1008).toNat = s.pwr.limit.toNat := by
  have hlt : s.pwr.limit.toNat < 2 ^ 64 := Nat.lt_of_lt_of_le s.pwr.limit.isLt (by decide)
  show (BitVec.ofNat 64 (s.pwr.limit.toNat <<< 0) ||| 0).toNat = _
  simpa using Nat.mod_eq_of_lt hlt

theorem storeReg_pwrLimit (w : Word) :
    s.storeReg 0x1008 w = some { s with pwr.limit := clampField w 0 11 300 1100 } := rfl
theorem storeReg_timStat (w : Word) :
    s.storeReg 0x3028 w = some { s with tim.txqOvf := w1c s.tim.txqOvf (w.extractLsb' 4 4) } := rfl
theorem storeReg_grantStart (w : Word) : s.storeReg 0xD0A8 w = some { s with tst.grantStart := w } := rfl
theorem storeReg_grantEnd (w : Word) : s.storeReg 0xD0B0 w = some { s with tst.grantEnd := w } := rfl

/-- A register in which every field is RO answers NACK_ACCESS to a write (R8, R413). -/
theorem writeReg_ro {rq : Req} {e : WriteEnv} {a : Nat} (w : Word) (h : a = 0x0008 ∨ a = 0x1000 ∨ a = 0x3008) :
    s.writeReg rq e a w = s.nackAccess rq := by
  rcases h with rfl | rfl | rfl <;> rfl

theorem writeReg_bindCmd (rq : Req) (e : WriteEnv) (w : Word) : s.writeReg rq e 0x90D0 w =
    s.bindCommand rq (ctxFin 0) (w.extractLsb' 0 16) (w.extractLsb' 16 4) (w.extractLsb' 32 16) := rfl

/-- CTX_BIND_CMD is the runtime's alone (R230, R343). -/
theorem writeReg_bindCmd_management {rq : Req} {e : WriteEnv} (w : Word) (h : s.reaches rq false = true)
    (hm : management rq = true) : s.writeReg rq e 0x90D0 w = s.nackAccess rq := by
  have hw : s.mayUse rq .charter = false := by
    show s.endpoint rq = false
    unfold management at hm
    unfold endpoint
    cases hp : rq.path <;> simp_all
  rw [writeReg_bindCmd]
  exact s.control_access h hw

/-! ## Writes of these registers -/

section
variable {s} {rq : Req} {n : Nat} {v w : Word} {e : WriteEnv}

theorem access_wr_pwrLimit {new : Bool} (h : s.reaches rq false = true) (hm : s.mayAccess rq .wr 0x1008 = true) :
    s.begin.access rq .wr 0x1008 n (natLe 8 v.toNat) e new =
      ({ s.begin with pwr.limit := clampField v 0 11 300 1100 }).ok rq := by
  rw [access_wr_one s h (by decide) hm (by decide) (by decide) (by decide), writeReg_of_storeReg _ (storeReg_pwrLimit _ v)]

/-- TST_GRANT_START and TST_GRANT_END, written by one access of 16 bytes. -/
theorem access_wr_grantWindow (h : s.reaches rq false = true) (hm : s.mayAccess rq .wr 0xD0A8 = true) :
    s.begin.access rq .wr 0xD0A8 n (natLe 8 v.toNat ++ natLe 8 w.toNat) e false =
      ({ ({ s.begin with tst.grantStart := v }).ok rq with answers := [], tst.grantEnd := w }).ok rq := by
  have hregs : regsOf 0xD0A8 16 = [0xD0A8, 0xD0B0] := by decide
  have hr : repeats .wr 0xD0A8 16 (natLe 8 v.toNat ++ natLe 8 w.toNat) = false := by
    simp [repeats, hregs, w1cMask]
  have hfirst : s.begin.wroteOne rq e 0xD0A8 v = ({ s.begin with tst.grantStart := v }).ok rq := by
    rw [begin_wroteOne, writeReg_of_storeReg _ (storeReg_grantStart _ v)]
  have hall : s.begin.writeRegs rq e 0xD0A8 [v, w] =
      (({ s.begin with tst.grantStart := v }).ok rq).wroteOne rq e 0xD0B0 w := by
    rw [writeRegs_cons_ok _ [w] (by rw [hfirst]; rfl) rfl (by simp), hfirst, writeRegs_one]
  rw [access_wr (by simpa using h) (by simpa using (by decide : inBlock 0xD0A8 16 = true)) (by simpa using hm)
    (by simpa using hr), payloadWords_natLe_append, payloadWords_natLe, hall, wroteOne,
    writeReg_of_storeReg _ (storeReg_grantEnd _ w)]
  rfl

theorem access_wr_ro {a : Nat} (h : s.reaches rq false = true) (hm : s.mayAccess rq .wr a = true)
    (ha : a = 0x0008 ∨ a = 0x1000 ∨ a = 0x3008) :
    s.begin.access rq .wr a n (natLe 8 v.toNat) e false = s.begin.nackAccess rq := by
  have hb : inBlock a 8 = true ∧ a ≠ 0x2830 ∧ a ≠ 0xF060 ∧ w1cMask a = 0 := by
    rcases ha with rfl | rfl | rfl <;> decide
  obtain ⟨hb, h1, h2, hc⟩ := hb
  rw [access_wr_one s h hb hm h1 h2 hc, writeReg_ro _ v ha]

theorem access_wr_bindCmd_management (h : s.reaches rq false = true) (hm : s.mayAccess rq .wr 0x90D0 = true)
    (hmg : management rq = true) :
    s.begin.access rq .wr 0x90D0 n (natLe 8 v.toNat) e false = s.begin.nackAccess rq := by
  rw [access_wr_one s h (by decide) hm (by decide) (by decide) (by decide),
    writeReg_bindCmd_management _ v (by simpa using h) hmg]

/-- A write of 1 to a W1C bit of TIM_STAT is an access whose repeat is told from a new one (R412). -/
theorem access_wr_timStat (h : s.reaches rq false = true) (hm : s.mayAccess rq .wr 0x3028 = true) (hv : v &&& 0xF0 ≠ 0) :
    s.begin.access rq .wr 0x3028 n (natLe 8 v.toNat) e false = s.begin.once rq 0x3028 fun t =>
      t.writeRegs rq e 0x3028 [v] := by
  have hr : repeats .wr 0x3028 8 (natLe 8 v.toNat) = true := by
    simpa [repeats, regsOf_one, w1cMask] using hv
  rw [access_wr_once (by simpa using h) (by simpa using (by decide : inBlock 0x3028 8 = true)) (by simpa using hm)
    (by simpa using hr), payloadWords_natLe]

theorem access_wr_timStat_new (h : s.reaches rq false = true) (hm : s.mayAccess rq .wr 0x3028 = true)
    (hv : v &&& 0xF0 ≠ 0) (hk : s.keptAnswer rq 0x3028 = none) :
    s.begin.access rq .wr 0x3028 n (natLe 8 v.toNat) e false =
      (({ s.begin with tim.txqOvf := w1c s.tim.txqOvf (v.extractLsb' 4 4) }).ok rq).keepAnswer rq 0x3028 := by
  rw [access_wr_timStat h hm hv, once_eq _ (by simpa using hk), begin_writeRegs_one,
    writeReg_of_storeReg _ (storeReg_timStat _ v)]
  rfl

end

/-! ## The management paths (R414) -/

/-- A datagram to control space is the same access by its path. -/
theorem sgmiiRequest_control (rq : Req) (op : OpCode) {a : Nat} (n : Nat) (d : Bytes) (e : WriteEnv) (ha : a < 2 ^ 44) :
    s.sgmiiRequest rq op a n d e = s.access { rq with path := .sgmii } op a n d e false := if_pos ha

/-- Osfel's other spaces are not permitted on this path, and what no space decodes is no address (R343, R402). -/
theorem sgmiiRequest_other {rq : Req} (op : OpCode) {a : Nat} (n : Nat) (d : Bytes) (e : WriteEnv) (ha : 2 ^ 44 ≤ a)
    (h : s.reaches { rq with path := .sgmii } false = true) :
    s.sgmiiRequest rq op a n d e =
      s.answer { rq with path := .sgmii } (if a < 6 * 2 ^ 44 then .nackAccess else .nackAddress) := by
  have hj : s.sgmiiRequest rq op a n d e = s.judge { rq with path := .sgmii } false _ := if_neg (Nat.not_lt.mpr ha)
  rw [hj, judge_eq _ h]
  split <;> rfl

theorem i3cWrite_off (d : Bytes) (e : WriteEnv) (h : s.kin.power = .off) : s.i3cWrite d e = s := by
  simp [i3cWrite, h]

section
variable {s} {d : Bytes} {e : WriteEnv}

theorem i3cWrite_offset (hoff : s.kin.power ≠ .off) (hlost : s.kin.power ≠ .railLost) (hd : d.length = 4) :
    s.i3cWrite d e = { s with ctl.i3cOffset := BitVec.ofNat 32 (Bytes.le d 0 4), ctl.i3cResult := 0 } := by
  simp [i3cWrite, hoff, hlost, hd]

theorem i3cWrite_otherLength (hoff : s.kin.power ≠ .off) (hlost : s.kin.power ≠ .railLost) (h4 : d.length ≠ 4)
    (h12 : d.length ≠ 12) : s.i3cWrite d e = { s with ctl.i3cResult := 5 } := by
  simp [i3cWrite, hoff, hlost, h4, h12]

end

theorem reaches_i3c (h : s.kin.power = .ready) : s.reaches i3cReq false = true := by
  simp [reaches, i3cReq, answering, h]

theorem mayAccess_i3c {op : OpCode} {a : Nat} (hr : op ≠ .rd ∨ s.readable a = true) : s.mayAccess i3cReq op a = true :=
  s.mayAccess_of_mayUse rfl hr

/-- The 12-byte I3C write: an offset and the 8 bytes of a WR that is never a repeat. -/
theorem i3cWrite_register (o : BitVec 32) (v : Word) (e : WriteEnv) (h : s.kin.power = .ready) {t : State} {x : Answer}
    (ht : s.access i3cReq .wr o.toNat 0 (natLe 8 v.toNat) e true = t) (hx : t.answers.getLast? = some x) :
    s.i3cWrite (natLe 4 o.toNat ++ natLe 8 v.toNat) e =
      { t with answers := s.answers, ctl.i3cOffset := o, ctl.i3cResult := BitVec.ofNat 8 (resultNum x.result) } := by
  have ho : o.toNat % 256 ^ 4 = o.toNat := Nat.mod_eq_of_lt o.isLt
  have hd : (natLe 4 o.toNat ++ natLe 8 v.toNat).drop 4 = natLe 8 v.toNat := by simp
  simp only [i3cWrite, h, Bytes.le_natLe_append, ho, hd, BitVec.ofNat_toNat, BitVec.setWidth_eq, ht, hx]
  simp

/-- The I3C read: the RESULT that waits, or that of the RD, and the 8 bytes of the RD at the offset. -/
theorem i3cRead_register {t : State} {x : Answer}
    (ht : s.access i3cReq .rd s.ctl.i3cOffset.toNat 8 [] {} true = t) (hx : t.answers.getLast? = some x) :
    s.i3cRead = ({ t with answers := s.answers, ctl.i3cResult := 0 }).answer i3cReq .ok 0
      (natLe 1 (if s.ctl.i3cResult = 0 then resultNum x.result else s.ctl.i3cResult.toNat) ++ Bytes.at x.data 0 8) := by
  simp only [i3cRead, ht, hx]

end State

/-- Settles O58: each clause by the rule of access that it names, and by what the register named stores. -/
theorem controlSpaceAccesses : Obligations.ControlSpaceAccesses := by
  unfold Obligations.ControlSpaceAccesses
  simp only [exec_registerWrite, exec_sgmiiDatagram, exec_i3cPrivateWrite, exec_i3cPrivateRead]
  refine ⟨?_, ?_, ?_, ?_, ?_, ?_, ?_, ?_, ?_⟩
  · intro rq op a len data env s (h : s.begin.reaches rq false = true)
    exact ⟨fun hr hw => congrArg _ (access_nackAccess_of_op h hr hw),
      fun ho hb => congrArg _ (access_nackAddress h ho (inBlock_eq_false hb)),
      fun ho hb hn hm => congrArg _ (access_nackAccess_of_requester h ho hb hn hm)⟩
  · intro rq env s (h : s.begin.reaches rq false = true)
    have hm (a : Nat) (ha : a < 0x1000) : s.begin.mayAccess rq .rd a = true := mayAccess_id _ _ ha
    exact ⟨congrArg _ (access_rd_one _ h (by decide) (hm _ (by decide)) (by decide)),
      congrArg _ (access_rd_one _ h (by decide) (hm _ (by decide)) (by decide))⟩
  · intro rq env s h hlc
    have hb : s.begin.reaches rq false = true := (s.served_iff.mp h).1
    have hm (a : Nat) : s.begin.mayAccess rq .rd a = true :=
      s.mayAccess_of_served h (.inr (s.readable_of_lc a hlc))
    rw [access_rd_one _ hb (by decide) (hm _) (by decide), access_rd_one _ hb (by decide) (hm _) (by decide),
      regValue_now, regValue_pwrLimit]
    exact ⟨rfl, rfl⟩
  · intro rq v w env s h
    have hb : s.reaches rq false = true := (s.served_iff.mp h).1
    have hm (a : Nat) : s.mayAccess rq .wr a = true := s.mayAccess_of_served h (.inl (by decide))
    refine ⟨⟨_, congrArg _ (access_wr_pwrLimit hb (hm _)), rfl, ?_, rfl, rfl, rfl, rfl⟩,
      ⟨_, congrArg _ (access_wr_grantWindow hb (hm _)), rfl, rfl, rfl⟩,
      fun a ha => congrArg _ (access_wr_ro hb (hm _) ha), fun hk hv => ?_, fun k hk hv => ?_,
      fun hmg => congrArg _ (access_wr_bindCmd_management hb (hm _) hmg)⟩
    · exact clampField_toNat v 0 (by decide) (by decide)
    · refine ⟨_, congrArg _ (access_wr_timStat_new hb (hm _) hv hk), ?_, by simp [w1c], by simp⟩
      rw [answeredOnly, keepAnswer_answers]
      rfl
    · rw [access_wr_timStat hb (hm _) hv, once_of_kept (by simpa using hk)]
  · intro rq op addr len data env s
    exact ⟨fun ha => congrArg _ (sgmiiRequest_control _ _ _ _ _ _ ha),
      fun ha h => congrArg _ (sgmiiRequest_other s.begin _ _ _ _ ha h)⟩
  · intro data env s hoff hlost
    exact ⟨fun h4 => congrArg _ (i3cWrite_offset hoff hlost h4),
      fun h4 h12 => congrArg _ (i3cWrite_otherLength hoff hlost h4 h12)⟩
  · intro v env s h
    have hw := i3cWrite_register s.begin 0x1008 v env h
      (access_wr_pwrLimit (s.reaches_i3c h) (s.mayAccess_i3c (.inl (by decide)))) rfl
    exact ⟨_, congrArg _ hw, rfl, clampField_toNat v 0 (by decide) (by decide), rfl, rfl, rfl⟩
  · intro s h hlc ho
    have hrd : s.begin.access i3cReq .rd s.begin.ctl.i3cOffset.toNat 8 [] {} true =
        s.begin.answer i3cReq .ok 0 (natLe 8 (s.begin.regValue 0x1008).toNat) := by
      rw [begin_ctl, ho]
      exact access_rd_one _ (s.reaches_i3c h) (by decide) (s.mayAccess_i3c (.inr (s.readable_of_lc _ hlc))) (by decide)
    rw [i3cRead_register _ hrd rfl]
    refine ⟨_, rfl, rfl, rfl, rfl, ?_⟩
    simp [Bytes.at_natLe, regValue_pwrLimit, resultNum]
  · intro data env s h
    exact congrArg _ (i3cWrite_off s.begin data env h)

/-! ## The state after reset -/

/-- A table that lists one value under each of some keys. -/
theorem Map.get_map_const {α : Type} (d v : α) (l : List Nat) (k : Nat) :
    Map.get d (l.map fun j => (j, v)) k = if k ∈ l then v else d := by
  induction l with
  | nil => rfl
  | cons j l ih =>
    by_cases h : j = k
    · simp [Map.get, h]
    · simp [Map.get, h, ih, Ne.symm h]

theorem reset_hearth (h : Nat) : State.reset.hearth h = if h ∈ spareHearths then { role := .spare } else {} :=
  Map.get_map_const _ _ spareHearths h

/-- Settles O59: evaluation of the tables that State.reset lists, and of the defaults of those it leaves empty. -/
theorem resetState : Obligations.ResetState := by
  unfold Obligations.ResetState
  refine ⟨rfl, rfl, rfl, fun n => ⟨rfl, rfl, rfl, rfl⟩, fun n k => rfl, fun i => rfl, ?_, fun q => ⟨rfl, rfl⟩,
    fun i => rfl, fun p => rfl, fun p => rfl, rfl, rfl, rfl, rfl, ⟨rfl, rfl, rfl, rfl, rfl, rfl, rfl, rfl⟩, ⟨rfl, rfl⟩,
    ⟨rfl, rfl, rfl, rfl, rfl⟩, ⟨rfl, rfl, rfl, rfl, rfl, rfl, rfl⟩, rfl, by decide, by decide, rfl, rfl, rfl, rfl, rfl,
    rfl, fun i => rfl, by decide⟩
  intro h
  simp only [reset_hearth, spareHearths, List.mem_cons, List.not_mem_nil, or_false]
  split <;> rfl

end Sys2Proof.Machine
end

section
/-!
PROOFS. The statements of 01, "Azard in the machine": the life cycle, the entropy source and the test access port (R21, R330, R348
to R354, R423).  First what each command leaves; then the recovery that a third failed health test begins.
-/

namespace Sys2Proof.Machine
open State

namespace State

/-! ## Life-cycle commands (R348, R349) -/

section
variable (s : State)

/-- A kindling keeps the life cycle, the keys and their certificates; of the rest of the vault it keeps the nonce (R354). -/
theorem kindle_sec (k c : Nat) : (s.kindle k c).sec =
    { lc := s.sec.lc, identity := s.sec.identity, identityKey := s.sec.identityKey, kemKey := s.sec.kemKey,
      identityChain := s.sec.identityChain, kemCert := s.sec.kemCert, opKey := s.sec.opKey, opSubject := s.sec.opSubject,
      nonce := s.sec.nonce, drbgValid := false, selftest := 0, jtag := decide (s.sec.lc = .service) } := by
  by_cases h1 : k = 1 <;> by_cases h4 : k = 4 <;> simp [kindle, h1, h4]

/-- A kindling after a state that differs from `s` in none of what a kindling entry keeps is a kindling after `s`. -/
theorem enteredFrom_congr {s t u : State} {k : Nat} (h : t.enteredFrom u k) (hr : u.rst.epoch = s.rst.epoch)
    (hk : u.kin.fails = s.kin.fails) (ht : u.tim = s.tim) : t.enteredFrom s k := by
  simpa only [enteredFrom, hr, hk, ht] using h

/-- Zeroising the contexts changes the recorder, the count of zeroisations and what the contexts held (R350). -/
theorem zeroContexts_eq : ∃ z l e, s.zeroContexts = { s with
    sec.zeroCount := z, sec.zeroLast := l, evr := e, ctxs := [], mir.entries := [], alc.dirty := [], alc.waiters := [] } := by
  have hfold (ns : List (Fin 16)) (u : State) : ∃ z l e, ns.foldl (fun (s : State) (n : Fin 16) =>
      if (s.ctx n).life.st = .empty then s else s.zeroised 1) u = { u with sec.zeroCount := z, sec.zeroLast := l, evr := e } := by
    induction ns generalizing u with
    | nil => exact ⟨_, _, _, rfl⟩
    | cons n ns ih =>
      simp only [List.foldl_cons]
      split
      · exact ih u
      · obtain ⟨z, l, e, h⟩ := ih (u.zeroised 1)
        exact ⟨z, l, e, h⟩
  obtain ⟨z, l, e, h⟩ := hfold ctxNums s
  exact ⟨z, l, e, by rw [zeroContexts, h]⟩

/-- Zeroising every secret also ends the device's keys and the operator key (R350). -/
theorem zeroSecrets_eq : ∃ z l e, s.zeroSecrets = { s with
    sec := { s.sec with identityKey := [], kemKey := [], identity := 0, identityChain := [], kemCert := [], opKey := [],
                        opSubject := 0, zeroCount := z, zeroLast := l }
    evr := e, ctxs := [], mir.entries := [], alc.dirty := [], alc.waiters := [] } := by
  obtain ⟨z, l, e, h⟩ := s.zeroContexts_eq
  rw [zeroSecrets, h]
  exact ⟨_, _, _, rfl⟩

/-- The state in which an accepted or refused command is answered: the command noted, its object emptied, the nonce fresh. -/
def lcJudged (length : BitVec 32) (seq : BitVec 16) : State :=
  { s.begin with sec.lcSeq := seq, sec.lcLength := length, sec.lcData := [], sec.lcActed := seq,
                 sec.nonce := s.freeBits 64, free := s.free + 1 }
end

section
variable {s : State} {rq : Req} {length : BitVec 32} {seq : BitVec 16} {k : Nat}

theorem lcWrite_iff : s.lcWrite rq length seq = true ↔ s.served rq true .both = true ∧ seq ≠ s.sec.lcActed ∧
    0x20 ≤ length.toNat ∧ s.sec.lcData.length = (length.toNat + 7) / 8 * 8 := by
  simp [lcWrite, and_assoc]

/-- A command on a whole object: one that fails a check shows the check's code as its cause, any other is carried out. -/
theorem lcCommand_eq (h : s.lcWrite rq length seq = true) :
    (s.lcCause k (s.lcObject k length) ≠ 0 → s.lcCommand rq k length seq = { s.lcJudged length seq with
      sec.lcState := 3, sec.lcCause := BitVec.ofNat 8 (s.lcCause k (s.lcObject k length)) }.ok rq) ∧
    (s.lcCause k (s.lcObject k length) = 0 → ∀ next, lcNext s.sec.lc k = some next → s.lcCommand rq k length seq =
      ({ s.lcJudged length seq with sec.lcState := 2, sec.lcCause := 0 }.ok rq).lcAct k (s.lcObject k length) next) := by
  obtain ⟨hs, hseq, hlen, hd⟩ := lcWrite_iff.mp h
  rw [lcCommand, control_eq _ (by simpa using hs)]
  simp only [begin_sec, if_neg hseq, hd, ne_eq, not_true_eq_false, decide_false, Bool.false_or,
    decide_eq_false (Nat.not_lt.mpr hlen), Bool.false_eq_true, if_false]
  refine ⟨fun hw => ?_, fun hw next hn => ?_⟩ <;> split
  · next h0 _ => exact absurd h0 hw
  · rfl
  · next h1 => cases hn.symm.trans h1; rfl
  · next h0 => exact absurd hn (h0 next hw)

/-- A command that passes the checks has a state that it leads to. -/
theorem lcNext_of_lcCause {o : Bytes} (h : s.lcCause k o = 0) : ∃ next, lcNext s.sec.lc k = some next := by
  cases hn : lcNext s.sec.lc k with
  | some next => exact ⟨next, rfl⟩
  | none =>
    simp only [lcCause, hn, Option.isNone_none, if_true] at h
    (repeat' split at h) <;> cases h

theorem lcNext_retire {st next : LifeCycle} (h : lcNext st 5 = some next) : next = .retired := by
  cases st <;> simp_all [lcNext]

theorem lcNext_service {st next : LifeCycle} (h : lcNext st 4 = some next) : next = .service := by
  cases st <;> simp_all [lcNext]

/-- Of the two commands that end every secret, SERVICE alone leads to the state with JTAG open. -/
theorem lcNext_opens {st next : LifeCycle} (h : lcNext st k = some next) (hk : k = 4 ∨ k = 5) :
    decide (next = .service) = decide (k = 4) := by
  rcases hk with rfl | rfl
  · rw [lcNext_service h]; rfl
  · rw [lcNext_retire h]; rfl

end

/-! ## What each command does (R348) -/

section
variable (u : State) (o : Bytes) (next : LifeCycle)

/-- The state of the life cycle has changed; nothing is erased yet. -/
def lcMoved : State := { u with sec.lc := next, sec.jtag := decide (next = LifeCycle.service), sec.tap := .testLogicReset }

/-- ROTATE, with the new operator key (R349). -/
theorem lcAct_rotate : u.lcAct 2 o next = (u.lcMoved next).setOperator ((o.drop 0x20).take 1793) := rfl

/-- PROVISION, with a new identity (R331). -/
theorem lcAct_provision : u.lcAct 6 o next = (u.lcMoved next).newIdentity := rfl

/-- SERVICE opens JTAG after the kindling has begun (R348). -/
theorem lcAct_service : u.lcAct 4 o next = { (u.lcMoved next).zeroSecrets.kindle 5 with sec.jtag := true } := by
  simp only [lcAct, lcMoved]

/-- What provisioning leaves, and the identity as the digest of the new key (R331, R332). -/
theorem newIdentity_frame : u.newIdentity.answers = u.answers ∧ u.newIdentity.ctxs = u.ctxs ∧ u.newIdentity.kin = u.kin ∧
    u.newIdentity.sec.lc = u.sec.lc ∧ u.newIdentity.sec.lcData = u.sec.lcData ∧ u.newIdentity.sec.lcState = u.sec.lcState ∧
    u.newIdentity.sec.opKey = u.sec.opKey ∧ u.newIdentity.sec.identity = hash256 u.newIdentity.sec.identityKey := by
  simp [newIdentity, draw, useFree]

theorem withJtag_of_jtag {t : State} (h : t.sec.jtag = true) : { t with sec.jtag := true } = t := by rw [← h]

/-- `v` is what ENROLL, DISOWN, SERVICE or RETIRE (CMD `k`) leaves of `u` before the kindling that follows: the operator key new or
gone, every other secret gone at SERVICE and RETIRE (R348, R350). -/
structure LcErased (v u : State) (k : Nat) (o : Bytes) (next : LifeCycle) : Prop where
  answers : v.answers = u.answers
  epoch : v.rst.epoch = u.rst.epoch
  fails : v.kin.fails = u.kin.fails
  tim : v.tim = u.tim
  lc : v.sec.lc = next
  opKey : v.sec.opKey = if k = 1 then (o.drop 0x20).take 1793 else []
  identityKey : v.sec.identityKey = if k = 4 ∨ k = 5 then [] else u.sec.identityKey
  kemKey : v.sec.kemKey = if k = 4 ∨ k = 5 then [] else u.sec.kemKey

/-- The four commands that erase begin a kindling (R348, R354). -/
theorem lcAct_kindle {st : LifeCycle} {k : Nat} (hn : lcNext st k = some next) (hk : k = 1 ∨ k = 3 ∨ k = 4 ∨ k = 5) :
    ∃ v, LcErased v u k o next ∧ u.lcAct k o next = v.kindle 5 := by
  rcases hk with rfl | rfl | rfl | rfl
  · exact ⟨(u.lcMoved next).setOperator ((o.drop 0x20).take 1793), by constructor <;> rfl, rfl⟩
  · obtain ⟨z, l, e, h⟩ := (u.lcMoved next).zeroContexts_eq
    refine ⟨(u.lcMoved next).zeroContexts.setOperator [], ?_, rfl⟩
    rw [h]
    constructor <;> rfl
  · obtain ⟨z, l, e, h⟩ := (u.lcMoved next).zeroSecrets_eq
    have hv : LcErased (u.lcMoved next).zeroSecrets u 4 o next := by rw [h]; constructor <;> rfl
    have hj : ((u.lcMoved next).zeroSecrets.kindle 5).sec.jtag = true := by
      rw [kindle_sec, hv.lc, lcNext_service hn]; rfl
    exact ⟨_, hv, (u.lcAct_service o next).trans (withJtag_of_jtag hj)⟩
  · obtain ⟨z, l, e, h⟩ := (u.lcMoved next).zeroSecrets_eq
    exact ⟨(u.lcMoved next).zeroSecrets, by rw [h]; constructor <;> rfl, rfl⟩

end

section
variable {s : State} {rq : Req} {length : BitVec 32} {seq : BitVec 16} {k : Nat} {next : LifeCycle}

/-- An accepted ENROLL, DISOWN, SERVICE or RETIRE is answered, erases and kindles. -/
theorem lcCommand_kindle (h : s.lcWrite rq length seq = true) (hw : s.lcCause k (s.lcObject k length) = 0)
    (hn : lcNext s.sec.lc k = some next) (hk : k = 1 ∨ k = 3 ∨ k = 4 ∨ k = 5) :
    ∃ v, LcErased v (s.begin.ok rq) k (s.lcObject k length) next ∧ s.lcCommand rq k length seq = v.kindle 5 := by
  obtain ⟨v, hv, ht⟩ := lcAct_kindle ({ s.lcJudged length seq with sec.lcState := 2, sec.lcCause := 0 }.ok rq)
    (s.lcObject k length) next hn hk
  exact ⟨v, ⟨hv.answers, hv.epoch, hv.fails, hv.tim, hv.lc, hv.opKey, hv.identityKey, hv.kemKey⟩,
    ((lcCommand_eq h).2 hw next hn).trans ht⟩

end

/-! ## The entropy source and package recovery (R21, R330) -/

section
variable (s : State)

theorem kindle_recoveryCause (k c : Nat) : (s.kindle k c).rst.recoveryCause = BitVec.ofNat 8 c := by
  by_cases h1 : k = 1 <;> by_cases h4 : k = 4 <;> simp [kindle, h1, h4]

/-- Answers change the answers and the ports' sending sides only. -/
theorem foldl_nackRetry_eq (l : List Req) :
    ∃ a e, l.foldl (fun (s : State) r => s.nackRetry r) s = { s with answers := a, egress := e } := by
  induction l generalizing s with
  | nil => exact ⟨_, _, rfl⟩
  | cons r l ih =>
    obtain ⟨a, e, h⟩ := ih (s.nackRetry r)
    exact ⟨a, e, h⟩

/-- Answering what waits leaves the kindling entered, and its cause, as they are. -/
theorem foldl_nackRetry_enteredFrom {t : State} {k : Nat} (l : List Req) (h : t.enteredFrom s k) :
    (l.foldl (fun (s : State) r => s.nackRetry r) t).enteredFrom s k ∧
      (l.foldl (fun (s : State) r => s.nackRetry r) t).rst.recoveryCause = t.rst.recoveryCause := by
  obtain ⟨a, e, ht⟩ := foldl_nackRetry_eq t l
  rw [ht]
  exact ⟨h, rfl⟩

theorem recoveryFailed_epoch : s.recoveryFailed.rst.epoch = s.rst.epoch := by
  simp only [recoveryFailed]
  split <;> split <;> simp [setOos_rst]

/-- A package recovery is a kindling, after the one before it is noted as failed where it is, and ends with NACK_RETRY to what
waits (R21, R22). -/
theorem recover_eq (c : Nat) : ∃ (u : State) (l : List Req), (u = s.recoveryFailed ∨ u = s) ∧ s.recover c =
    l.foldl (fun (s : State) r => s.nackRetry r) ({ u with kin.recovReady := none }.kindle 4 c) := by
  refine ⟨_, _, ?_, rfl⟩
  exact (Decidable.em _).imp (fun h => if_pos h) fun h => if_neg h

/-- A package recovery is a kindling of kind 4 with its cause (R21). -/
theorem recover_enteredFrom (c : Nat) :
    (s.recover c).enteredFrom s 4 ∧ (s.recover c).rst.recoveryCause = BitVec.ofNat 8 c := by
  obtain ⟨u, l, hu, h⟩ := s.recover_eq c
  have hkept : u.rst.epoch = s.rst.epoch ∧ u.kin.fails = s.kin.fails ∧ u.tim = s.tim := by
    rcases hu with rfl | rfl
    · exact ⟨s.recoveryFailed_epoch, by rw [recoveryFailed_kin], s.recoveryFailed_tim⟩
    · exact ⟨rfl, rfl, rfl⟩
  have hk := kindle_enteredFrom { u with kin.recovReady := none } 4 c
  rw [h, ← kindle_recoveryCause { u with kin.recovReady := none } 4 c]
  exact foldl_nackRetry_enteredFrom s l (enteredFrom_congr hk hkept.1 hkept.2.1 hkept.2.2)

theorem fatalError_of_ne_kindling {c : Nat} (h : s.kin.power ≠ .kindling) : s.fatalError c = s.recover c := if_neg h

/-- The block of a failed health test is counted, `l` the times of the newest failures (R330). -/
def healthNoted (l : List Word) : State :=
  { s.begin with sec.healthFail := satInc s.sec.healthFail, sec.failTimes := l }

/-- The times of the newest three failed health tests, with the one now (R330). -/
def newestFails : List Word := (s.sec.failTimes ++ [s.now]).drop (s.sec.failTimes.length + 1 - 3)

/-- A failed health test in service that is not the third within 1 s is counted (R330). -/
theorem entropyHealthFail_counted (h : s.kin.power = .ready)
    (hs : ∀ a b c, s.newestFails = [a, b, c] → second ≤ (s.now - a).toNat) :
    exec .entropyHealthFail s = .next (s.healthNoted s.newestFails) := by
  change execEntropyHealthFail s = _
  unfold execEntropyHealthFail
  simp only [begin_kin, h, begin_sec]
  refine (if_pos ?_).trans rfl
  split
  · next hl => exact congrArg not (decide_eq_false (Nat.not_lt.mpr (hs _ _ _ hl)))
  · rfl

/-- The third within 1 s is a package recovery with cause 3 (R21, R330). -/
theorem entropyHealthFail_third {a b c : Word} (h : s.kin.power = .ready) (hl : s.newestFails = [a, b, c])
    (hs : (s.now - a).toNat < second) :
    exec .entropyHealthFail s = .next ({ s.healthNoted s.newestFails with sec.error := true }.recover 3) := by
  rw [← fatalError_of_ne_kindling _ (by simp [healthNoted, h])]
  change execEntropyHealthFail s = _
  unfold execEntropyHealthFail
  simp only [begin_kin, h, begin_sec]
  refine (if_neg ?_).trans rfl
  split
  · next hl' => cases hl.symm.trans hl'; exact Bool.eq_false_iff.mp (congrArg not (decide_eq_true hs))
  · next hl' => exact absurd hl (hl' _ _ _)

end
end State

/-- Settles O48: what the life-cycle command does from its two outcomes, one equation per command; the failed health tests from
the times that count; the test access port by cases of the life cycle. -/
theorem lifeCycleAndEntropy : Obligations.LifeCycleAndEntropy := by
  unfold Obligations.LifeCycleAndEntropy
  refine ⟨?_, ?_, ?_, ?_, ?_, ?_, ?_, ?_, ?_⟩
  · intro rq data s h hk
    have hx : exec (.lcDataWrite rq data) s = .next (((s.begin.lcAppend data).ok rq).keepAnswer rq 0xF060) := by
      change execLcDataWrite rq data s = _
      rw [execLcDataWrite, control_eq _ (by simpa using h), once_eq _ (by simpa using hk)]
    exact ⟨_, hx, by rw [answeredOnly, keepAnswer_answers]; rfl, by rw [keepAnswer_sec]; rfl, by rw [keepAnswer_sec]; rfl,
      by rw [keepAnswer_ctxs]; rfl⟩
  · intro rq data a s h hk
    change execLcDataWrite rq data s = _
    rw [execLcDataWrite, control_eq _ (by simpa using h), once_of_kept (by simpa using hk)]
  · intro rq length seq k c s h hc
    have hx : exec c s = .next (s.lcCommand rq k length seq) := by
      rcases hc with ⟨rfl, rfl⟩ | ⟨rfl, rfl⟩ | ⟨rfl, rfl⟩ | ⟨rfl, rfl⟩ | ⟨rfl, rfl⟩ | ⟨rfl, rfl⟩ <;> rfl
    have hk : k = 2 ∨ k = 6 ∨ k = 1 ∨ k = 3 ∨ k = 4 ∨ k = 5 := by
      rcases hc with ⟨-, rfl⟩ | ⟨-, rfl⟩ | ⟨-, rfl⟩ | ⟨-, rfl⟩ | ⟨-, rfl⟩ | ⟨-, rfl⟩ <;> decide
    refine ⟨_, hx, ?_⟩
    by_cases hw : s.lcCause k (s.lcObject k length) = 0
    · obtain ⟨next, hn⟩ := lcNext_of_lcCause hw
      rcases hk with rfl | rfl | hk
      · rw [(lcCommand_eq h).2 hw next hn, lcAct_rotate]
        refine ⟨rfl, rfl, fun h0 => absurd hw h0, fun _ => hn.symm, fun _ _ => ?_, by simp⟩
        simp [lcMoved, setOperator, lcJudged]
      · rw [(lcCommand_eq h).2 hw next hn, lcAct_provision]
        obtain ⟨ha, hc, hk, hl, hd, hs, ho, hi⟩ := newIdentity_frame
          (({ s.lcJudged length seq with sec.lcState := 2, sec.lcCause := 0 }.ok rq).lcMoved next)
        exact ⟨ha, hd, fun h0 => absurd hw h0, fun _ => (congrArg some hl).trans hn.symm, by simp,
          fun _ _ => ⟨hs, ho, hi, hc, hk⟩, by simp⟩
      · obtain ⟨v, hv, ht⟩ := lcCommand_kindle h hw hn hk
        have hlc : (v.kindle 5).sec.lcData = [] ∧ (v.kindle 5).sec.lc = next := by simp [kindle_sec, hv.lc]
        rw [ht]
        refine ⟨by rw [answeredOnly, kindle_answers, hv.answers]; rfl, hlc.1, fun h0 => absurd hw h0,
          fun _ => by rw [hlc.2, hn], fun _ h2 => by omega, fun _ h6 => by omega,
          fun _ _ _ => enteredFrom_congr (v.kindle_enteredFrom 5 0) hv.epoch hv.fails hv.tim, ?_⟩
        simp only [kindle_sec, hv.opKey, hv.identityKey, hv.kemKey, hv.lc]
        refine ⟨fun _ h1 => ?_, fun _ h3 => ?_, fun _ h45 => ⟨?_, if_pos h45, if_pos h45, lcNext_opens hn h45⟩⟩
        · subst h1; exact ⟨rfl, rfl⟩
        · subst h3; exact ⟨rfl, rfl⟩
        · exact if_neg (by omega)
    · rw [(lcCommand_eq h).1 hw]
      refine ⟨rfl, rfl, fun _ => ⟨rfl, rfl, rfl, rfl, rfl, rfl, rfl, rfl⟩, ?_⟩
      simp [hw]
  · intro s h hl
    have hn : s.newestFails = s.sec.failTimes ++ [s.now] := by
      rw [newestFails, Nat.sub_eq_zero_of_le (by omega), List.drop_zero]
    rw [entropyHealthFail_counted s h fun a b c habc => ?_, hn]
    · rfl
    · have := congrArg List.length (hn.symm.trans habc)
      simp at this
      omega
  · intro a b s h hl hs
    have hn : s.newestFails = [a, b, s.now] := by simp [newestFails, hl]
    obtain ⟨hk, hc⟩ := recover_enteredFrom { s.healthNoted s.newestFails with sec.error := true } 3
    exact ⟨_, entropyHealthFail_third s h hn hs, hk, hc⟩
  · intro a b s h hl hs
    have hn : s.newestFails = [a, b, s.now] := by simp [newestFails, hl]
    rw [entropyHealthFail_counted s h fun x y z hxyz => ?_, hn]
    · rfl
    · cases hn.symm.trans hxyz
      exact hs
  · intro s h
    exact congrArg _ (if_pos h)
  · intro tms s h
    simp [tckEdge, tdoDriven, h]
  · intro tms s h
    simp [tckEdge, h]

end Sys2Proof.Machine
end

section
/-!
PROOFS. The statements of 01, "Azard in the machine": clock and power gating (R19, R258, R281).  First the frame of what changes one
region; then of what moves pages out of it; then the region's equations.
-/

namespace Sys2Proof.Machine
open State

namespace State

/-! ## Regions (R19, R258, R281) -/

/-- `t` differs from `s` in the hearths and in region q alone. -/
def regionOnly (t s : State) (q : Nat) : Prop :=
  ∃ (d : Map Hearth) (r : Map Region), t = { s with die.hearths := d, die.regions := r } ∧
    ∀ k, k ≠ q → Map.get {} r k = s.region k

section
variable {s t u : State} {q k : Nat}

theorem regionOnly.refl (s : State) (q : Nat) : s.regionOnly s q := ⟨_, _, rfl, fun _ _ => rfl⟩

theorem regionOnly.trans (h : u.regionOnly t q) (h' : t.regionOnly s q) : u.regionOnly s q := by
  obtain ⟨d, r, rfl, hr⟩ := h'
  obtain ⟨d', r', rfl, hr'⟩ := h
  exact ⟨d', r', rfl, fun k hk => (hr' k hk).trans (hr k hk)⟩

theorem regionOnly.setHearth (h : t.regionOnly s q) (j : Nat) (v : Hearth) : (t.setHearth j v).regionOnly s q := by
  obtain ⟨d, r, rfl, hr⟩ := h
  exact ⟨_, _, rfl, hr⟩

theorem regionOnly.setRegion (h : t.regionOnly s q) (v : Region) : (t.setRegion q v).regionOnly s q := by
  obtain ⟨d, r, rfl, hr⟩ := h
  exact ⟨_, _, rfl, fun k hk => (Map.get_set_ne {} r v hk).trans (hr k hk)⟩

theorem regionOnly.region (h : t.regionOnly s q) (hk : k ≠ q) : t.region k = s.region k := by
  obtain ⟨d, r, rfl, hr⟩ := h
  exact hr k hk

theorem regionOnly.alc (h : t.regionOnly s q) : t.alc = s.alc := by
  obtain ⟨d, r, rfl, -⟩ := h
  rfl

theorem skipGated_regionOnly (s : State) (q : Nat) : (s.skipGated q).regionOnly s q := by
  have hfold (d : Word) (l : List Nat) {t : State} (h : t.regionOnly s q) : (l.foldl (fun (s : State) i =>
      s.modHearth (17 * q + i) fun h => { h with lastPass := h.lastPass + d }) t).regionOnly s q := by
    induction l generalizing t with
    | nil => exact h
    | cons i l ih => exact ih (h.setHearth _ _)
  unfold skipGated
  split
  · exact .refl s q
  · exact (hfold _ _ (.refl s q)).setRegion _

theorem powerRegion_regionOnly (s : State) (q : Nat) : (s.powerRegion q).regionOnly s q := by
  unfold powerRegion
  split
  · exact (regionOnly.refl s q).setRegion _
  · exact (s.skipGated_regionOnly q).setRegion _
  · exact .refl s q

/-- A region that was off reads waking when its power comes back. -/
theorem powerRegion_power_of_off (h : (s.region q).power = .off) : ((s.powerRegion q).region q).power = .waking := by
  simp [powerRegion, h]

/-- The test of a region's next hearth changes that hearth, and of the region the marks of the test. -/
theorem startTest_regionOnly (s : State) (q : Nat) : (s.startTest q).regionOnly s q := by
  unfold startTest
  split
  · exact .refl s q
  · simp only
    split
    · exact .refl s q
    · exact ((regionOnly.refl s q).setRegion _).setHearth _ _

theorem startTest_power (s : State) (q : Nat) : ((s.startTest q).region q).power = (s.region q).power := by
  unfold startTest
  split
  · rfl
  · simp only
    split <;> simp

theorem wakeRegion_regionOnly (s : State) (q : Nat) : (s.wakeRegion q).regionOnly s q := by
  have hp := s.powerRegion_regionOnly q
  have ht := ((s.powerRegion q).startTest_regionOnly q).trans hp
  unfold wakeRegion
  simp only
  split
  · exact hp
  · split
    · exact ht
    · exact ht.setRegion _

/-- A region that was off is on after its wake, or waking while its spare is tested (R258, R281). -/
theorem wakeRegion_power_of_off (h : (s.region q).power = .off) : ((s.wakeRegion q).region q).power = .on ∨
    ((s.wakeRegion q).region q).power = .waking ∧ ((s.wakeRegion q).region q).testing = true := by
  have hw := powerRegion_power_of_off h
  unfold wakeRegion
  simp only [hw, ne_eq, not_true_eq_false, decide_false, Bool.false_or]
  split
  · next ht => exact .inr ⟨hw, ht⟩
  · split
    · next ht => exact .inr ⟨(startTest_power _ q).trans hw, ht⟩
    · simp

/-! ## Pages that leave a region (R19) -/

/-- `t` has region q, the shard ledger and the newest answers and packets of `s`. -/
structure BesideRegion (t s : State) (q : Nat) : Prop where
  region : t.region q = s.region q
  mir : t.mir = s.mir
  answers : t.answers = s.answers
  sent : t.sent = s.sent

theorem BesideRegion.refl (s : State) (q : Nat) : s.BesideRegion s q := ⟨rfl, rfl, rfl, rfl⟩

theorem BesideRegion.trans (h : u.BesideRegion t q) (h' : t.BesideRegion s q) : u.BesideRegion s q :=
  ⟨h.region.trans h'.region, h.mir.trans h'.mir, h.answers.trans h'.answers, h.sent.trans h'.sent⟩

theorem BesideRegion.foldl {α : Type} {f : State → α → State} (l : List α) (hf : ∀ s, ∀ a ∈ l, (f s a).BesideRegion s q)
    (s : State) : (l.foldl f s).BesideRegion s q := by
  induction l generalizing s with
  | nil => exact .refl s q
  | cons a l ih =>
    exact (ih (fun s b hb => hf s b (List.mem_cons_of_mem a hb)) (f s a)).trans (hf s a List.mem_cons_self)

/-- Pages and contexts that change leave all of it alone. -/
theorem BesideRegion.setAlcCtxs (h : t.BesideRegion s q) (a : Alc) (c : Map Ctx) :
    { t with alc := a, ctxs := c }.BesideRegion s q := ⟨h.region, h.mir, h.answers, h.sent⟩

theorem regionOnly.besideRegion (h : t.regionOnly s k) (hk : q ≠ k) : t.BesideRegion s q := by
  have hq := h.region hk
  obtain ⟨d, r, rfl, -⟩ := h
  exact ⟨hq, rfl, rfl, rfl⟩

theorem takeStack_besideRegion (s : State) (i n : Nat) (hi : regionOf i ≠ q) : (s.takeStack i n).1.BesideRegion s q := by
  unfold takeStack
  simp only
  split
  · exact .refl s q
  · exact ((powerRegion_regionOnly _ _).besideRegion hi.symm).trans ⟨rfl, rfl, rfl, rfl⟩

theorem takeFrom_besideRegion (l : List Nat) (s : State) (n : Nat) (hl : ∀ i ∈ l, regionOf i ≠ q) :
    (s.takeFrom n l).1.BesideRegion s q := by
  induction l generalizing s n with
  | nil => exact .refl s q
  | cons i l ih =>
    exact (ih _ _ fun j hj => hl j (List.mem_cons_of_mem i hj)).trans
      (s.takeStack_besideRegion i n (hl i List.mem_cons_self))

theorem moveRoot_besideRegion (s : State) (q : Nat) : (s.moveRoot q).BesideRegion s q := by
  refine .foldl _ (fun s n _ => ?_) s
  extract_lets mine others k
  split
  · exact .refl s q
  · have hl : ∀ i ∈ others, regionOf i ≠ q := fun i hi => by
      simpa using (Bool.and_eq_true_iff.mp (List.mem_filter.mp hi).2).1
    have ht := s.takeFrom_besideRegion others k hl
    generalize s.takeFrom k others = taken at ht ⊢
    obtain ⟨t, l⟩ := taken
    dsimp only [modCtx, setCtx, makeDirty]
    exact ht.setAlcCtxs _ _

theorem moveEscrow_besideRegion (s : State) (q : Nat) : (s.moveEscrow q).BesideRegion s q := by
  refine .foldl _ (fun s n _ => .foldl _ (fun s p _ => ?_) s) s
  split
  · exact .refl s q
  · exact ⟨rfl, rfl, rfl, rfl⟩

/-! ## Gating (R19, R281) -/

theorem gateRegion_of_not_gated (h : s.kin.img.gateRegions.getLsbD q = false) : s.gateRegion q = s := by
  simp [gateRegion, h]

section
variable (hg : s.kin.img.gateRegions.getLsbD q = true) (hp : (s.region q).power = .on ∨ (s.region q).power = .gating)
include hg hp

/-- A region without pages and work is gated. -/
theorem gateRegion_empty (h0 : s.regionPages q = 0) (hb : s.regionBusy q = false) :
    s.gateRegion q = s.modRegion q fun r => { r with power := .off, gatedAt := some s.now } := by
  rcases hp with hp | hp <;> simp [gateRegion, hg, hp, h0, hb]

/-- Any other is prepared for gating; at a step boundary pages leave it. -/
theorem gateRegion_held (h : s.regionPages q ≠ 0 ∨ s.regionBusy q = true) : s.gateRegion q =
    if s.stepBoundary then ((s.modRegion q fun r => { r with power := .gating }).moveRoot q).moveEscrow q
    else s.modRegion q fun r => { r with power := .gating } := by
  have hb : (decide (s.regionPages q = 0) && !s.regionBusy q) = false := by
    rcases h with h | h <;> simp [h]
  rcases hp with hp | hp <;> simp [gateRegion, hg, hp, hb] <;> rfl

theorem gateRegion_held_besideRegion (h : s.regionPages q ≠ 0 ∨ s.regionBusy q = true) :
    (s.gateRegion q).BesideRegion (s.modRegion q fun r => { r with power := .gating }) q := by
  rw [gateRegion_held hg hp h]
  split
  · exact (moveEscrow_besideRegion _ q).trans (moveRoot_besideRegion _ q)
  · exact .refl _ q

end
end
end State

namespace State
variable (s : State)

@[simp] theorem begin_regionPages (q : Nat) : s.begin.regionPages q = s.regionPages q := rfl
@[simp] theorem begin_regionBusy (q : Nat) : s.begin.regionBusy q = s.regionBusy q := rfl
@[simp] theorem begin_quietFor (q d : Nat) : s.begin.quietFor q d = s.quietFor q d := rfl
@[simp] theorem begin_stepBoundary : s.begin.stepBoundary = s.stepBoundary := rfl
@[simp] theorem begin_outside (t : Word) (d : Nat) : s.begin.outside t d = s.outside t d := rfl

theorem wake_hearth (h : Fin 68) (n : Nat) : s.wake (.hearth h) n =
    { s with alc.lateWakes := satAdd s.alc.lateWakes n }.modHearth h fun x => { x with gated := false } := rfl
theorem wake_pll (q : Fin 4) (n : Nat) : s.wake (.pll q) n =
    { s with alc.lateWakes := satAdd s.alc.lateWakes n }.modRegion q fun x => { x with pll := .running } := rfl
theorem wake_region (q : Fin 4) (n : Nat) :
    s.wake (.region q) n = { s with alc.lateWakes := satAdd s.alc.lateWakes n }.wakeRegion q := rfl

end State

theorem exec_resourceWake (r : Resource) (n : Nat) (s : State) : exec (.resourceWake r n) s = .next (s.begin.wake r n) := rfl
theorem exec_regionPowerGate (q : Fin 4) (s : State) : exec (.regionPowerGate q) s = .next (s.begin.gateRegion q) := rfl

/-- Settles O28: the region's equations for gating, the frame of what moves its pages elsewhere, and its wake by cases of the test
of its spare. -/
theorem gatingAndWaking : Obligations.GatingAndWaking := by
  unfold Obligations.GatingAndWaking
  refine ⟨fun q s hg hp => ?_, fun q s hg => ?_, fun h s hr hf ht hi hq => ?_,
    fun h s hb => ?_, fun q cold s hb hq => ?_, fun h late s => ?_, fun q late s => ?_, fun q late s h => ?_⟩
  · rw [exec_regionPowerGate]
    refine ⟨fun h0 hb => ?_, fun h hs => ?_, fun h => ⟨_, rfl, ?_⟩⟩
    · rw [gateRegion_empty (s := s.begin) hg hp h0 hb]
      rfl
    · rw [gateRegion_held (s := s.begin) hg hp h, begin_stepBoundary, hs]
      rfl
    · have ht := gateRegion_held_besideRegion (s := s.begin) hg hp h
      exact ⟨by rw [ht.region]; simp, by rw [ht.mir]; rfl, ht.answers, ht.sent⟩
  · rw [exec_regionPowerGate, gateRegion_of_not_gated (s := s.begin) hg]
  · change execHearthClockGate h s = _
    simp [execHearthClockGate, hr, hf, ht, hi, hq]
  · change execHearthClockGate h s = _
    rcases hb with hb | hb <;> simp [execHearthClockGate, hb]
  · change execPllStop q cold s = _
    simp [execPllStop, hb, hq]
  · rw [exec_resourceWake, wake_hearth, modHearth_eq]
    rfl
  · rw [exec_resourceWake, wake_pll, modRegion_eq]
    rfl
  · rw [exec_resourceWake, wake_region]
    have hw := wakeRegion_regionOnly { s.begin with alc.lateWakes := satAdd s.alc.lateWakes late } q
    have hp := wakeRegion_power_of_off (s := { s.begin with alc.lateWakes := satAdd s.alc.lateWakes late }) (q := q) h
    refine ⟨_, rfl, hp.imp_right And.left, fun hk => ?_, congrArg Alc.lateWakes hw.alc, fun k hk => hw.region hk⟩
    rcases hp with hp | hp
    · cases hp.symm.trans hk
    · exact hp.2

end Sys2Proof.Machine
end

section
/-!
PROOFS. The statements of 01, "Azard in the machine": units and hearths (R16 to R18, R376).
-/

namespace Sys2Proof.Machine
open State

/-! ## A hearth reset in a region that feeds a fill (R128, R242, R376) -/

/-- An ACTIVE context fills the slot of shard 9 on node 1, at tray port 0, from the copy in stack 6, in the region of hearth 67:
page 0 is outstanding at version 1, and its INSTALL record has come. -/
def fillFed : State := { State.reset with
  ports := [(0, { state := .up, slotsUsed := [{ slot := 0, entry := 0, st := 1, claim := 5, fenced := false }] })]
  ctxs := [(0, { life := { st := .active }, bind := { bound := [(1, 0)], ever := [1] } })]
  mir.entries := [(0, { st := .filling, fillSource := 3, claim := 5, shardId := 9, length := 2097152, pages := 1, owner := 1,
                        version := 1, alloc := [(6, 1)], fill := { started := true, version := 1, next := 1, out := [(0, 0)] } })]
  mir.records := [(0, { shardId := 9, page := 0, version := 1, claim := 5, install := true, digest := 0 })] }

/-- The outstanding page is installed again (R242), which ends its kept INSTALL record (R128). -/
theorem hearthReset_fillFed_records : (fillFed.begin.hearthReset 67 []).mir.records = [] := by decide

/-- Refutes O26: a hearth reset does not leave the shard ledger's part of the state as it is.  In fillFed the reset of hearth 67
sends the outstanding page of the fill again, and its kept INSTALL record is gone. -/
theorem not_unitsAndHearths : ¬ Obligations.UnitsAndHearths := by
  unfold Obligations.UnitsAndHearths
  rintro ⟨-, -, -, -, -, -, hrelease, -⟩
  obtain ⟨t, ht, ⟨-, -, -, -, -, -, hmir, -⟩, -⟩ := hrelease 67 [] fillFed (by decide) (by decide)
  have hreset : fillFed.begin.hearthReset 67 [] = t := Host.Outcome.next.inj ht
  have hrecords : (fillFed.begin.hearthReset 67 []).mir.records = fillFed.mir.records := by rw [hreset, hmir]
  rw [hearthReset_fillFed_records] at hrecords
  exact absurd hrecords (by decide)

end Sys2Proof.Machine
end

section
/-!
PROOFS. The statements of 02, "Step contract": the step record window (R34, R35).  First what a write of the control word leaves, and
how it is refused; then what each command of the window runs.
-/

namespace Sys2Proof.Machine
open State

/-! ## Words in byte memories -/

theorem Mem.write_append (m : Mem) (a : Nat) (b d : Bytes) :
    m.write a (b ++ d) = (m.write a b).write (a + b.length) d := by
  induction b generalizing m a with
  | nil => rfl
  | cons x b ih =>
    rw [List.cons_append, Mem.write, Mem.write, ih, List.length_cons, Nat.add_assoc, Nat.add_comm 1]

theorem Mem.read_write_above (m : Mem) (a o n : Nat) (d : Bytes) (h : a + n ≤ o) :
    (m.write o d).read a n = m.read a n := by
  induction n generalizing a with
  | zero => rfl
  | succ n ih => rw [Mem.read, Mem.read, ih _ (by omega), Mem.byte_write_outside _ _ _ _ (by omega)]

/-- A number written with bytes after it reads back, as far as its bytes reach. -/
theorem Mem.le_write_natLe (m : Mem) (a n x : Nat) (d : Bytes) : (m.write a (natLe n x ++ d)).le a n = x % 256 ^ n := by
  have hread := Mem.read_write m a (natLe n x)
  rw [natLe_length] at hread
  rw [Mem.le, Mem.write_append, Mem.read_write_above _ _ _ _ _ (by simp), hread, leNat_natLe]

theorem leNat_lt (b : Bytes) : leNat b < 256 ^ b.length := by
  induction b with
  | nil => simp [leNat]
  | cons x b ih =>
    have hx : x.toNat < 256 := x.isLt
    simp only [leNat, List.length_cons, Nat.pow_succ]
    omega

theorem Bytes.le_lt (b : Bytes) (o n : Nat) : Bytes.le b o n < 256 ^ n :=
  Nat.lt_of_lt_of_le (leNat_lt _) (Nat.pow_le_pow_right (by decide) (List.length_take_le n _))

/-! ## The control word (R35) -/

theorem controlWord_mod (data : Bytes) {cmd : Nat} (h : cmd < 4) : controlWord cmd data % 4 = cmd := by
  unfold controlWord
  omega

theorem controlWord_lt (data : Bytes) {cmd : Nat} (h : cmd < 4) : controlWord cmd data < 256 ^ 8 := by
  have hle := Bytes.le_lt data 0 8
  unfold controlWord
  omega

/-- The control word is read as it was written. -/
theorem Mem.le_write_controlWord (m : Mem) (data d : Bytes) {cmd : Nat} (h : cmd < 4) :
    (m.write 0 (natLe 8 (controlWord cmd data) ++ d)).le 0 8 = controlWord cmd data := by
  rw [Mem.le_write_natLe, Nat.mod_eq_of_lt (controlWord_lt data h)]

namespace State

/-! ## The window written (R34) -/

theorem epochOf_setCtx {s : State} {n : Nat} {v : Ctx} (h : v.epoch = (s.ctx n).epoch) (b : Bool) (j : Nat) :
    (s.setCtx n v).epochOf b j = s.epochOf b j := by
  by_cases hj : j = n <;> simp [epochOf, hj, h]

/-- Context n with `w` in its step record window, and nothing else changed. -/
def withWindow (s : State) (n : Nat) (w : Mem) : State := s.modCtx n fun c => { c with step.window := w }

/-- The state in which a control word acts: the words are stored, and CMD reads 0 (R34). -/
def wroteControl (s : State) (n cmd : Nat) (data : Bytes) : State :=
  (s.begin.withWindow n ((s.ctx n).step.window.write 0 (natLe 8 (controlWord cmd data) ++ data.drop 8))).withWindow n
    (s.windowAfter n cmd data)

section
variable (s : State) (n : Nat) (w : Mem)

@[simp] theorem withWindow_ctx_self : (s.withWindow n w).ctx n = { s.ctx n with step.window := w } := by simp [withWindow]

@[simp] theorem withWindow_ctx_ne {m : Nat} (h : m ≠ n) : (s.withWindow n w).ctx m = s.ctx m := by simp [withWindow, h]

@[simp] theorem withWindow_answers : (s.withWindow n w).answers = s.answers := rfl
@[simp] theorem withWindow_epochOf (b : Bool) (j : Nat) : (s.withWindow n w).epochOf b j = s.epochOf b j :=
  epochOf_setCtx (v := { s.ctx n with step.window := w }) rfl b j

variable (cmd : Nat) (data : Bytes)

@[simp] theorem wroteControl_ctx : (s.wroteControl n cmd data).ctx n =
    { s.ctx n with step.window := s.windowAfter n cmd data } := by
  simp only [wroteControl, withWindow_ctx_self]
  rfl
@[simp] theorem wroteControl_answers : (s.wroteControl n cmd data).answers = [] := rfl
@[simp] theorem wroteControl_sent : (s.wroteControl n cmd data).sent = [] := rfl
@[simp] theorem wroteControl_now : (s.wroteControl n cmd data).now = s.now := rfl
@[simp] theorem wroteControl_epochOf (b : Bool) (j : Nat) : (s.wroteControl n cmd data).epochOf b j = s.epochOf b j := by
  simp [wroteControl]
@[simp] theorem wroteControl_recordShut : (s.wroteControl n cmd data).recordShut n = s.recordShut n := by
  simp [recordShut]
@[simp] theorem wroteControl_findAtt (st : Word) (att : BitVec 16) :
    (s.wroteControl n cmd data).findAtt n st att = s.findAtt n st att := by
  simp [findAtt]
@[simp] theorem wroteControl_orderBad (st : Word) (att : BitVec 16) :
    (s.wroteControl n cmd data).orderBad n st att = s.orderBad n st att := by
  simp [orderBad]
theorem wroteControl_awaited (g : GroupDef) : (s.wroteControl n cmd data).awaited n g = s.awaited n g := by
  have hfabric : (s.wroteControl n cmd data).fabric = s.fabric := by simp [wroteControl, withWindow]
  simp [awaited, localMembers, localNodes, watchers, pairsOf, hfabric]
end

section
variable {s : State} {rq : Req} {off cmd : Nat} {data : Bytes}

theorem controlWrite_iff : s.controlWrite rq data = true ↔ s.reachesByPort rq = true ∧ s.endpoint rq = true ∧
    8 ≤ data.length ∧ data.length % 8 = 0 ∧ data.length ≤ 256 := by
  simp [controlWrite, and_assoc]

/-- A requester that is no endpoint of the context writes nothing. -/
theorem writeWindow_nackAccess (he : s.endpoint rq = false) : s.writeWindow rq off data = s.nackAccess rq := by
  simp [writeWindow, he]

/-- A well placed write stores its words, and the control word among them acts. -/
theorem writeWindow_placed (he : s.endpoint rq = true) (ho : off % 8 = 0) (hl : data.length % 8 = 0)
    (hend : off + data.length ≤ 256) :
    s.writeWindow rq off data =
      let t := s.withWindow rq.ctx ((s.ctx rq.ctx).step.window.write off data)
      let w := (t.ctx rq.ctx).step.window
      if off ≠ 0 || data = [] then t.ok rq
      else (t.withWindow rq.ctx (w.write 0 (natLe 8 (w.le 0 8 - w.le 0 8 % 4)))).actRecord rq (w.le 0 8) := by
  have hplaced : (decide (off % 8 ≠ 0) || decide (data.length % 8 ≠ 0) || decide (256 < off + data.length)) = false := by
    simp [ho, hl, hend]
  simp only [writeWindow, he, hplaced, Bool.not_true, Bool.false_eq_true, if_false, withWindow, modCtx_eq]

/-- An aligned write that does not cover the control word stores its bytes. -/
theorem writeWindow_words (he : s.endpoint rq = true) (ho : off % 8 = 0) (hl : data.length % 8 = 0)
    (hend : off + data.length ≤ 256) (h0 : off ≠ 0) :
    s.writeWindow rq off data = (s.withWindow rq.ctx ((s.ctx rq.ctx).step.window.write off data)).ok rq := by
  rw [writeWindow_placed he ho hl hend]
  exact if_pos (by simp [h0])

/-- A write of the control word stores its words and acts by what the window then holds. -/
theorem writeControl_eq (h : s.controlWrite rq data = true) (hc : cmd < 4) :
    s.writeControl rq cmd data = (s.wroteControl rq.ctx cmd data).actRecord rq (controlWord cmd data) := by
  obtain ⟨hr, he, h8, hl, hend⟩ := controlWrite_iff.mp h
  have hwords : (natLe 8 (controlWord cmd data)).take data.length ++ data.drop 8 =
      natLe 8 (controlWord cmd data) ++ data.drop 8 := by
    rw [List.take_of_length_le (by simpa using h8)]
  have hlen : (natLe 8 (controlWord cmd data) ++ data.drop 8).length = data.length := by simp; omega
  have hne : natLe 8 (controlWord cmd data) ++ data.drop 8 ≠ [] := by
    rw [← List.length_pos_iff, hlen]
    omega
  have hctl := Mem.le_write_controlWord (s.ctx rq.ctx).step.window data (data.drop 8) hc
  calc s.writeControl rq cmd data
      = s.begin.writeWindow rq 0 (natLe 8 (controlWord cmd data) ++ data.drop 8) := by
        rw [← hwords]
        exact osfel_eq s hr
    _ = _ := writeWindow_placed (s := s.begin) he rfl (hlen ▸ hl) (by omega)
    _ = _ := by
        simp only [withWindow_ctx_self, begin_ctx, hctl, hne, ne_eq, not_true_eq_false, decide_false, Bool.or_self,
          Bool.false_eq_true, if_false]
        simp only [wroteControl, windowAfter, hctl]

end

/-! ## Refusals (R36, R38) -/

section
variable (s : State) (rq : Req) (k : Nat) (st : Word) (att : BitVec 16)

theorem refuseStep_ctx : (s.refuseStep rq k st att).ctx rq.ctx =
    { s.ctx rq.ctx with step.refuse := BitVec.ofNat 4 k } := by simp [refuseStep]

theorem refuseStep_answers : (s.refuseStep rq k st att).answers = s.answers ++
    [{ result := .nackBusy, cause := BitVec.ofNat 8 k, epoch := s.epochOf rq.ctxv rq.ctx, data := [] }] := by
  have hepoch := epochOf_setCtx (s := s) (n := rq.ctx) (v := { s.ctx rq.ctx with step.refuse := BitVec.ofNat 4 k }) rfl
  simp only [refuseStep, modCtx_eq, busy_eq, answer_answers, record_answers, setCtx_answers, record_epochOf, hepoch]

/-- A refused control word answers NACK_BUSY with the code. -/
theorem refuseStep_answeredOnly (cmd : Nat) (data : Bytes) :
    ((s.wroteControl rq.ctx cmd data).refuseStep rq k st att).answeredOnly s rq .nackBusy (BitVec.ofNat 8 k) := by
  rw [answeredOnly, refuseStep_answers, wroteControl_answers, wroteControl_epochOf]
  rfl

/-- A refused control word leaves REFUSE and the window as stored. -/
theorem refuseStep_step (cmd : Nat) (data : Bytes) :
    (((s.wroteControl rq.ctx cmd data).refuseStep rq k st att).ctx rq.ctx).step =
      { (s.ctx rq.ctx).step with window := s.windowAfter rq.ctx cmd data, refuse := BitVec.ofNat 4 k } := by
  rw [refuseStep_ctx, wroteControl_ctx]
end

/-! ## What the control word does, by CMD (R34, R36, R38) -/

section
variable {s : State} {rq : Req} {ctl : Nat}

theorem actRecord_store (h : ctl % 4 = 0) : s.actRecord rq ctl = s.ok rq := by simp [actRecord, h]

theorem actRecord_open (h : ctl % 4 = 1) : s.actRecord rq ctl = s.openRecord rq ctl := by simp [actRecord, h]

theorem actRecord_void (h : ctl % 4 = 2) : s.actRecord rq ctl = s.voidRecord rq := by simp [actRecord, h]

theorem actRecord_reserved (h : ctl % 4 = 3) (hs : s.recordShut rq.ctx = false) :
    s.actRecord rq ctl = s.refuseStep rq 6 (windowStep (s.ctx rq.ctx).step.window)
      (windowAttempt (s.ctx rq.ctx).step.window) := by
  simp [actRecord, h, hs, windowStep, windowAttempt]
end

end State

/-! ## The commands -/

section
variable {s : State} {rq : Req} {data : Bytes}

theorem exec_stepRecordStore (rq : Req) (op : OpCode) (off len : Nat) (data : Bytes) (s : State) :
    exec (.stepRecordStore rq op off len data) s = .next (s.windowRequest rq op off len data) := rfl

theorem controlWrite_ne_nil (h : s.controlWrite rq data = true) : data ≠ [] := by
  rintro rfl
  simp [controlWrite] at h

theorem exec_stepRecordStore_control (h : s.controlWrite rq data = true) (len : Nat) :
    exec (.stepRecordStore rq .wr 0 len data) s = .next ((s.wroteControl rq.ctx 0 data).ok rq) := by
  rw [exec_stepRecordStore, windowRequest, if_pos (by simp [controlWrite_ne_nil h]), writeControl_eq h (by decide),
    actRecord_store (controlWord_mod data (by decide))]

theorem exec_stepOpen (h : s.controlWrite rq data = true) :
    exec (.stepOpen rq data) s = .next ((s.wroteControl rq.ctx 1 data).openRecord rq (controlWord 1 data)) := by
  change Host.Outcome.next (s.writeControl rq 1 data) = _
  rw [writeControl_eq h (by decide), actRecord_open (controlWord_mod data (by decide))]

theorem exec_stepVoid (h : s.controlWrite rq data = true) :
    exec (.stepVoid rq data) s = .next ((s.wroteControl rq.ctx 2 data).voidRecord rq) := by
  change Host.Outcome.next (s.writeControl rq 2 data) = _
  rw [writeControl_eq h (by decide), actRecord_void (controlWord_mod data (by decide))]

theorem exec_stepRecordReservedCmd (h : s.controlWrite rq data = true) (hs : s.recordShut rq.ctx = false) :
    exec (.stepRecordReservedCmd rq data) s = .next ((s.wroteControl rq.ctx 3 data).refuseStep rq 6
      (windowStep (s.windowAfter rq.ctx 3 data)) (windowAttempt (s.windowAfter rq.ctx 3 data))) := by
  change Host.Outcome.next (s.writeControl rq 3 data) = _
  rw [writeControl_eq h (by decide), actRecord_reserved (controlWord_mod data (by decide)) (by simpa using hs),
    wroteControl_ctx]

/-- A well placed read answers the window's bytes. -/
theorem exec_stepRecordStore_rd {off len : Nat} (hr : s.reachesByPort rq = true) (he : s.endpoint rq = true)
    (ho : off % 8 = 0) (hl : len % 8 = 0) (hend : off + len ≤ 256) :
    exec (.stepRecordStore rq .rd off len []) s =
      .next (s.begin.answer rq .ok 0 ((s.ctx rq.ctx).step.window.read off len)) := by
  have he' : s.begin.endpoint rq = true := he
  rw [exec_stepRecordStore, windowRequest, osfel_eq s hr, if_neg (by simp [he']), if_neg (by simp [ho, hl, hend])]
  rfl

theorem exec_stepRecordStore_words {off : Nat} (hr : s.reachesByPort rq = true) (he : s.endpoint rq = true)
    (ho : off % 8 = 0) (hl : data.length % 8 = 0) (hend : off + data.length ≤ 256) (h0 : off ≠ 0) (len : Nat) :
    exec (.stepRecordStore rq .wr off len data) s =
      .next ((s.begin.withWindow rq.ctx ((s.ctx rq.ctx).step.window.write off data)).ok rq) := by
  rw [exec_stepRecordStore, windowRequest, if_neg (by simp [h0]), osfel_eq s hr,
    writeWindow_words (s := s.begin) he ho hl hend h0]
  rfl

/-- No request of a requester that is no endpoint of the context reaches the window. -/
theorem exec_stepRecordStore_nackAccess (hr : s.reachesByPort rq = true) (he : s.endpoint rq = false) (op : OpCode)
    (off len : Nat) : exec (.stepRecordStore rq op off len data) s = .next (s.begin.answer rq .nackAccess) := by
  have he' : s.begin.endpoint rq = false := he
  rw [exec_stepRecordStore]
  congr 1
  cases op with
  | wr =>
    change (if _ then _ else _) = _
    split
    · rw [writeControl, osfel_eq s hr, writeWindow_nackAccess he']
      rfl
    · rw [osfel_eq s hr, writeWindow_nackAccess he']
      rfl
  | rd => exact (osfel_eq s hr).trans (if_pos (by simp [he']))
  | _ => exact osfel_eq s hr
end

/-- Settles O19: each request by the rule of the window that it falls under. -/
theorem stepRecordWindowAccess : Obligations.StepRecordWindowAccess := by
  unfold Obligations.StepRecordWindowAccess
  refine ⟨?_, ?_, ?_, ?_, ?_⟩
  · intro rq off len data s hr he ho hl hend h0
    refine ⟨_, exec_stepRecordStore_words hr he ho hl hend h0 len, by simp [answeredOnly], fun a ha => ?_, ?_, by simp,
      by simp, fun n hn => by simp [hn], rfl, rfl⟩
    · simpa using Mem.byte_write_outside _ _ _ _ ha
    · simpa using Mem.read_write _ _ _
  · intro rq off len s hr he ho hl hend
    exact exec_stepRecordStore_rd hr he ho hl hend
  · intro rq len data s h
    exact ⟨_, exec_stepRecordStore_control h len, by simp [answeredOnly], by simp, rfl⟩
  · intro rq data s h hst hq
    have hshut : s.recordShut rq.ctx = false := by simp [recordShut, hst, hq]
    exact ⟨_, exec_stepRecordReservedCmd h hshut, refuseStep_answeredOnly .., refuseStep_step ..⟩
  · intro rq op off len data s hr he
    exact exec_stepRecordStore_nackAccess hr he op off len

end Sys2Proof.Machine
end

section
/-!
PROOFS. The statements of 02, "Step contract": OPEN and VOID of the control word (R36 to R38).  First the conditions of R36; then an
attempt that opens at an Azard outside every tree of its context; then the commands.
-/

namespace Sys2Proof.Machine
open State

theorem syncStep_accepted (t : StepSt) : (syncStep t).accepted = t.accepted := by unfold syncStep; split <;> rfl
theorem syncStep_clears (t : StepSt) : (syncStep t).clears = t.clears := by unfold syncStep; split <;> rfl
theorem syncStep_voids (t : StepSt) : (syncStep t).voids = t.voids := by unfold syncStep; split <;> rfl

theorem elim_ite {α β : Type} (p : Prop) [Decidable p] (x y : Option α) (b : β) (f : α → β) :
    (if p then x else y).elim b f = if p then x.elim b f else y.elim b f := by
  split <;> rfl

namespace State

/-! ## The conditions of OPEN (R36) -/

/-- The code with which OPEN refuses the record in the window, for an attempt that is not accepted yet. -/
def openRefusal (s : State) (n ctl : Nat) : Option Nat :=
  let w := (s.ctx n).step.window
  let st : Word := BitVec.ofNat 64 (w.le 8 8)
  let att : BitVec 16 := BitVec.ofNat 16 (w.le 0x10 2)
  if 4 < ctlLag ctl || ctlMode ctl = 3 then some 6
  else if w.le 0x40 8 ≠ st.toNat || w.le 0x80 8 ≠ st.toNat then some 5
  else if s.orderBad n st att then some 2
  else if w.le 0x18 8 ≤ s.now.toNat then some 3
  else if 3600 * second < w.le 0x18 8 - s.now.toNat then some 4
  else none

/-- The attempt that an accepted record opens. -/
def recordAttempt (s : State) (n ctl : Nat) : Attempt :=
  let w := (s.ctx n).step.window
  { step := windowStep w, attempt := windowAttempt w
    latched := { voteLag := BitVec.ofNat 4 (ctlLag ctl), ckptMode := BitVec.ofNat 2 (ctlMode ctl), bytes := w.read 8 0xB8 }
    tag := recordTag (ctlLag ctl) (ctlMode ctl) (w.read 8 0xB8)
    lag := BitVec.ofNat 4 (voteLagOf (s.ctx n).life.charter (ctlLag ctl)), phase := .opened, cause := 0
    origin := 0, hearths := (List.range 4).flatMap s.stagingHearths }

section
variable {s : State} {n ctl : Nat}

theorem openRefusal_misfit (h : 4 < ctlLag ctl ∨ ctlMode ctl = 3) : s.openRefusal n ctl = some 6 :=
  if_pos (by simpa using h)

variable {w : Mem} (hw : (s.ctx n).step.window = w) (hlag : ctlLag ctl ≤ 4) (hmode : ctlMode ctl ≠ 3)
include hw hlag hmode

theorem openRefusal_stepNumbers (h : w.le 0x40 8 ≠ (windowStep w).toNat ∨ w.le 0x80 8 ≠ (windowStep w).toNat) :
    s.openRefusal n ctl = some 5 := by
  unfold windowStep at h
  have h6 : ¬ (4 < ctlLag ctl || ctlMode ctl = 3) = true := by simp [hlag, hmode]
  exact (if_neg h6).trans (if_pos (by simpa only [hw, Bool.or_eq_true, decide_eq_true_eq] using h))

variable (h40 : w.le 0x40 8 = (windowStep w).toNat) (h80 : w.le 0x80 8 = (windowStep w).toNat)
include h40 h80

/-- A record whose fields fit is judged by its order and its deadline. -/
theorem openRefusal_fit : s.openRefusal n ctl =
    if s.orderBad n (windowStep w) (windowAttempt w) then some 2
    else if w.le 0x18 8 ≤ s.now.toNat then some 3
    else if 3600 * second < w.le 0x18 8 - s.now.toNat then some 4
    else none := by
  have h6 : ¬ (4 < ctlLag ctl || ctlMode ctl = 3) = true := by simp [hlag, hmode]
  have h5 : ¬ (w.le 0x40 8 ≠ (windowStep w).toNat || w.le 0x80 8 ≠ (windowStep w).toNat) = true := by simp [h40, h80]
  subst hw
  exact (if_neg h6).trans (if_neg h5)

theorem openRefusal_order (h : s.orderBad n (windowStep w) (windowAttempt w) = true) : s.openRefusal n ctl = some 2 := by
  rw [openRefusal_fit hw hlag hmode h40 h80, if_pos h]

variable (hord : s.orderBad n (windowStep w) (windowAttempt w) = false)
include hord

theorem openRefusal_past (h : w.le 0x18 8 ≤ s.now.toNat) : s.openRefusal n ctl = some 3 := by
  rw [openRefusal_fit hw hlag hmode h40 h80, if_neg (by simp [hord]), if_pos h]

theorem openRefusal_far (h : s.now.toNat + 3600 * second < w.le 0x18 8) : s.openRefusal n ctl = some 4 := by
  rw [openRefusal_fit hw hlag hmode h40 h80, if_neg (by simp [hord]), if_neg (by omega), if_pos (by omega)]

theorem openRefusal_none (hpast : s.now.toNat < w.le 0x18 8) (hfar : w.le 0x18 8 ≤ s.now.toNat + 3600 * second) :
    s.openRefusal n ctl = none := by
  rw [openRefusal_fit hw hlag hmode h40 h80, if_neg (by simp [hord]), if_neg (by omega), if_neg (by omega)]
end

theorem openRecord_shut {s : State} {rq : Req} (ctl : Nat) (hs : s.recordShut rq.ctx = true) :
    s.openRecord rq ctl = s.refuseStep rq 1 (windowStep (s.ctx rq.ctx).step.window)
      (windowAttempt (s.ctx rq.ctx).step.window) := if_pos hs

section
variable {s : State} {rq : Req} {ctl : Nat} (hs : s.recordShut rq.ctx = false)
  (hf : s.findAtt rq.ctx (windowStep (s.ctx rq.ctx).step.window) (windowAttempt (s.ctx rq.ctx).step.window) = none)
include hs hf

/-- A record of an attempt that is not accepted yet is refused by the first condition that it does not meet, or accepted. -/
theorem openRecord_eq : s.openRecord rq ctl = (s.openRefusal rq.ctx ctl).elim
    ((s.openAttempt rq.ctx (s.recordAttempt rq.ctx ctl)).ok rq)
    fun k => s.refuseStep rq k (windowStep (s.ctx rq.ctx).step.window) (windowAttempt (s.ctx rq.ctx).step.window) := by
  unfold windowStep windowAttempt at hf
  simp only [openRecord, hs, hf, Bool.false_eq_true, if_false]
  simp only [openRefusal, elim_ite, Option.elim_some, Option.elim_none, recordAttempt,
    windowStep, windowAttempt]

theorem openRecord_refused {k : Nat} (h : s.openRefusal rq.ctx ctl = some k) : s.openRecord rq ctl =
    s.refuseStep rq k (windowStep (s.ctx rq.ctx).step.window) (windowAttempt (s.ctx rq.ctx).step.window) := by
  rw [openRecord_eq hs hf, h]
  rfl

theorem openRecord_accepted (h : s.openRefusal rq.ctx ctl = none) :
    s.openRecord rq ctl = (s.openAttempt rq.ctx (s.recordAttempt rq.ctx ctl)).ok rq := by
  rw [openRecord_eq hs hf, h]
  rfl
end

/-! ## An attempt that opens outside every tree (R36, R37) -/

/-- A context after an attempt has opened in it, before what waited for the attempt is looked at. -/
def openedCtx (now : Word) (a : Attempt) (c : Ctx) : Ctx :=
  { c with
    step := syncStep { c.step with accepted := a :: c.step.accepted, lagWait := false }
    wd := { c.wd with acceptedAt := some now }
    clr := { c.clr with
      segs := Map.mapVals {} c.clr.segs fun _ (x : Seg) => if x.elements = 0 then x else openSeg a.step a.attempt x
      arrived := [], judged := [], reported := [], reports := [], heldVoids := [], heldReports := []
      held := c.clr.held.filter fun h => !h.up
      pairs := c.clr.pairs.map fun p =>
        { p with decided := false, missRun := if p.decided && p.missStep = a.step then p.missRun else 0 } } }

theorem openedCtx_awaited (s : State) (n : Nat) (now : Word) (a : Attempt) (g : GroupDef) :
    (s.setCtx n (openedCtx now a (s.ctx n))).awaited n g = s.awaited n g := by
  have hlocal : (s.setCtx n (openedCtx now a (s.ctx n))).localMembers n g = s.localMembers n g := by
    simp [localMembers, localNodes, openedCtx]
  have hwatch : (s.setCtx n (openedCtx now a (s.ctx n))).watchers n (g.group.setWidth 5) =
      s.watchers n (g.group.setWidth 5) := by
    simp [watchers, pairsOf, openedCtx, List.filter_map, List.flatMap_map, Function.comp_def]
  rw [awaited, hlocal, hwatch, awaited]

section
variable {s : State} {n : Nat}

/-- The newest accepted attempt, when it is OPEN, is the OPEN one. -/
theorem openAtt_of_accepted {a : Attempt} {l : List Attempt} (h : (s.ctx n).step.accepted = a :: l)
    (hp : a.phase = .opened) : s.openAtt n = some a := by
  simp [openAtt, newestAtt, h, hp]

/-- A context none of whose groups awaits a contribution here has no contributing node here. -/
theorem contributors_eq_nil (h : ∀ g ∈ (s.ctx n).clr.groups, s.awaited n g.defn = []) : s.contributors n = [] := by
  have hnil : ((s.ctx n).clr.groups.flatMap fun t => s.awaited n t.defn) = [] := List.flatMap_eq_nil_iff.mpr h
  rw [contributors, hnil]
  rfl

/-- An Azard outside every tree reports no group. -/
theorem reportGroups_of_no_tree (h : ∀ g ∈ (s.ctx n).clr.groups, g.clearing = false) : s.reportGroups n = s := by
  have hnil : s.trees n = [] := List.filter_eq_nil_iff.mpr fun g hg => by simp [h g hg]
  rw [reportGroups, hnil]
  rfl

/-- Only the step root decides on a release. -/
theorem decideRelease_of_not_root (h : (s.ctx n).life.stepRoot = false) : s.decideRelease n = s := by
  unfold decideRelease
  split
  · rfl
  · exact if_pos (by simp [h])

/-- Of the context, sending lag clearance changes CLEAR_SENT alone; it answers nothing. -/
theorem sendLag_frame (s : State) (n : Nat) : (s.sendLag n).answers = s.answers ∧
    (∀ b j, (s.sendLag n).epochOf b j = s.epochOf b j) ∧
    ∃ h, (s.sendLag n).ctx n = { s.ctx n with step.clearSent := h } := by
  have hepoch (h : Option AttHdr) := epochOf_setCtx (s := s) (n := n) (v := { s.ctx n with step.clearSent := h }) rfl
  unfold sendLag
  split
  · exact ⟨rfl, fun _ _ => rfl, _, rfl⟩
  · simp only
    split
    · exact ⟨rfl, fun _ _ => rfl, _, rfl⟩
    · split
      · exact ⟨rfl, hepoch _, _, setCtx_ctx_same _ _ _⟩
      · exact ⟨rfl, hepoch _, _, setCtx_ctx_same _ _ _⟩

/-- At an Azard outside every tree of the context, with nothing held for the attempt, an attempt that opens becomes the newest
one and nothing is answered. -/
theorem openAttempt_outside_trees (a : Attempt)
    (hg : ∀ g ∈ (s.ctx n).clr.groups, g.clearing = false ∧ s.awaited n g.defn = [])
    (hroot : (s.ctx n).life.stepRoot = false) (hheld : (s.ctx n).clr.held = []) (hvoids : (s.ctx n).clr.heldVoids = [])
    (hreports : (s.ctx n).clr.heldReports = []) (hclears : (s.ctx n).step.clears = []) :
    ((s.openAttempt n a).ctx n).step.accepted = a :: (s.ctx n).step.accepted ∧ (s.openAttempt n a).answers = s.answers ∧
      ∀ b j, (s.openAttempt n a).epochOf b j = s.epochOf b j := by
  unfold openAttempt
  extract_lets held voids reports now opened tagged voided drained reported bad judged cleared
  have hopened : opened = s.setCtx n (openedCtx s.now a (s.ctx n)) := rfl
  have hlife : (opened.ctx n).life = (s.ctx n).life := by simp [hopened, openedCtx]
  have hgroups : (opened.ctx n).clr.groups = (s.ctx n).clr.groups := by simp [hopened, openedCtx]
  have haccepted : (opened.ctx n).step.accepted = a :: (s.ctx n).step.accepted := by
    simp [hopened, openedCtx, syncStep_accepted]
  have hnoClear : (opened.ctx n).step.clears = [] := by simp [hopened, openedCtx, syncStep_clears, hclears]
  have htagged : tagged = opened := by
    have hnil : opened.contributors n = [] := contributors_eq_nil fun g hm => by
      rw [hopened, openedCtx_awaited]
      exact (hg g (hgroups ▸ hm)).2
    simp only [tagged, hnil, List.foldl_nil]
  have hvoided : voided = opened := by simp only [voided, voids, hvoids, List.find?_nil, htagged]
  have hdrained : drained = opened := by
    simp only [drained, held, hheld, List.filter_nil, drainUp, List.foldl_nil, hvoided]
  have hreported : reported = opened := by simp only [reported, reports, hreports, List.foldl_nil, hdrained]
  have hjudged : judged = opened := by
    simp only [judged, bad, hreported, hnoClear, List.any_nil, Bool.false_eq_true, if_false]
  have hcleared : cleared = opened.setCtx n { opened.ctx n with step.clears := [] } := by
    simp only [cleared, hjudged, modCtx_eq, hnoClear, List.filter_nil]
  have hclearedCtx : cleared.ctx n = { opened.ctx n with step.clears := [] } := by rw [hcleared, setCtx_ctx_same]
  have hreport : cleared.reportGroups n = cleared :=
    reportGroups_of_no_tree fun g hm => (hg g (by rwa [hclearedCtx, hgroups] at hm)).1
  obtain ⟨hans, hepoch, h, hctx⟩ := sendLag_frame cleared n
  have hlast : (cleared.sendLag n).decideRelease n = cleared.sendLag n :=
    decideRelease_of_not_root (by rw [hctx, hclearedCtx, hlife, hroot])
  rw [hreport, hlast]
  refine ⟨by rw [hctx, hclearedCtx, haccepted], by rw [hans, hcleared]; rfl, fun b j => ?_⟩
  rw [hepoch, hcleared, epochOf_setCtx (by rfl), hopened, epochOf_setCtx (by rfl)]

/-! ## VOID (R38) -/

theorem voidRecord_unknown {rq : Req}
    (h : s.findAtt rq.ctx (windowStep (s.ctx rq.ctx).step.window) (windowAttempt (s.ctx rq.ctx).step.window) = none) :
    s.voidRecord rq = s.refuseStep rq 2 (windowStep (s.ctx rq.ctx).step.window)
      (windowAttempt (s.ctx rq.ctx).step.window) := by
  unfold windowStep windowAttempt at h ⊢
  simp only [voidRecord, h]

/-- At a node that is not the step root, VOID of the OPEN attempt asks the step root for it. -/
theorem voidRecord_asks {rq : Req} {a : Attempt}
    (h : s.findAtt rq.ctx (windowStep (s.ctx rq.ctx).step.window) (windowAttempt (s.ctx rq.ctx).step.window) = some a)
    (hp : a.phase = .opened) (hroot : (s.ctx rq.ctx).life.stepRoot = false) :
    s.voidRecord rq = (s.note (ctxFin rq.ctx) (s.ctx rq.ctx).clr.root 0x12 (some a.hdr)
      [3, (s.ctx rq.ctx).life.self.toNat]).ok rq := by
  unfold windowStep windowAttempt at h
  simp only [voidRecord, h, hp, requestVoid, hroot, if_true, Bool.false_eq_true, if_false]

end
end State

/-- Settles O20: each record by the condition of R36 that it fails, the accepted one by what opens outside every tree, and VOID by
what the window's attempt is. -/
theorem stepOpenAndVoidCommands : Obligations.StepOpenAndVoidCommands := by
  unfold Obligations.StepOpenAndVoidCommands
  refine ⟨?_, ?_, ?_, ?_, ?_⟩
  · intro rq data s h hshut
    rw [exec_stepOpen h, openRecord_shut _ (by simpa using hshut)]
    exact ⟨_, rfl, refuseStep_answeredOnly s rq 1 .., by rw [refuseStep_step]; rfl, by rw [refuseStep_step]⟩
  · intro rq data s h hshut w ctl hfind
    have hw : ((s.wroteControl rq.ctx 1 data).ctx rq.ctx).step.window = w := by rw [wroteControl_ctx]
    have hrefused {k : Nat} (hk : (s.wroteControl rq.ctx 1 data).openRefusal rq.ctx ctl = some k) :
        ((s.wroteControl rq.ctx 1 data).openRecord rq ctl).answeredOnly s rq .nackBusy (BitVec.ofNat 8 k) := by
      rw [openRecord_refused (by simpa using hshut) (by simpa using hfind) hk]
      exact refuseStep_answeredOnly ..
    refine ⟨_, exec_stepOpen h, fun h6 => hrefused (k := 6) (openRefusal_misfit h6),
      fun hlag hmode h5 => hrefused (k := 5) (openRefusal_stepNumbers hw hlag hmode h5), fun hlag hmode h40 h80 =>
      ⟨fun h2 => hrefused (k := 2) (openRefusal_order hw hlag hmode h40 h80 (by simpa using h2)),
        fun h2 h3 => hrefused (k := 3) (openRefusal_past hw hlag hmode h40 h80 (by simpa using h2)
          (by rw [wroteControl_now]; exact h3)),
        fun h2 h4 => hrefused (k := 4) (openRefusal_far hw hlag hmode h40 h80 (by simpa using h2)
          (by rw [wroteControl_now]; exact h4))⟩⟩
  · intro rq data s h hshut w ctl hfind hlag hmode h40 h80 hord hpast hfar hg hroot hheld hvoids hreports hclears
    have hw : ((s.wroteControl rq.ctx 1 data).ctx rq.ctx).step.window = w := by rw [wroteControl_ctx]
    have hnone := openRefusal_none (ctl := ctl) hw hlag hmode h40 h80 (by simpa using hord)
      (by rw [wroteControl_now]; exact hpast) (by rw [wroteControl_now]; exact hfar)
    obtain ⟨hacc, hans, hepoch⟩ := openAttempt_outside_trees (s := s.wroteControl rq.ctx 1 data) (n := rq.ctx)
      ((s.wroteControl rq.ctx 1 data).recordAttempt rq.ctx ctl)
      (by simpa only [wroteControl_ctx, wroteControl_awaited] using hg) (by rw [wroteControl_ctx]; exact hroot)
      (by rw [wroteControl_ctx]; exact hheld) (by rw [wroteControl_ctx]; exact hvoids)
      (by rw [wroteControl_ctx]; exact hreports) (by rw [wroteControl_ctx]; exact hclears)
    rw [wroteControl_ctx] at hacc
    have hexec := exec_stepOpen h
    rw [openRecord_accepted (by simpa using hshut) (by simpa using hfind) hnone] at hexec
    generalize (s.wroteControl rq.ctx 1 data).openAttempt rq.ctx _ = u at hacc hans hepoch hexec
    have hacc' : ((u.ok rq).ctx rq.ctx).step.accepted = _ := hacc
    have hopen := openAtt_of_accepted hacc' rfl
    refine ⟨u.ok rq, _, hexec, ?_, hopen, hacc', ?_, ?_, ?_⟩
    · rw [answeredOnly, ok_eq, answer_answers, hans, hepoch, wroteControl_answers, wroteControl_epochOf]
      rfl
    all_goals simp only [recordAttempt, hw]
  · intro rq data s a h hfind hp hroot
    rw [exec_stepVoid h, voidRecord_asks (by simpa using hfind) hp (by simpa using hroot)]
    exact ⟨_, rfl, by simp [answeredOnly, note], by simp [note], by simp [note]⟩
  · intro rq data s h hfind
    rw [exec_stepVoid h, voidRecord_unknown (by simpa using hfind)]
    exact ⟨_, rfl, refuseStep_answeredOnly s rq 2 .., by rw [refuseStep_step]; rfl⟩

end Sys2Proof.Machine
end

section
/-!
PROOFS. The statements of 02, "Step contract": deadlines and voids (R44, R48, R95, R96, R101, R102).  First what a void leaves of the
attempt; then the two deadlines and VOID_RECEIVED.
-/

namespace Sys2Proof.Machine
open State

/-- An attempt after a void for `cause`, which began at `origin`. -/
def Attempt.voided (a : Attempt) (cause : BitVec 4) (origin : BitVec 16) : Attempt :=
  { a with phase := .voided, cause := cause, origin := origin }

namespace State

/-! ## What a void leaves (R39, R43, R44, R102) -/

section
variable (s : State) (n : Nat)

@[simp] theorem notes_ctx (c : Fin 16) (ns : List (BitVec 16)) (k : Nat) (h : Option AttHdr) (args : List Nat) (d : Bytes)
    (j : Nat) : (s.notes c ns k h args d).ctx j = s.ctx j := by
  unfold ctx
  rw [notes_ctxs]

theorem settleQuiesce_clr : (s.settleQuiesce n).clr = s.clr := by
  unfold settleQuiesce
  split <;> rfl

theorem settleQuiesce_step : ((s.settleQuiesce n).ctx n).step = (s.ctx n).step := by
  unfold settleQuiesce
  split <;> simp

variable (a : Attempt) (cause : BitVec 4) (origin sender : BitVec 16) (segs : List SegReport)

theorem voidAttempt_clr : (s.voidAttempt n a cause origin sender segs).clr = s.clr := by
  rw [voidAttempt, settleQuiesce_clr]
  simp [modAtt]

/-- A void changes the attempt that it names. -/
theorem voidAttempt_accepted : ((s.voidAttempt n a cause origin sender segs).ctx n).step.accepted =
    (s.ctx n).step.accepted.map fun x =>
      if x.step = a.step && x.attempt = a.attempt then x.voided cause origin else x := by
  rw [voidAttempt, settleQuiesce_step]
  simp [modAtt, syncStep_accepted, Attempt.voided]

/-- A void is counted. -/
theorem voidAttempt_voids :
    ((s.voidAttempt n a cause origin sender segs).ctx n).step.voids = satInc (s.ctx n).step.voids := by
  rw [voidAttempt, settleQuiesce_step]
  simp [modAtt, syncStep_voids]

end

section
variable {s : State} {n : Nat} {a : Attempt}

/-- The OPEN attempt is the newest accepted one. -/
theorem openAtt_eq_some : s.openAtt n = some a ↔ s.newestAtt n = some a ∧ a.phase = .opened := by
  unfold openAtt
  cases s.newestAtt n with
  | none => simp
  | some b =>
    by_cases hb : b.phase = .opened
    · simp only [hb, if_true, Option.some.injEq]
      exact ⟨fun h => ⟨h, h ▸ hb⟩, And.left⟩
    · simp only [hb, if_false, Option.some.injEq, reduceCtorEq, false_iff]
      rintro ⟨rfl, h⟩
      exact hb h

/-- A void on the node's own account leaves the newest attempt VOIDED and none OPEN. -/
theorem voidSelf_newest (h : s.openAtt n = some a) (cause : BitVec 4) :
    (s.voidSelf n a cause).newestAtt n = some (a.voided cause (s.ctx n).life.self) ∧
      (s.voidSelf n a cause).openAtt n = none := by
  obtain ⟨l, hl⟩ := List.head?_eq_some_iff.mp (openAtt_eq_some.mp h).1
  have hnew : (s.voidSelf n a cause).newestAtt n = some (a.voided cause (s.ctx n).life.self) := by
    simp [voidSelf, newestAtt, voidAttempt_accepted, hl]
  exact ⟨hnew, by simp [openAtt, hnew, Attempt.voided]⟩

theorem findAtt_ok (rq : Req) (st : Word) (att : BitVec 16) : (s.ok rq).findAtt n st att = s.findAtt n st att := rfl

/-- A void of an accepted attempt leaves that attempt VOIDED. -/
theorem voidAttempt_findAtt {st : Word} {att : BitVec 16} (h : s.findAtt n st att = some a) (cause : BitVec 4)
    (origin sender : BitVec 16) (segs : List SegReport) :
    (s.voidAttempt n a cause origin sender segs).findAtt n st att = some (a.voided cause origin) := by
  have hnamed : (fun x : Attempt => decide (x.step = st) && decide (x.attempt = att)) =
      fun x => decide (x.step = a.step) && decide (x.attempt = a.attempt) := by
    have ha := List.find?_some h
    simp only [Bool.and_eq_true, decide_eq_true_eq] at ha
    rw [ha.1, ha.2]
  have hkeeps (x : Attempt) : (if x.step = a.step && x.attempt = a.attempt then x.voided cause origin else x).step =
      x.step ∧ (if x.step = a.step && x.attempt = a.attempt then x.voided cause origin else x).attempt = x.attempt := by
    split <;> exact ⟨rfl, rfl⟩
  unfold findAtt at h ⊢
  rw [hnamed] at h ⊢
  simp only [voidAttempt_accepted, List.find?_map, Function.comp_def, hkeeps, h, Option.map_some]
  simp

end
end State

/-! ## The deadlines (R95, R96) -/

section
variable {c : Fin 16} {g : BitVec 5} {a : Attempt} {tr : GroupTree} {s : State}

/-- The record and the count that a deadline's void begins with (R48). -/
def State.deadlineMissed (s : State) (c : Fin 16) (a : Attempt) (late : Nat) : State :=
  { s.begin with clr.late := satAdd s.clr.late late }.record 6 10 (evSource 5 c) 0 (a.step.setWidth 32)
    (a.attempt.setWidth 32)

@[simp] theorem deadlineMissed_ctx (late j : Nat) : (s.deadlineMissed c a late).ctx j = s.ctx j := rfl

/-- What a missed deadline leaves of the OPEN attempt. -/
theorem deadlineMissed_voidSelf (ha : s.openAtt c = some a) (late : Nat) :
    ((s.deadlineMissed c a late).voidSelf c a 1).openAtt c = none ∧
      ((s.deadlineMissed c a late).voidSelf c a 1).newestAtt c = some (a.voided 1 (s.ctx c).life.self) := by
  have ha' : (s.deadlineMissed c a late).openAtt c = some a := ha
  exact (voidSelf_newest ha' 1).symm

/-- A group's effective deadline, at a node of its tree that has an OPEN attempt and is not judged yet. -/
theorem exec_effectiveDeadline (ha : s.openAtt c = some a)
    (ht : (s.trees c).find? (fun t => t.defn.group.setWidth 5 = g) = some tr)
    (hj : (s.ctx c).clr.judged.contains g = false) :
    exec (.effectiveDeadline c g) s =
      .next (if s.allSent c tr || (s.lateInputs c a tr = [] && s.pairsAgree c g) then
        s.begin.modCtx c fun x => { x with clr.judged := x.clr.judged ++ [g] }
      else (s.deadlineMissed c a (s.lateInputs c a tr).length).voidSelf c a 1) := by
  have ha' : s.begin.openAtt c = some a := ha
  have ht' : (s.begin.trees c).find? (fun t => t.defn.group.setWidth 5 = g) = some tr := ht
  change execEffectiveDeadline c g s = _
  simp only [execEffectiveDeadline, ha', ht', begin_ctx, hj, Bool.false_eq_true, if_false]
  rfl

/-- The group roots other than this node whose report is late at the report deadline (R95, R96). -/
def State.lateReports (s : State) (c : Fin 16) (a : Attempt) : List GroupTree :=
  (s.ctx c).clr.groups.filter fun t => t.root ≠ (s.ctx c).life.self &&
    !(s.ctx c).clr.reports.any fun r => r.1 = t.defn.group.setWidth 5 &&
      decide (r.2.1 < State.nsStamp (Machine.reportDeadline a (s.ctx c).clr.groups))

theorem exec_reportDeadline (ha : s.openAtt c = some a) (hroot : (s.ctx c).life.stepRoot = true)
    (hlag : (s.ctx c).step.lagWait = false) (hlate : s.lateReports c a ≠ []) :
    exec (.reportDeadline c) s = .next ((s.deadlineMissed c a (s.lateReports c a).length).voidSelf c a 1) := by
  have ha' : s.begin.openAtt c = some a := ha
  change execReportDeadline c s = _
  simp only [execReportDeadline, ha', begin_ctx, hroot, hlag, Bool.not_true, Bool.or_self, Bool.false_eq_true, if_false]
  exact congrArg _ (if_neg hlate)
end

/-! ## VOID_RECEIVED (R102) -/

section
variable {rq : Req} {hdr : AttHdr} {cause : BitVec 4} {origin : BitVec 16} {segs : List SegReport} {s : State}

theorem exec_voidReceived_opened {a : Attempt} (h : s.reaches rq false = true)
    (hf : s.findAtt rq.ctx hdr.step hdr.attempt = some a) (hp : a.phase = .opened)
    (hc : (s.ctx rq.ctx).life.stepRoot = false ∨ cause ≠ 3) :
    exec (.voidReceived rq hdr cause origin segs) s =
      .next ((s.begin.voidAttempt rq.ctx a cause origin rq.source segs).ok rq) := by
  have hf' : s.begin.findAtt rq.ctx hdr.step hdr.attempt = some a := hf
  have hask : ((s.ctx rq.ctx).life.stepRoot && decide (cause = 3)) = false := by
    rcases hc with hc | hc
    · rw [hc, Bool.false_and]
    · rw [decide_eq_false hc, Bool.and_false]
  change execVoidReceived rq hdr cause origin segs s = _
  rw [execVoidReceived, message_eq _ h]
  simp only [hf', hp, begin_ctx, hask, ne_eq, not_true_eq_false, Bool.false_eq_true, if_false]

/-- A VOID of the awaited step's attempt waits for its record. -/
theorem exec_voidReceived_held (h : s.reaches rq false = true) (hf : s.findAtt rq.ctx hdr.step hdr.attempt = none)
    (hnext : hdr.step = (s.ctx rq.ctx).step.released + 1)
    (hnew : (s.ctx rq.ctx).clr.heldVoids.any (fun v => v.1 = hdr) = false) :
    exec (.voidReceived rq hdr cause origin segs) s = .next ((s.begin.modCtx rq.ctx fun c => { c with
      clr.heldVoids := c.clr.heldVoids ++ [(hdr, cause, origin, rq.source, segs)] }).ok rq) := by
  have hf' : s.begin.findAtt rq.ctx hdr.step hdr.attempt = none := hf
  change execVoidReceived rq hdr cause origin segs s = _
  rw [execVoidReceived, message_eq _ h]
  simp only [hf', begin_ctx, hnew, ← hnext, decide_true, Bool.not_false, Bool.and_self, if_true]

end

/-- Settles O25: each deadline by its rule, with what a void leaves, and a VOID by what its attempt is at this node. -/
theorem deadlinesAndVoids : Obligations.DeadlinesAndVoids := by
  unfold Obligations.DeadlinesAndVoids
  refine ⟨?_, ?_, ?_, ?_, ?_⟩
  · intro c g a tr s ha ht hj hin
    rw [exec_effectiveDeadline ha ht hj]
    exact congrArg _ (if_pos (by simpa using hin))
  · intro c g a tr s ha ht hj hsent hlate
    rw [exec_effectiveDeadline ha ht hj, if_neg (by simp [hsent, hlate])]
    obtain ⟨hnone, hnew⟩ := deadlineMissed_voidSelf ha (s.lateInputs c a tr).length
    refine ⟨_, _, rfl, hnone, hnew, rfl, rfl, rfl, rfl, rfl, ?_, ?_⟩
    · rw [voidSelf, voidAttempt_clr]
      rfl
    · rw [voidSelf, voidAttempt_voids, deadlineMissed_ctx]
  · intro c a s ha hroot hlag hlate
    obtain ⟨hnone, hnew⟩ := deadlineMissed_voidSelf ha (s.lateReports c a).length
    exact ⟨_, _, exec_reportDeadline ha hroot hlag hlate, hnone, hnew, rfl, rfl, rfl, rfl⟩
  · intro rq hdr cause origin segs a s h hf hp hc
    have hvoided : s.begin.findAtt rq.ctx hdr.step hdr.attempt = some a := hf
    refine ⟨_, a.voided cause origin, exec_voidReceived_opened h hf hp hc, ?_, rfl, rfl, rfl, ?_⟩
    · rw [findAtt_ok, voidAttempt_findAtt hvoided]
    · rw [ok_eq, answer_ctx, voidAttempt_voids, begin_ctx]
  · intro rq hdr cause origin segs s h hf hnext hnew
    refine ⟨_, exec_voidReceived_held h hf hnext hnew, ?_, rfl, ?_, ?_⟩
    · have hepoch := epochOf_setCtx (s := s.begin) (n := rq.ctx) (v := { s.ctx rq.ctx with
        clr.heldVoids := (s.ctx rq.ctx).clr.heldVoids ++ [(hdr, cause, origin, rq.source, segs)] }) rfl
      simp [answeredOnly, hepoch]
    · simp
    · simp

end Sys2Proof.Machine
end

section
/-!
PROOFS. The statement of 03, "Ledger arithmetic", about element-wise instructions (R75 to R78, R144, R159).  First the elements
that an instruction reads; then one rule for each number of operands, which every such instruction follows.
-/

namespace Sys2Proof.Machine
open State

/-! ## Operand elements (R144) -/

@[simp] theorem Engine.getVec_length (e : Engine) (r : BitVec 5) (w : Nat) : (e.getVec r w).length = e.vlN := elems_length ..

@[simp] theorem Engine.getVec_getElem (e : Engine) (r : BitVec 5) (w i : Nat) (h : i < (e.getVec r w).length) :
    (e.getVec r w)[i] = e.el w r i := elems_getElem ..

/-! ## The rule of each number of operands -/

theorem State.vecForm_iff {s : State} {h : Fin 77} {op : Nat} {f : RFields} {u : RUse} : s.vecForm h op f u = true ↔
    s.standsAt h (encR op f) = true ∧ rFieldsOk f u = true ∧ typeOk f.ty = true ∧
      vlOk (s.engine h) (fmtWidth f.ty.toNat) = true := by
  simp [State.vecForm, and_assoc]

section
variable {s : State} {h : Fin 77} {op : Nat} {f : RFields} {res : Nat → FRes}

theorem State.insn_vec1 {g : Engine → Nat → FRes} (hf : s.vecForm h op f { d := true, a := true } = true)
    (hres : ∀ i, g (s.engine h) ((s.engine h).el (fmtWidth f.ty.toNat) f.a i) = res i) :
    (s.insn h (encR op f) (vec1 f g)).vecStep s h f.d (fmtWidth f.ty.toNat) res := by
  obtain ⟨hs, hu, ht, hv⟩ := State.vecForm_iff.mp hf
  have hx : vec1 f g (s.engine h) = .ok ((s.engine h).putVec f.d (fmtWidth f.ty.toNat)
      (((s.engine h).getVec f.a (fmtWidth f.ty.toNat)).map (g (s.engine h)))) := by
    simp [vec1, check, hu, ht, hv]
  rw [State.insn_ok hs hx]
  exact s.vecStep_putVec h _ _ _ _ (by simp) hv (by simp [hres])

theorem State.insn_vec2 {g : Engine → Nat → Nat → FRes} (hf : s.vecForm h op f { d := true, a := true, b := true } = true)
    (hres : ∀ i, g (s.engine h) ((s.engine h).el (fmtWidth f.ty.toNat) f.a i)
      ((s.engine h).el (fmtWidth f.ty.toNat) f.b i) = res i) :
    (s.insn h (encR op f) (vec2 f g)).vecStep s h f.d (fmtWidth f.ty.toNat) res := by
  obtain ⟨hs, hu, ht, hv⟩ := State.vecForm_iff.mp hf
  have hx : vec2 f g (s.engine h) = .ok ((s.engine h).putVec f.d (fmtWidth f.ty.toNat)
      ((((s.engine h).getVec f.a (fmtWidth f.ty.toNat)).zip ((s.engine h).getVec f.b (fmtWidth f.ty.toNat))).map
        fun x => g (s.engine h) x.1 x.2)) := by
    simp [vec2, check, hu, ht, hv]
  rw [State.insn_ok hs hx]
  exact s.vecStep_putVec h _ _ _ _ (by simp) hv (by simp [hres])

theorem State.insn_vec3 {g : Engine → Nat → Nat → Nat → FRes}
    (hf : s.vecForm h op f { d := true, a := true, b := true, c := true } = true)
    (hres : ∀ i, g (s.engine h) ((s.engine h).el (fmtWidth f.ty.toNat) f.a i)
      ((s.engine h).el (fmtWidth f.ty.toNat) f.b i) ((s.engine h).el (fmtWidth f.ty.toNat) f.c i) = res i) :
    (s.insn h (encR op f) (vec3 f g)).vecStep s h f.d (fmtWidth f.ty.toNat) res := by
  obtain ⟨hs, hu, ht, hv⟩ := State.vecForm_iff.mp hf
  have hx : vec3 f g (s.engine h) = .ok ((s.engine h).putVec f.d (fmtWidth f.ty.toNat)
      ((((s.engine h).getVec f.a (fmtWidth f.ty.toNat)).zip (((s.engine h).getVec f.b (fmtWidth f.ty.toNat)).zip
        ((s.engine h).getVec f.c (fmtWidth f.ty.toNat)))).map fun x => g (s.engine h) x.1 x.2.1 x.2.2)) := by
    simp [vec3, check, hu, ht, hv]
  rw [State.insn_ok hs hx]
  exact s.vecStep_putVec h _ _ _ _ (by simp) hv (by simp [hres])

/-- VCVT reads its operand at the width of the format of C (R144, R158). -/
theorem State.insn_vcvt (hf : s.vecForm h op f { d := true, a := true, c := true } = true) (hc : f.c.toNat ≤ 4)
    (hv' : vlOk (s.engine h) (fmtWidth f.c.toNat) = true) :
    (s.insn h (encR op f) (xVcvt f)).vecStep s h f.d (fmtWidth f.ty.toNat) fun i =>
      cvtF f.ty.toNat (s.engine h).regs.ftz ((s.engine h).fv f.c.toNat f.a i) := by
  obtain ⟨hs, hu, ht, hv⟩ := State.vecForm_iff.mp hf
  have hmod : f.c.toNat % 16 = f.c.toNat := Nat.mod_eq_of_lt (by omega)
  have hx : xVcvt f (s.engine h) = .ok ((s.engine h).putVec f.d (fmtWidth f.ty.toNat)
      (((s.engine h).getVec f.a (fmtWidth f.c.toNat)).map fun x =>
        cvtF f.ty.toNat (s.engine h).regs.ftz ((s.engine h).rd f.c.toNat x))) := by
    simp [xVcvt, check, hu, ht, hv, hv', hc, hmod]
  rw [State.insn_ok hs hx]
  exact s.vecStep_putVec h _ _ _ _ (by simp) hv (by simp [Engine.fv, Engine.rd])
end

/-- Settles O13: each instruction follows the rule of its number of operands, with the element function of its own meaning. -/
theorem floatVectorInstructions : Obligations.FloatVectorInstructions := by
  unfold Obligations.FloatVectorInstructions
  refine ⟨?vadd, ?vsub, ?vmul, ?vdiv, ?vfma, ?vfms, ?vfnma, ?vsqrt, ?vrsqrt, ?vmin, ?vmax, ?vabs, ?vneg, ?vceq, ?vclt, ?vcle,
    ?vnf, ?vcvt⟩
  case vsqrt | vrsqrt | vabs | vneg => exact fun _ _ _ hf => ⟨_, rfl, insn_vec1 hf fun _ => rfl⟩
  case vadd | vsub | vmul | vdiv | vmin | vmax | vceq | vclt | vcle =>
    exact fun _ _ _ hf => ⟨_, rfl, insn_vec2 hf fun _ => rfl⟩
  case vfma | vfms | vfnma => exact fun _ _ _ hf => ⟨_, rfl, insn_vec3 hf fun _ => rfl⟩
  case vnf =>
    refine fun h f s hf => ⟨_, rfl, insn_vec1 hf fun i => ?_⟩
    cases hd : decodeF f.ty.toNat ((s.engine h).el (fmtWidth f.ty.toNat) f.a i) <;> simp [maskElem, hd]
  case vcvt => exact fun _ _ _ hf hc hv => ⟨_, rfl, insn_vcvt hf hc hv⟩

end Sys2Proof.Machine
end

section
/-!
PROOFS. The statement of 03, "Ledger arithmetic", about accumulators and tiles (R79, R80, R155, R156).  First what a vector
result of any length leaves; then the cells of a tile; then each instruction.
-/

namespace Sys2Proof.Machine
open State

/-! ## Results of any length in a vector register (R154, R156) -/

/-- Flags raised together are the flags raised one after another (R154). -/
theorem foldl_flags (l : List FRes) (b : FFlags) :
    b ||| l.foldl (fun a x => a ||| x.2) 0 = l.foldl (fun a x => a ||| x.2) b := by
  have hmap (c : FFlags) : l.foldl (fun a x => a ||| x.2) c = (l.map Prod.snd).foldl (· ||| ·) c := List.foldl_map.symm
  rw [hmap, hmap, ← List.foldl_assoc (op := fun x y : FFlags => x ||| y)]
  exact congrArg (fun c => (l.map Prod.snd).foldl (· ||| ·) c) BitVec.or_zero

namespace Engine
variable (e : Engine) (d : BitVec 5) (w : Nat) (l : List FRes)

theorem putVec_eq : e.putVec d w l = { e with
    regs := { e.regs with v := (e.putVec d w l).regs.v, estat := l.foldl (fun a x => a ||| x.2) e.regs.estat }
    pc := e.pc + 1 } := by
  rw [← foldl_flags]
  rfl

theorem putVec_vec_self : (e.putVec d w l).regs.vec d = putElems 16384 w (e.regs.vec d) (l.map Prod.fst) :=
  Map.get_set_same ..

theorem putVec_vec_ne {r : BitVec 5} (h : r ≠ d) : (e.putVec d w l).regs.vec r = e.regs.vec r :=
  Map.get_set_ne _ _ _ fun hn => h (BitVec.eq_of_toNat_eq hn)

theorem putVec_el (hl : l.length * w ≤ 16384) (i : Nat) :
    (e.putVec d w l).el w d i = if h : i < l.length then l[i].1 % 2 ^ w else e.el w d i := by
  rw [el, putVec_vec_self, elemAt_putElems _ _ _ _ _ (by simpa using hl)]
  simp [el]
end Engine

/-- A vector result of any length retires: its elements from element 0 on, the flags, and nothing else. -/
theorem State.retired_putVec (s : State) (h : Fin 77) (d : BitVec 5) (w : Nat) (l : List FRes) (hl : l.length * w ≤ 16384) :
    ∃ g, s.retired h ((s.engine h).putVec d w l) = s.begin.setEngine h g ∧
      g = { s.engine h with
        regs := { (s.engine h).regs with
          v := g.regs.v, estat := l.foldl (fun a x => a ||| x.2) (s.engine h).regs.estat }
        pc := (s.engine h).pc + 1, icount := (s.engine h).icount + 1 } ∧
      (∀ i (hi : i < l.length), g.el w d i = l[i].1 % 2 ^ w) ∧
      (∀ i, l.length ≤ i → g.el w d i = (s.engine h).el w d i) ∧
      (∀ r, r ≠ d → g.regs.vec r = (s.engine h).regs.vec r) := by
  refine ⟨{ (s.engine h).putVec d w l with icount := (s.engine h).icount + 1 }, rfl, ?_, ?_, ?_, ?_⟩
  · rw [Engine.putVec_eq]
  · intro i hi
    exact ((s.engine h).putVec_el d w l hl i).trans (dif_pos hi)
  · intro i hi
    exact ((s.engine h).putVec_el d w l hl i).trans (dif_neg (Nat.not_lt.mpr hi))
  · exact fun r hr => (s.engine h).putVec_vec_ne d w l hr

theorem fmtWidth_le (c : Nat) : fmtWidth c ≤ 32 := by unfold fmtWidth; split <;> decide

/-! ## Cells of tiles (R156) -/

@[simp] theorem Regs.cells_length (r : Regs) (t : BitVec 5) : (r.cells t).length = 4096 := elems_length ..

theorem Regs.cells_getElem (r : Regs) (t : BitVec 5) (n : Nat) (h : n < (r.cells t).length) :
    (r.cells t)[n] = elemAt 32 (r.tile t).toNat n := elems_getElem ..

/-- Cell (i, j) among the values read from a tile's cells, row by row. -/
theorem Engine.getD_map_cells {β : Type} (e : Engine) (t : BitVec 5) (g : Nat → β) (x : β) {i j : Nat} (hi : i < 64)
    (hj : j < 64) : ((e.regs.cells t).map g).getD (64 * i + j) x = g (e.cell t i j) := by
  have hn : 64 * i + j < ((e.regs.cells t).map g).length := by
    rw [List.length_map, Regs.cells_length]
    omega
  rw [List.getD_eq_getElem?_getD, List.getElem?_eq_getElem hn, Option.getD_some, List.getElem_map, Regs.cells_getElem]
  rfl

/-- Row i of a tile. -/
theorem Engine.row_map_cells {β : Type} (e : Engine) (t : BitVec 5) (g : Nat → β) {i : Nat} (hi : i < 64) :
    (((e.regs.cells t).map g).drop (64 * i)).take 64 = (List.range 64).map fun k => g (e.cell t i k) := by
  apply List.ext_getElem
  · simp; omega
  · intro k hk _
    simp [Regs.cells_getElem, Engine.cell]

/-- Column j of a tile. -/
theorem Engine.col_map_cells {β : Type} (e : Engine) (t : BitVec 5) (g : Nat → β) (x : β) {j : Nat} (hj : j < 64) :
    ((List.range 64).map fun k => ((e.regs.cells t).map g).getD (64 * k + j) x) =
      (List.range 64).map fun k => g (e.cell t k j) :=
  List.map_congr_left fun _ hk => e.getD_map_cells t g x (List.mem_range.mp hk) hj

/-- An engine with every cell of tile register d written, the results' flags raised and the pc at the next instruction. -/
def Engine.putTile (e : Engine) (d : BitVec 5) (l : List FRes) : Engine :=
  let fl := l.foldl (fun a x => a ||| x.2) 0
  { e with regs := (e.regs.setTile d (BitVec.ofNat 131072 (packElems 32 (l.map Prod.fst)))).raise fl }.advance

namespace Engine
variable (e : Engine) (d : BitVec 5) (l : List FRes)

theorem putTile_eq : e.putTile d l = { e with
    regs := { e.regs with t := (e.putTile d l).regs.t, estat := l.foldl (fun a x => a ||| x.2) e.regs.estat }
    pc := e.pc + 1 } := by
  rw [← foldl_flags]
  rfl

theorem putTile_tile_self : (e.putTile d l).regs.tile d = BitVec.ofNat 131072 (packElems 32 (l.map Prod.fst)) :=
  Map.get_set_same ..

theorem putTile_tile_ne {r : BitVec 5} (h : r ≠ d) : (e.putTile d l).regs.tile r = e.regs.tile r :=
  Map.get_set_ne _ _ _ fun hn => h (BitVec.eq_of_toNat_eq hn)

theorem putTile_cell (hl : l.length = 4096) {i j : Nat} (hi : i < 64) (hj : j < 64) :
    (e.putTile d l).cell d i j = l[64 * i + j].1 % 2 ^ 32 := by
  have hput : BitVec.ofNat 131072 (packElems 32 (l.map Prod.fst)) = putElems 131072 32 0#131072 (l.map Prod.fst) := by
    simp only [putElems, BitVec.toNat_ofNat, Nat.zero_mod, Nat.zero_shiftRight, Nat.zero_shiftLeft, Nat.zero_add]
  have hlen : (l.map Prod.fst).length = 4096 := by rw [List.length_map, hl]
  rw [cell, putTile_tile_self, hput, elemAt_putElems _ _ _ _ _ (by omega), dif_pos (by omega), List.getElem_map]
end Engine

/-! ## Accumulators (R79, R155) -/

section
variable {s : State} {h : Fin 77} {f : RFields}

theorem State.rForm_iff {op : Nat} {u : RUse} : s.rForm h op f u = true ↔
    s.standsAt h (encR op f) = true ∧ rFieldsOk f u = true ∧ f.ty = 0 := by
  simp [State.rForm, and_assoc]

theorem xAclr_ok (e : Engine) (hu : rFieldsOk f { c := true } = true) (ht : f.ty = 0) (hc : lowReg f.c = true) :
    xAclr f e = .ok { e with regs := e.regs.setAccum f.c {} }.advance := by
  simp [xAclr, check, hu, ht, hc]

theorem xAadd_ok (e : Engine) (hu : rFieldsOk f { a := true, c := true } = true) (ht : typeOk f.ty = true)
    (hc : lowReg f.c = true) (hv : vlOk e (fmtWidth f.ty.toNat) = true) :
    xAadd f e = .ok { e with regs := e.regs.setAccum f.c ((List.range e.vlN).foldl (fun a i => a.add (e.fv f.ty.toNat f.a i))
      (e.regs.accum f.c)) }.advance := by
  have hel : e.getVec f.a (fmtWidth f.ty.toNat) = (List.range e.vlN).map (e.el (fmtWidth f.ty.toNat) f.a) :=
    List.ext_getElem (by simp) (by simp)
  simp [xAadd, check, hu, ht, hc, hv, hel, List.foldl_map, Engine.fv, Engine.rd]

theorem xAget_ok (e : Engine) (hu : rFieldsOk f { d := true, c := true } = true) (ht : typeOk f.ty = true)
    (hc : lowReg f.c = true) :
    xAget f e = .ok (e.putVec f.d (fmtWidth f.ty.toNat) [(e.regs.accum f.c).round f.ty.toNat e.regs.ftz]) := by
  simp [xAget, check, hu, ht, hc]

/-! ## Tiles (R80, R156) -/

theorem xTzero_ok (e : Engine) (hu : rFieldsOk f { d := true } = true) (ht : f.ty = 0) (hd : lowReg f.d = true) :
    xTzero f e = .ok { e with regs := e.regs.setTile f.d 0 }.advance := by
  simp [xTzero, check, hu, ht, hd]

/-- TRED's sums are the roundings of the rows' or columns' exact sums. -/
theorem xTred_ok (e : Engine) (hu : rFieldsOk f { d := true, a := true, axis := true } = true) (ht : typeOk f.ty = true)
    (ha : lowReg f.a = true) :
    xTred f e = .ok (e.putVec f.d (fmtWidth f.ty.toNat) ((List.range 64).map (e.redCell f))) := by
  simp only [xTred, check, hu, ht, ha, Bool.and_self, if_true, Except.ok.injEq]
  congr 1
  refine List.map_congr_left fun i hi => ?_
  have hline : ((List.range 64).map fun j => ((e.regs.cells f.a).map fun x => e.rd 0 x).getD
      (if f.axis then 64 * j + i else 64 * i + j) (.num false 0 0)) =
      (List.range 64).map fun j => readF e.regs.ftz 0 (if f.axis then e.cell f.a j i else e.cell f.a i j) := by
    refine List.map_congr_left fun j hj => ?_
    rw [List.mem_range] at hi hj
    split
    · exact e.getD_map_cells f.a _ _ hj hi
    · exact e.getD_map_cells f.a _ _ hi hj
  rw [hline, List.foldl_map]
  rfl

/-- A result for each cell of a tile from its row of one tile and its column of another, the products added in turn. -/
theorem Engine.map_mmaStep (e : Engine) (d a b : BitVec 5) (va vb : Nat → FVal) :
    ((e.regs.cells d).zipIdx.map fun x => (((((e.regs.cells a).map va).drop (64 * (x.2 / 64))).take 64).zip
        ((List.range 64).map fun k => ((e.regs.cells b).map vb).getD (64 * k + x.2 % 64) (.num false 0 0))).foldl
        (fun acc p => mmaStep e.regs.ftz acc p.1 p.2) (x.1, 0)) =
      (List.range 4096).map fun n => (List.range 64).foldl
        (fun acc k => mmaStep e.regs.ftz acc (va (e.cell a (n / 64) k)) (vb (e.cell b k (n % 64))))
        (e.cell d (n / 64) (n % 64), 0) := by
  apply List.ext_getElem
  · simp
  · intro n hn _
    have hn : n < 4096 := by simpa using hn
    have hcell : (e.regs.cells d)[n]'(by simpa using hn) = e.cell d (n / 64) (n % 64) := by
      rw [Regs.cells_getElem, Engine.cell, Nat.div_add_mod]
    simp only [List.getElem_map, List.getElem_zipIdx, List.getElem_range, Nat.zero_add, hcell,
      e.row_map_cells a va (show n / 64 < 64 by omega), e.col_map_cells b vb _ (show n % 64 < 64 by omega),
      List.zip_map', List.foldl_map]

/-- TMMA's effect: a whole tile and the flags of all its cells. -/
theorem xTmma_ok (e : Engine) (hu : rFieldsOk f { d := true, a := true, b := true } = true)
    (ht : f.ty = 1 ∨ f.ty = 3 ∨ f.ty = 4) (hd : lowReg f.d = true) (ha : lowReg f.a = true) (hb : lowReg f.b = true) :
    xTmma f e = .ok (e.putTile f.d ((List.range 4096).map fun n => e.mmaCell f (n / 64) (n % 64))) := by
  have hty : (decide (f.ty.toNat = 1) || decide (f.ty.toNat = 3) || decide (f.ty.toNat = 4)) = true := by
    rcases ht with ht | ht | ht <;> rw [ht] <;> rfl
  simp only [xTmma, check, hu, hty, hd, ha, hb, Bool.and_self, if_true, e.map_mmaStep]
  rfl
end

/-- Settles O14: each instruction's effect, read off the registers that it writes. -/
theorem accumulatorAndTileInstructions : Obligations.AccumulatorAndTileInstructions := by
  unfold Obligations.AccumulatorAndTileInstructions
  refine ⟨?aclr, ?aadd, ?aget, ?tzero, ?tred, ?tmma⟩
  case aclr =>
    intro h f s hf hc
    obtain ⟨hs, hu, ht⟩ := State.rForm_iff.mp hf
    exact congrArg _ (State.insn_ok hs (xAclr_ok _ hu ht hc))
  case aadd =>
    intro h f s hf hc
    obtain ⟨hs, hu, ht, hv⟩ := State.vecForm_iff.mp hf
    exact congrArg _ (State.insn_ok hs (xAadd_ok _ hu ht hc hv))
  case aget =>
    intro h f s hs hu ht hc
    have hw := fmtWidth_le f.ty.toNat
    obtain ⟨g, hg, heq, hel, hold, hvec⟩ := s.retired_putVec h f.d (fmtWidth f.ty.toNat)
      [((s.engine h).regs.accum f.c).round f.ty.toNat (s.engine h).regs.ftz] (by simp; omega)
    exact ⟨g, congrArg _ ((State.insn_ok hs (xAget_ok _ hu ht hc)).trans hg), heq, hel 0 (by simp),
      fun i hi _ => hold i hi, hvec⟩
  case tzero =>
    intro h f s hf hd
    obtain ⟨hs, hu, ht⟩ := State.rForm_iff.mp hf
    exact congrArg _ (State.insn_ok hs (xTzero_ok _ hu ht hd))
  case tred =>
    intro h f s hs hu ht ha
    have hw := fmtWidth_le f.ty.toNat
    obtain ⟨g, hg, heq, hel, hold, hvec⟩ := s.retired_putVec h f.d (fmtWidth f.ty.toNat)
      ((List.range 64).map ((s.engine h).redCell f)) (by simp; omega)
    rw [List.foldl_map] at heq
    refine ⟨g, congrArg _ ((State.insn_ok hs (xTred_ok _ hu ht ha)).trans hg), heq, fun i hi => ?_, fun i hi _ => ?_, hvec⟩
    · rw [hel i (by simpa using hi), List.getElem_map, List.getElem_range]
    · exact hold i (by simpa using hi)
  case tmma =>
    intro h f s hs hu ht hd ha hb
    refine ⟨{ (s.engine h).putTile f.d ((List.range 4096).map fun n => (s.engine h).mmaCell f (n / 64) (n % 64)) with
      icount := (s.engine h).icount + 1 }, congrArg _ (State.insn_ok hs (xTmma_ok _ hu ht hd ha hb)), ?_, ?_, ?_⟩
    · rw [Engine.putTile_eq, List.foldl_map]
    · intro i j hi hj
      refine ((s.engine h).putTile_cell f.d _ (by simp) hi hj).trans ?_
      rw [List.getElem_map, List.getElem_range, show (64 * i + j) / 64 = i by omega, show (64 * i + j) % 64 = j by omega]
    · exact fun r hr => (s.engine h).putTile_tile_ne f.d _ hr

end Sys2Proof.Machine
end

section
/-!
PROOFS. The statement of 03, "Ledger arithmetic", about NaN operands, invalid operations and extrema (R59, R76, R154).
-/

namespace Sys2Proof.Machine

section
variable (c : Nat) (z : Bool) (y : FVal)

/-! ## Operands that are NaN (R76) -/

theorem addV_nan_left : addV c z .nan y = nanF c := rfl

theorem addV_nan_right : addV c z y .nan = nanF c := by cases y <;> rfl

/-- Minimum and maximum pass over a NaN (R76). -/
theorem minmaxF_nan_left (hi : Bool) : minmaxF c z hi .nan y = deliverV c z y := by cases y <;> rfl

theorem minmaxF_nan_right (hi : Bool) : minmaxF c z hi y .nan = deliverV c z y := by cases y <;> rfl

/-! ## Invalid operations (R154) -/

theorem addV_inf_unlike (n : Bool) : addV c z (.inf n) (.inf !n) = invalidF c := by cases n <;> rfl

theorem divF_zero_zero (n m : Bool) (p q : Int) : divF c z (.num n 0 p) (.num m 0 q) = invalidF c := rfl

theorem mulF_inf_zero (n m : Bool) (q : Int) : mulF c z (.inf n) (.num m 0 q) = invalidF c := rfl

theorem sqrtF_negative {m : Nat} (q : Int) (h : m ≠ 0) : sqrtF c z (.num true m q) = invalidF c := by simp [sqrtF, h]
end

/-- Settles O18: NaN operands and invalid operations give the canonical NaN, minimum and maximum the other operand. -/
theorem naNAndExtremaRules : Obligations.NaNAndExtremaRules := by
  unfold Obligations.NaNAndExtremaRules
  refine ⟨?_, ?_, ?_, ?_, ?_, ?_, ?_⟩
  · intro c z y
    rw [addV_nan_left, addV_nan_right]
    exact ⟨rfl, rfl⟩
  · exact fun c z => addV_inf_unlike c z false
  · exact divF_zero_zero
  · exact mulF_inf_zero
  · exact fun c z _ q hm => sqrtF_negative c z q hm
  · exact fun c z hi y => ⟨minmaxF_nan_left c z y hi, minmaxF_nan_right c z y hi⟩
  · decide

end Sys2Proof.Machine
end

section
/-!
PROOFS. The statement of 03, "Ledger arithmetic", about the ledger: an element's sum is the exact sum of its terms (R63, R64).
-/

namespace Sys2Proof.Machine
open State

/-! ## One contribution of one element (R63) -/

section
variable (raw : Mem) (g : Seg) (i : Nat)

@[simp] theorem noteExp_sums (b : Nat) (e : Int) : (noteExp g b e).sums = g.sums := rfl
@[simp] theorem noteExp_cfmt (b : Nat) (e : Int) : (noteExp g b e).cfmt = g.cfmt := rfl
@[simp] theorem noteExp_e0 (b : Nat) (e : Int) : (noteExp g b e).e0 = g.e0 := rfl

theorem addElem_nonfinite (h : convert (elemValue g.cfmt.toNat raw i) g.e0.toInt = .nonfinite) :
    addElem raw g i = { g with nonfinite := true, nf := putOnce g.nf i } := by
  simp [addElem, h]

theorem addElem_overflow {e : Int} (h : convert (elemValue g.cfmt.toNat raw i) g.e0.toInt = .overflow e) :
    addElem raw g i =
      noteExp { g with winOvf := true, ovfEl := putOnce g.ovfEl i, ovfBlk := putOnce g.ovfBlk (i / 64) } (i / 64) e := by
  simp [addElem, h]

theorem addElem_value {l : BitVec 128} {e : Option Int}
    (h : convert (elemValue g.cfmt.toNat raw i) g.e0.toInt = .value l e) :
    addElem raw g i = e.elim { g with sums := Map.mod 0 g.sums i (· + l) }
      (noteExp { g with sums := Map.mod 0 g.sums i (· + l) } (i / 64)) := by
  cases e <;> simp [addElem, h]

/-- A contribution changes neither the segment's format nor its window. -/
theorem addElem_window : (addElem raw g i).cfmt = g.cfmt ∧ (addElem raw g i).e0 = g.e0 := by
  cases h : convert (elemValue g.cfmt.toNat raw i) g.e0.toInt with
  | nonfinite => simp [addElem_nonfinite raw g i h]
  | overflow e => simp [addElem_overflow raw g i h]
  | value l e => cases e <;> simp [addElem_value raw g i h]

/-- A contribution adds its term to its own element's sum, and to no other's. -/
theorem addElem_sums (e : Nat) : Map.get 0 (addElem raw g i).sums e =
    Map.get 0 g.sums e + if i = e then ledgerTerm g raw i else 0 := by
  cases h : convert (elemValue g.cfmt.toNat raw i) g.e0.toInt with
  | nonfinite => simp [addElem_nonfinite raw g i h, ledgerTerm, h]
  | overflow x => simp [addElem_overflow raw g i h, ledgerTerm, h]
  | value l x =>
    have hsums : (addElem raw g i).sums = Map.mod 0 g.sums i (· + l) := by cases x <;> simp [addElem_value raw g i h]
    by_cases he : i = e
    · subst he
      simp [hsums, Map.mod, ledgerTerm, h, Map.get_set_same]
    · simp [hsums, Map.mod, he, Map.get_set_ne _ _ _ (Ne.symm he)]
end

/-- A term depends on the contribution, its format and the window base alone (R63). -/
theorem ledgerTerm_congr {g₁ g₂ : Seg} (hc : g₁.cfmt = g₂.cfmt) (he : g₁.e0 = g₂.e0) (raw : Mem) (i : Nat) :
    ledgerTerm g₁ raw i = ledgerTerm g₂ raw i := by
  unfold ledgerTerm
  rw [hc, he]

@[simp] theorem ledgerTerm_addElem (g : Seg) (raw m : Mem) (i j : Nat) :
    ledgerTerm (addElem raw g i) m j = ledgerTerm g m j :=
  ledgerTerm_congr (addElem_window raw g i).1 (addElem_window raw g i).2 m j

/-! ## Contributions entered in turn (R64) -/

/-- The terms of element e among contributions that are entered in turn. -/
def termsOf (g : Seg) (e : Nat) (l : List (Mem × Nat)) : List (BitVec 128) :=
  (l.filter fun x => x.2 = e).map fun x => ledgerTerm g x.1 x.2

theorem termsOf_addElem (g : Seg) (raw : Mem) (i e : Nat) (l : List (Mem × Nat)) :
    termsOf (addElem raw g i) e l = termsOf g e l := by
  simp [termsOf]

theorem termsOf_perm {l₁ l₂ : List (Mem × Nat)} (h : l₁.Perm l₂) (g : Seg) (e : Nat) :
    (termsOf g e l₁).Perm (termsOf g e l₂) :=
  (h.filter _).map _

theorem foldl_addElem_sums (l : List (Mem × Nat)) (g : Seg) (e : Nat) :
    Map.get 0 (l.foldl (fun g x => addElem x.1 g x.2) g).sums e = (termsOf g e l).foldl (· + ·) (Map.get 0 g.sums e) := by
  induction l generalizing g with
  | nil => rfl
  | cons x l ih =>
    rw [List.foldl_cons, ih, termsOf_addElem, addElem_sums]
    by_cases he : x.2 = e
    · simp [termsOf, he]
    · simp [termsOf, he]

/-- Settles O21: each contribution adds its own term, and the additions may be made in any order. -/
theorem ledgerSumIsTheExactSum : Obligations.LedgerSumIsTheExactSum := by
  unfold Obligations.LedgerSumIsTheExactSum
  refine ⟨foldl_addElem_sums, ?_, fun _ _ m i hc he => ledgerTerm_congr hc he m i⟩
  intro l₁ l₂ g e h
  rw [foldl_addElem_sums, foldl_addElem_sums]
  have hswap (x y z : BitVec 128) : z + x + y = z + y + x := by
    rw [BitVec.add_assoc, BitVec.add_comm x y, ← BitVec.add_assoc]
  exact (termsOf_perm h g e).foldl_eq' (fun x _ y _ z => hswap x y z) _

end Sys2Proof.Machine
end

section
/-!
PROOFS. The statements of 04, "Clearing": the descriptor table (R85, R86) and contributions (R87, R88, R437).  First what the work
on a context's inputs leaves alone; then the units of a contribution; then what each request runs.
-/

namespace Sys2Proof.Machine
open State

namespace State

/-! ## What is read after a change of one segment -/

section
variable (s : State) (n k : Nat) (f : Seg → Seg)

@[simp] theorem begin_seg (j : Nat) : s.begin.seg n j = s.seg n j := rfl
@[simp] theorem begin_openAtt : s.begin.openAtt n = s.openAtt n := rfl
@[simp] theorem begin_findAtt (st : Word) (a : BitVec 16) : s.begin.findAtt n st a = s.findAtt n st a := rfl
@[simp] theorem begin_ingress (rq : Req) (st : MacStamp) : s.begin.ingress rq st = s.ingress rq st := rfl
@[simp] theorem begin_endpoint (rq : Req) : s.begin.endpoint rq = s.endpoint rq := rfl
@[simp] theorem ok_seg (rq : Req) (j : Nat) : (s.ok rq).seg n j = s.seg n j := rfl

@[simp] theorem modSeg_epochOf (b : Bool) (j : Nat) : (s.modSeg n k f).epochOf b j = s.epochOf b j :=
  epochOf_setCtx (v := { s.ctx n with clr.segs := Map.mod {} (s.ctx n).clr.segs k f }) rfl b j

@[simp] theorem modSeg_seg_same : (s.modSeg n k f).seg n k = f (s.seg n k) := by
  simp [modSeg, seg, Map.mod, Map.get_set_same]

/-- The one answer given is OK, when nothing has been answered before it. -/
theorem answeredOnly_ok {t : State} (ha : t.answers = []) (he : ∀ b j, t.epochOf b j = s.epochOf b j) (rq : Req) :
    (t.ok rq).answeredOnly s rq .ok := by
  simp [answeredOnly, ha, he]

end

/-! ## Work on a context's inputs -/

/-- From `s` to `t` the inputs of context n were worked on: nothing was answered or sent, and its groups, its pairs and every epoch
are as they were. -/
structure InputWork (t s : State) (n : Nat) : Prop where
  answers : t.answers = s.answers
  sent : t.sent = s.sent
  epochOf : ∀ b j, t.epochOf b j = s.epochOf b j
  groups : (t.ctx n).clr.groups = (s.ctx n).clr.groups
  pairs : (t.ctx n).clr.pairs = (s.ctx n).clr.pairs

section
variable {s t u : State} {n k : Nat}

theorem InputWork.refl (s : State) (n : Nat) : s.InputWork s n := ⟨rfl, rfl, fun _ _ => rfl, rfl, rfl⟩

theorem InputWork.trans (h : u.InputWork t n) (h' : t.InputWork s n) : u.InputWork s n :=
  ⟨h.answers.trans h'.answers, h.sent.trans h'.sent, fun b j => (h.epochOf b j).trans (h'.epochOf b j),
    h.groups.trans h'.groups, h.pairs.trans h'.pairs⟩

/-- A change of the context that keeps its groups, its pairs and its epoch. -/
theorem inputWork_modCtx {f : Ctx → Ctx} (hg : (f (s.ctx n)).clr.groups = (s.ctx n).clr.groups)
    (hp : (f (s.ctx n)).clr.pairs = (s.ctx n).clr.pairs) (he : (f (s.ctx n)).epoch = (s.ctx n).epoch) :
    (s.modCtx n f).InputWork s n :=
  ⟨rfl, rfl, epochOf_setCtx he, by simp [hg], by simp [hp]⟩

theorem inputWork_modSeg (f : Seg → Seg) : (s.modSeg n k f).InputWork s n := inputWork_modCtx rfl rfl rfl

theorem inputWork_dup (d : BitVec 32) : ({ s with clr.dup := d } : State).InputWork s n :=
  ⟨rfl, rfl, fun _ _ => rfl, rfl, rfl⟩

theorem inputWork_noteArrival (key : InputKey) (st : Stamp) : (s.noteArrival n key st).InputWork s n := by
  unfold noteArrival
  split
  · exact .refl s n
  · exact inputWork_modCtx rfl rfl rfl

/-- An arrival noted changes no segment. -/
@[simp] theorem noteArrival_seg (key : InputKey) (st : Stamp) : (s.noteArrival n key st).seg n k = s.seg n k := by
  unfold noteArrival
  split
  · rfl
  · simp [seg]

/-! ## Staging (R91) -/

/-- Staging taken for a chunk stands in the segment's lists of chunks, and nowhere else. -/
theorem stageChunk_eq_some {c : Nat} (h : s.stageChunk n k c = some t) : t.InputWork s n ∧
    ∃ r b, t.seg n k = { s.seg n k with sramChunks := r, hbmChunks := b } := by
  unfold stageChunk at h
  simp only at h
  split at h
  · cases h
    exact ⟨.refl s n, _, _, rfl⟩
  · split at h
    · cases h
      exact ⟨inputWork_modSeg _, _, _, modSeg_seg_same ..⟩
    · split at h
      · cases h
        exact ⟨inputWork_modSeg _, _, _, modSeg_seg_same ..⟩
      · cases h

theorem stageChunks_eq_some {l : List Nat} (h : s.stageChunks n k l = some t) : t.InputWork s n := by
  induction l generalizing s with
  | nil => cases h; exact .refl _ n
  | cons c l ih =>
    unfold stageChunks at h
    split at h
    · next hc => exact (ih h).trans (stageChunk_eq_some hc).1
    · cases h

/-! ## No group root and no pair here (R92, R97, R250) -/

/-- An Azard that is no group's root reports no group. -/
theorem reportGroups_of_no_root (h : ∀ g ∈ s.trees n, g.isRoot = false) : s.reportGroups n = s := by
  refine List.foldlRecOn (motive := (· = s)) _ _ rfl ?_
  rintro _ rfl g hg
  simp only [h g hg, Bool.not_false, Bool.true_or, if_true]
  split <;> rfl

theorem InputWork.trees (h : t.InputWork s n) : t.trees n = s.trees n := by
  rw [State.trees, h.groups, ← State.trees]

/-- A context without pairs compares none. -/
theorem comparePairs_of_no_pair (h : (s.ctx n).clr.pairs = []) (g : BitVec 5) : s.comparePairs n g = s := by
  unfold comparePairs
  rw [h]
  split <;> rfl

end
end State

/-! ## The units of a contribution (R87) -/

section
variable {member paired : Bool} {k : Nat} {node : BitVec 16} {off : Nat} {d : Bytes}

@[simp] theorem addElem_units (raw : Mem) (g : Seg) (i : Nat) : (addElem raw g i).units = g.units := by
  cases h : convert (elemValue g.cfmt.toNat raw i) g.e0.toInt with
  | nonfinite => simp [addElem_nonfinite raw g i h]
  | overflow e => simp [addElem_overflow raw g i h, noteExp]
  | value l e => cases e <;> simp [addElem_value raw g i h, noteExp]

@[simp] theorem foldl_addElem_units (raw : Mem) (l : List Nat) (g : Seg) : (l.foldl (addElem raw) g).units = g.units := by
  induction l generalizing g with
  | nil => rfl
  | cons i l ih => rw [List.foldl_cons, ih, addElem_units]

theorem takeUnit_units (g : Seg) : (takeUnit member paired k node off d g).units = g.units ++ [(node, off / 256)] := by
  cases member <;> cases paired <;> simp [takeUnit]

namespace State

/-- One unit of a contribution: a repeat is counted, a new one is taken. -/
def enterUnit (s : State) (n k : Nat) (member paired : Bool) (node : BitVec 16) (off : Nat) (d : Bytes) : State :=
  if (s.seg n k).units.contains (node, off / 256) then { s with clr.dup := satInc s.clr.dup }
  else s.modSeg n k (takeUnit member paired k node off d)

variable {s : State} {n : Nat}

theorem takeUnits_nil (f : Nat) : s.takeUnits n k member paired node f off [] = s := by cases f <;> rfl

theorem takeUnits_succ (f : Nat) (h : d ≠ []) : s.takeUnits n k member paired node (f + 1) off d =
    (s.enterUnit n k member paired node off (d.take 256)).takeUnits n k member paired node f (off + 256) (d.drop 256) := by
  simp only [takeUnits, h, if_false, enterUnit]

theorem inputWork_enterUnit : (s.enterUnit n k member paired node off d).InputWork s n := by
  unfold enterUnit
  split
  · exact inputWork_dup _
  · exact inputWork_modSeg _

/-- The unit entered is accepted afterwards, with those accepted before it. -/
theorem mem_enterUnit_units (x : BitVec 16 × Nat) :
    x ∈ ((s.enterUnit n k member paired node off d).seg n k).units ↔ x ∈ (s.seg n k).units ∨ x = (node, off / 256) := by
  unfold enterUnit
  split
  · next h =>
    have hin : (node, off / 256) ∈ (s.seg n k).units := by simpa using h
    exact ⟨.inl, fun hx => hx.elim id fun e => e ▸ hin⟩
  · simp [takeUnit_units]

theorem inputWork_takeUnits (f : Nat) : (s.takeUnits n k member paired node f off d).InputWork s n := by
  induction f generalizing s off d with
  | zero => exact .refl s n
  | succ f ih =>
    by_cases hd : d = []
    · rw [hd, takeUnits_nil]
      exact .refl s n
    · rw [takeUnits_succ _ hd]
      exact ih.trans inputWork_enterUnit

/-- Units accepted stay accepted. -/
theorem mem_takeUnits_of_mem (f : Nat) {x : BitVec 16 × Nat} (h : x ∈ (s.seg n k).units) :
    x ∈ ((s.takeUnits n k member paired node f off d).seg n k).units := by
  induction f generalizing s off d with
  | zero => exact h
  | succ f ih =>
    by_cases hd : d = []
    · rwa [hd, takeUnits_nil]
    · rw [takeUnits_succ _ hd]
      exact ih ((mem_enterUnit_units _).mpr (.inl h))

/-- Every unit that the bytes cover is accepted, once there is fuel for all of them. -/
theorem mem_takeUnits {f : Nat} (hoff : off % 256 = 0) (hf : d.length / 256 < f) {u : Nat} (hlo : off / 256 ≤ u)
    (hhi : 256 * u < off + d.length) :
    (node, u) ∈ ((s.takeUnits n k member paired node f off d).seg n k).units := by
  induction f generalizing s off d with
  | zero => omega
  | succ f ih =>
    have hd : d ≠ [] := by
      rintro rfl
      simp at hhi
      omega
    rw [takeUnits_succ _ hd]
    by_cases hu : u = off / 256
    · exact mem_takeUnits_of_mem _ ((mem_enterUnit_units _).mpr (.inr (by rw [hu])))
    · have hlen : (d.drop 256).length = d.length - 256 := List.length_drop
      exact ih (by omega) (by omega) (by omega) (by omega)

end State
end

/-! ## The descriptor table (R85, R86) -/

section
variable {s : State} {rq : Req} {off len : Nat} {data : Bytes}

theorem exec_descriptorTableWr (rq : Req) (op : OpCode) (off len : Nat) (data : Bytes) (s : State) :
    exec (.descriptorTableWr rq op off len data) s = .next (s.descrRequest rq op off len data) := rfl

namespace State

/-- The words of `data` stored in the table of context n, from byte `off` on. -/
def wroteDescrs (s : State) (n off : Nat) (data : Bytes) : State :=
  s.modCtx n fun c => { c with clr.segs := writeDescrs c.clr.segs (data.length / 8) (off / 8) data }

theorem inputWork_wroteDescrs (s : State) (n off : Nat) (data : Bytes) : (s.wroteDescrs n off data).InputWork s n :=
  inputWork_modCtx rfl rfl rfl

theorem wroteDescrs_ctx (s : State) (n off : Nat) (data : Bytes) (j : Nat) : (s.wroteDescrs n off data).ctx j =
    if j = n then { s.ctx n with clr.segs := writeDescrs (s.ctx n).clr.segs (data.length / 8) (off / 8) data } else s.ctx j :=
  setCtx_ctx ..

variable (hr : s.reachesByPort rq = true) (he : s.endpoint rq = true)
include hr he

section
variable (ho : off % 8 = 0) (hl : data.length % 8 = 0) (hend : off + data.length ≤ 65520)
include ho hl hend

/-- An endpoint's write that lies in the table of a CHARTERED context is stored. -/
theorem descrRequest_wr_chartered (hst : (s.ctx rq.ctx).life.st = .chartered) :
    s.descrRequest rq .wr off len data = (s.begin.wroteDescrs rq.ctx off data).ok rq := by
  simp [descrRequest, osfel_eq _ hr, he, ho, hl, Nat.not_lt.mpr hend, hst, wroteDescrs]

/-- In any other state it is refused. -/
theorem descrRequest_wr_refused (hst : (s.ctx rq.ctx).life.st ≠ .chartered) :
    s.descrRequest rq .wr off len data = s.begin.nackAccess rq := by
  simp [descrRequest, osfel_eq _ hr, he, ho, hl, Nat.not_lt.mpr hend, hst]
end

/-- A segment's 16 bytes read as its descriptor and its status word. -/
theorem descrRequest_rd {k : Nat} (hk : k < 4095) (d : Bytes) :
    s.descrRequest rq .rd (16 * k) 16 d = s.begin.answer rq .ok 0
      (natLe 8 (descrWord (s.seg rq.ctx k)).toNat ++ natLe 8 (statusWord (s.seg rq.ctx k)).toNat) := by
  have ho : 16 * k % 8 = 0 := by omega
  have hend : ¬ 65520 < 16 * k + 16 := by omega
  have hfirst : 16 * k / 8 = 2 * k := by omega
  have hhalf : (2 * k + 1) / 2 = k := by omega
  simp [descrRequest, osfel_eq _ hr, he, ho, hend, hfirst, hhalf, List.range_succ]

end State
end

/-! ## What a contribution runs (R437) -/

section
variable {s : State} {rq : Req} {x : Ext} {seg : BitVec 12} {off : Nat} {data : Bytes} {p : Fin 25}

section
variable (hr : s.reachesByPort rq = true) (hp : rq.path = .port p)
  (hb : (s.ctx rq.ctx).bind.bound.any (fun b => b.1 = rq.source && b.2.toNat = p.val) = true)
include hr hp hb

theorem exec_contributionWrc_undefined (he : (s.seg rq.ctx seg.toNat).elements = 0) (op : OpCode) (st : MacStamp) :
    exec (.contributionWrc rq op seg off data st) s = .next (s.begin.answer rq .nackAddress) := by
  change execContributionWrc rq op seg off data st s = _
  simp only [execContributionWrc, osfel_eq _ hr, hp, begin_ctx, hb, begin_seg, he]
  rfl

theorem exec_contributionWrc_nackAccess (he : (s.seg rq.ctx seg.toNat).elements ≠ 0) {op : OpCode}
    (h : op ≠ .wrc ∨ rq.ext = none) (st : MacStamp) :
    exec (.contributionWrc rq op seg off data st) s = .next (s.begin.answer rq .nackAccess) := by
  change execContributionWrc rq op seg off data st s = _
  simp only [execContributionWrc, osfel_eq _ hr, hp, begin_ctx, hb, begin_seg, he]
  rcases h with h | h
  · simp [h]
  · simp [h]

theorem exec_contributionWrc_judged (he : (s.seg rq.ctx seg.toNat).elements ≠ 0) (hx : rq.ext = some x)
    (ha : x.hasAttempt = true) (hc : x.hasClaim = true) (st : MacStamp) :
    exec (.contributionWrc rq .wrc seg off data st) s =
      .next (s.begin.judgeUnits rq x seg.toNat off data (s.ingress rq st)) := by
  change execContributionWrc rq .wrc seg off data st s = _
  simp only [execContributionWrc, osfel_eq _ hr, hp, begin_ctx, hb, begin_seg, begin_ingress, he, hx, ha, hc,
    Bool.not_true, Bool.or_self, Bool.false_eq_true, ne_eq, not_true_eq_false, if_false]
end

namespace State
variable {k : Nat} {tr : GroupTree} {a : Attempt}

/-- A contribution without the member claim answers NACK_CLAIM. -/
theorem judgeUnits_nackClaim (hg : (s.ctx rq.ctx).clr.groups.find? (fun t => t.defn.group.setWidth 5 = (s.seg rq.ctx k).group) =
      some tr) (hc : x.claim ≠ s.memberClaim rq.ctx rq.source) (st : Stamp) :
    s.judgeUnits rq x k off data st = s.nackClaim rq := by
  unfold judgeUnits
  simp only [hg, hc, ne_eq, not_false_eq_true, if_true]

/-- Units lie well in a contribution of `b` bytes: whole units of 256 bytes, but for the end of the last one (R87). -/
def unitsFit (off len b : Nat) : Prop := off % 256 = 0 ∧ off + len ≤ b ∧ (len % 256 = 0 ∨ off + len = b)

/-- An awaited member's contribution to the OPEN attempt is accepted. -/
theorem judgeUnits_accepted (hg : (s.ctx rq.ctx).clr.groups.find? (fun t => t.defn.group.setWidth 5 = (s.seg rq.ctx k).group) =
      some tr) (hc : x.claim = s.memberClaim rq.ctx rq.source) (hm : tr.defn.list.contains rq.source = true)
    (ha : s.openAtt rq.ctx = some a) (hst : a.step = x.step) (hat : a.attempt = x.attempt) (htag : a.tag = x.tag)
    (haw : (s.awaited rq.ctx tr.defn).contains rq.source = true)
    (hfit : unitsFit off data.length (contribBytes (s.seg rq.ctx k).cfmt.toNat (s.seg rq.ctx k).elements.toNat)) (st : Stamp) :
    s.judgeUnits rq x k off data st = s.acceptUnits rq k tr.defn off data st := by
  obtain ⟨hoff, hend, hlen⟩ := hfit
  have hlen' : (decide (data.length % 256 ≠ 0) &&
      decide (off + data.length ≠ contribBytes (s.seg rq.ctx k).cfmt.toNat (s.seg rq.ctx k).elements.toNat)) = false := by
    rcases hlen with h | h <;> simp [h]
  unfold judgeUnits
  simp only [hg, hc, hm, ha, hst, hat, htag, haw, hoff, hlen', decide_eq_false (Nat.not_lt.mpr hend), ne_eq, not_true_eq_false,
    decide_true, decide_false, Bool.and_self, Bool.or_self, Bool.true_or, Bool.not_true, Bool.false_eq_true, if_true, if_false]

/-- What an accepted contribution does, at an Azard that roots no group and has no pair: its inputs are worked on, OK is the
answer, and every unit that the bytes cover has been accepted. -/
theorem acceptUnits_accepted {gd : GroupDef} (hm : gd.list.contains rq.source = true) (hoff : off % 256 = 0)
    (hs : (s.stageChunks rq.ctx k (((elemsNear (s.seg rq.ctx k).cfmt.toNat (s.seg rq.ctx k).elements.toNat off
      data.length).map fun i => i / 1048576)).eraseDups).isSome = true)
    (hp : (s.ctx rq.ctx).clr.pairs = []) (hroot : ∀ g ∈ s.trees rq.ctx, g.isRoot = false) (st : Stamp) :
    ∃ t : State, s.acceptUnits rq k gd off data st = t.ok rq ∧ t.InputWork s rq.ctx ∧
      ∀ u, off / 256 ≤ u → 256 * u < off + data.length → (rq.source, u) ∈ (t.seg rq.ctx k).units := by
  obtain ⟨s₁, hs₁⟩ := Option.isSome_iff_exists.mp hs
  unfold acceptUnits
  simp only [hm, if_true, hs₁]
  generalize hs₂ : s₁.modCtx rq.ctx _ = s₂
  have h₂ : s₂.InputWork s rq.ctx := by
    rw [← hs₂]
    refine InputWork.trans (inputWork_modCtx ?_ ?_ ?_) (stageChunks_eq_some hs₁)
    all_goals split <;> rfl
  generalize hs₃ : s₂.takeUnits rq.ctx k true _ rq.source (data.length / 256 + 1) off data = s₃
  have h₃ : s₃.InputWork s rq.ctx := by
    rw [← hs₃]
    exact (inputWork_takeUnits _).trans h₂
  have hunits : ∀ u, off / 256 ≤ u → 256 * u < off + data.length → (rq.source, u) ∈ (s₃.seg rq.ctx k).units := by
    intro u hlo hhi
    rw [← hs₃]
    exact mem_takeUnits hoff (by omega) hlo hhi
  generalize hs₄ : (if complete (s₃.seg rq.ctx k) rq.source = true then _ else s₃) = s₄
  have h₄ : s₄.InputWork s rq.ctx ∧ s₄.seg rq.ctx k = s₃.seg rq.ctx k := by
    rw [← hs₄]
    split
    · exact ⟨(inputWork_noteArrival ..).trans h₃, noteArrival_seg ..⟩
    · exact ⟨h₃, rfl⟩
  obtain ⟨hwork, hseg⟩ := h₄
  rw [comparePairs_of_no_pair (hwork.pairs.trans hp), reportGroups_of_no_root (by rwa [hwork.trees])]
  exact ⟨s₄, rfl, hwork, by rwa [hseg]⟩

end State
end

/-- Settles O22: the table's two equations; a contribution by the branches of R437, down to the units that it covers. -/
theorem descriptorsAndContributions : Obligations.DescriptorsAndContributions := by
  unfold Obligations.DescriptorsAndContributions
  refine ⟨?_, ?_, ?_, ?_, ?_, ?_⟩
  · intro rq off len data s hr he ho hl hend hst
    have hwork := inputWork_wroteDescrs s.begin rq.ctx off data
    have hctx := wroteDescrs_ctx s.begin rq.ctx off data
    refine ⟨_, by rw [exec_descriptorTableWr, descrRequest_wr_chartered hr he ho hl hend hst],
      answeredOnly_ok s hwork.answers hwork.epochOf rq, ?_⟩
    simp only [ok_eq, answer_ctx, hctx, if_true, begin_ctx, true_and]
    exact fun n hn => if_neg hn
  · intro rq off len data s hr he ho hl hend hst
    rw [exec_descriptorTableWr, descrRequest_wr_refused hr he ho hl hend hst]
    rfl
  · intro rq k s hr he hk
    rw [exec_descriptorTableWr, descrRequest_rd hr he hk []]
  · intro rq op seg off data st p s hr hp hb
    exact ⟨fun he => exec_contributionWrc_undefined hr hp hb he op st,
      fun he h => exec_contributionWrc_nackAccess hr hp hb he h st⟩
  · intro rq x tr seg off data st p s hr hp hb he hx ha hc hg hcl
    rw [exec_contributionWrc_judged hr hp hb he hx ha hc st, judgeUnits_nackClaim (s := s.begin) hg hcl]
    rfl
  · intro rq x tr a seg off data st p s hr hp hb he hx hxa hxc hg hcl hm ha hst hat htag haw hoff hend hlen hs hpairs hroot
    obtain ⟨t, ht, hwork, hunits⟩ := acceptUnits_accepted (s := s.begin) hm hoff hs hpairs hroot (s.ingress rq st)
    refine ⟨t.ok rq, ?_, answeredOnly_ok s hwork.answers hwork.epochOf rq, hwork.sent, fun u hlo hhi => ?_⟩
    · rw [exec_contributionWrc_judged hr hp hb he hx hxa hxc st,
        judgeUnits_accepted (s := s.begin) hg hcl hm ha hst hat htag haw ⟨hoff, hend, hlen⟩, ht]
    · rw [ok_seg, List.contains_iff_mem]
      exact hunits u hlo hhi

end Sys2Proof.Machine
end

section
/-!
PROOFS. The statement of 04, "Clearing", about the upward flow (R92, R93, R97, R98, R103, R388).  First a block that is sent; then a
block that is accumulated; then what each command runs.
-/

namespace Sys2Proof.Machine
open State

/-! ## Blocks sent upward (R92) -/

/-- A segment after its block `b` has been sent: counted once, and its chunk's staging freed with the chunk's last block. -/
def sentUp (b : Nat) (g : Seg) : Seg :=
  let g := { g with sent := putOnce g.sent b }
  if (chunkBlocks g (b / 16384)).all g.sent.contains then unstage (b / 16384) g else g

/-- The message that carries block `b` of segment k to the parent `p`. -/
def upMsg (n : Nat) (a : Attempt) (p : BitVec 16) (k : Nat) (g : Seg) (b : Nat) : Msg :=
  { dest := .node (ctxFin n) p, op := .msg, kind := 0x10, hdr := some a.hdr, args := [k, 0], data := upBlock g b }

theorem mem_putOnce {α : Type} [BEq α] [LawfulBEq α] (l : List α) (x : α) : x ∈ putOnce l x := by
  unfold putOnce
  split
  · next h => exact List.contains_iff_mem.mp h
  · simp

theorem sentUp_sent (b : Nat) (g : Seg) : (sentUp b g).sent = putOnce g.sent b := by
  unfold sentUp
  dsimp only
  split <;> rfl

/-- What has been sent changes no message sent later. -/
theorem upMsg_sentUp (n : Nat) (a : Attempt) (p : BitVec 16) (k b : Nat) (g : Seg) :
    upMsg n a p k (sentUp b g) = upMsg n a p k g := by
  unfold sentUp
  dsimp only
  split <;> rfl

namespace State

section
variable (s : State) (n : Nat) (a : Attempt) (p : BitVec 16) (k b : Nat)

theorem sendUp_eq : s.sendUp n a p k b = (s.send (upMsg n a p k (s.seg n k) b)).modSeg n k (sentUp b) := rfl

@[simp] theorem send_seg (m : Msg) (j : Nat) : (s.send m).seg n j = s.seg n j := rfl

theorem sendUp_seg : (s.sendUp n a p k b).seg n k = sentUp b (s.seg n k) := by rw [sendUp_eq, modSeg_seg_same, send_seg]

theorem sendUp_sent : (s.sendUp n a p k b).sent = s.sent ++ [upMsg n a p k (s.seg n k) b] := rfl

/-- Blocks of segment k sent one after another. -/
def sendAll (l : List Nat) : State := l.foldl (fun (s : State) b => s.sendUp n a p k b) s

theorem sendAll_cons (l : List Nat) : s.sendAll n a p k (b :: l) = (s.sendUp n a p k b).sendAll n a p k l := rfl

theorem sendAll_answers (l : List Nat) : (s.sendAll n a p k l).answers = s.answers := by
  induction l generalizing s with
  | nil => rfl
  | cons b l ih => rw [sendAll_cons, ih]; rfl

theorem sendAll_epochOf (l : List Nat) (e : Bool) (j : Nat) : (s.sendAll n a p k l).epochOf e j = s.epochOf e j := by
  induction l generalizing s with
  | nil => rfl
  | cons b l ih => rw [sendAll_cons, ih, sendUp_eq, modSeg_epochOf, send_epochOf]

/-- Each block goes as the segment stood before the first. -/
theorem sendAll_sent (l : List Nat) : (s.sendAll n a p k l).sent = s.sent ++ l.map (upMsg n a p k (s.seg n k)) := by
  induction l generalizing s with
  | nil => simp [sendAll]
  | cons b l ih =>
    rw [sendAll_cons, ih, sendUp_seg, upMsg_sentUp, sendUp_sent]
    simp
end
end State

/-! ## A child's block accumulated (R74, R93) -/

section
variable (b : Nat)

/-- Values added to the sums of block `b`, each with its index in the block. -/
def addVals (l : List (BitVec 128 × Nat)) (m : Map (BitVec 128)) : Map (BitVec 128) :=
  l.foldl (fun m x => Map.mod 0 m (64 * b + x.2) (· + x.1)) m

/-- Values entered in turn reach the sums alone. -/
theorem foldl_sums (l : List (BitVec 128 × Nat)) (g : Seg) :
    l.foldl (fun (g : Seg) x => { g with sums := Map.mod 0 g.sums (64 * b + x.2) (· + x.1) }) g =
      { g with sums := addVals b l g.sums } := by
  induction l generalizing g with
  | nil => rfl
  | cons x l ih => rw [List.foldl_cons, ih]; rfl

/-- The values of a list are added to the sums of as many elements, from index `j` of the block on, and to no other. -/
theorem get_addVals (vals : List (BitVec 128)) (j i : Nat) (m : Map (BitVec 128)) :
    Map.get 0 (addVals b (vals.zipIdx j) m) (64 * b + i) =
      Map.get 0 m (64 * b + i) + if j ≤ i then vals.getD (i - j) 0 else 0 := by
  induction vals generalizing j m with
  | nil => simp [addVals]
  | cons v vals ih =>
    have hcons : addVals b ((v :: vals).zipIdx j) m =
      addVals b (vals.zipIdx (j + 1)) (Map.mod 0 m (64 * b + j) (· + v)) := rfl
    rw [hcons, ih, Map.mod, Map.get_set]
    rcases Nat.lt_trichotomy i j with h | rfl | h
    · simp [show ¬ j + 1 ≤ i by omega, show ¬ j ≤ i by omega, show i ≠ j by omega]
    · simp [show ¬ i + 1 ≤ i by omega]
    · obtain ⟨d, rfl⟩ : ∃ d, i = j + 1 + d := ⟨i - (j + 1), by omega⟩
      simp [show j + 1 + d - j = d + 1 by omega, show j + 1 + d ≠ j by omega, show j ≤ j + 1 + d by omega]
end

section
variable (child : BitVec 16) (b : BlockIn) (g : Seg)

theorem addBlock_blocks : (addBlock child b g).blocks = g.blocks ++ [(child, b.block)] := by
  unfold addBlock
  simp only [foldl_sums]
  split <;> rfl

theorem addBlock_sums : (addBlock child b g).sums = addVals b.block b.vals.zipIdx g.sums := by
  unfold addBlock
  simp only [foldl_sums]
  split <;> rfl

/-- A child's value is added to its element's sum. -/
theorem get_addBlock_sums {i : Nat} (hi : i < b.vals.length) :
    Map.get 0 (addBlock child b g).sums (64 * b.block + i) = Map.get 0 g.sums (64 * b.block + i) + b.vals[i] := by
  rw [addBlock_sums, get_addVals]
  simp [hi]
end

namespace State

section
variable {s : State} {n k : Nat} {a : Attempt} {b : BlockIn} {d : Bytes} {child : BitVec 16}
  (ha : s.openAtt n = some a) (hd : decodeBlock (s.seg n k).elements.toNat d = some b)
include ha hd

/-- A block that was accumulated before is discarded and counted (R93). -/
theorem takeUp_repeat (hb : (s.seg n k).blocks.contains (child, b.block) = true) (st : Stamp) :
    s.takeUp n k child d st = { s with clr.dup := satInc s.clr.dup } := by
  simp only [takeUp, ha, hd, hb, if_true]

/-- A new block is accumulated in the segment, its chunk staged (no group root here). -/
theorem takeUp_new (hb : (s.seg n k).blocks.contains (child, b.block) = false)
    (hs : (s.stageChunk n k (b.block / 16384)).isSome = true) (hroot : ∀ g ∈ s.trees n, g.isRoot = false) (st : Stamp) :
    (s.takeUp n k child d st).InputWork s n ∧ ∃ r h, (s.takeUp n k child d st).seg n k =
      addBlock child b { s.seg n k with sramChunks := r, hbmChunks := h } := by
  obtain ⟨s₁, hs₁⟩ := Option.isSome_iff_exists.mp hs
  obtain ⟨hwork₁, r, h, hseg₁⟩ := stageChunk_eq_some hs₁
  simp only [takeUp, ha, hd, hb, hs₁, Bool.false_eq_true, if_false]
  generalize hs₂ : s₁.modSeg n k (addBlock child b) = s₂
  have hwork₂ : s₂.InputWork s n := by
    rw [← hs₂]
    exact (inputWork_modSeg _).trans hwork₁
  have hseg₂ : s₂.seg n k = addBlock child b { s.seg n k with sramChunks := r, hbmChunks := h } := by
    rw [← hs₂, modSeg_seg_same, hseg₁]
  generalize hs₃ : (if ((chunkBlocks (s₂.seg n k) _).all _) = true then _ else s₂) = s₃
  have h₃ : s₃.InputWork s n ∧ s₃.seg n k = s₂.seg n k := by
    rw [← hs₃]
    split
    · exact ⟨(inputWork_noteArrival ..).trans hwork₂, noteArrival_seg ..⟩
    · exact ⟨hwork₂, rfl⟩
  rw [reportGroups_of_no_root (by rwa [h₃.1.trees])]
  exact ⟨h₃.1, r, h, h₃.2.trans hseg₂⟩
end

/-! ## The tree of a block -/

/-- The first tree of a segment's group is the one found, when it passes the further condition. -/
theorem treeWith_eq_some {s : State} {n k : Nat} {tr : GroupTree} {p : GroupTree → Bool}
    (h : (s.trees n).find? (fun t => t.defn.group.setWidth 5 = (s.seg n k).group) = some tr)
    (he : (s.seg n k).elements ≠ 0) (hp : p tr = true) : s.treeWith n k p = some tr := by
  obtain ⟨htr, l₁, l₂, hl, hno⟩ := List.find?_eq_some_iff_append.mp h
  refine List.find?_eq_some_iff_append.mpr ⟨?_, l₁, l₂, hl, fun x hx => ?_⟩
  · simpa [hp] using Or.inr htr
  · have hx : ¬ x.defn.group.setWidth 5 = (s.seg n k).group := by simpa using hno x hx
    simpa using Or.inl ⟨he, hx⟩

/-! ## Reports at the step root (R97, R98) -/

section
variable {s : State} {n : Nat}

/-- Until every group has reported nothing is decided. -/
theorem decideRelease_of_missing_report (h : (s.ctx n).clr.groups.all (fun g => (s.ctx n).clr.reports.any fun r =>
    r.1 = g.defn.group.setWidth 5) = false) : s.decideRelease n = s := by
  unfold decideRelease
  split
  · rfl
  · exact if_pos (by simp only [h, Bool.not_false, Bool.or_true])

/-- A first report that is not the last awaited is kept, and nothing else is done. -/
theorem takeReport_kept {g : BitVec 5} {st : Stamp} {segs : List SegReport}
    (hnew : (s.ctx n).clr.reports.any (fun r => r.1 = g) = false)
    (hwait : (s.ctx n).clr.groups.all (fun x => ((s.ctx n).clr.reports ++ [(g, st, segs)]).any fun r =>
      r.1 = x.defn.group.setWidth 5) = false) :
    (s.takeReport n g st segs).InputWork s n ∧
      ((s.takeReport n g st segs).ctx n).clr.reports = (s.ctx n).clr.reports ++ [(g, st, segs)] ∧
      ((s.takeReport n g st segs).ctx n).step = (s.ctx n).step := by
  simp only [takeReport, hnew, Bool.false_eq_true, if_false]
  rw [decideRelease_of_missing_report (by simpa using hwait)]
  exact ⟨inputWork_modCtx rfl rfl rfl, by simp, by simp⟩
end
end State

/-! ## What the commands run -/

section
variable {rq : Req} {hdr : AttHdr} {seg : BitVec 12} {a : Attempt} {tr : GroupTree} {s : State}

theorem exec_upwardBlockSend {c : Fin 16} {b : Nat} {p : BitVec 16} (ha : s.openAtt c = some a)
    (ht : (s.trees c).find? (fun t => t.defn.group.setWidth 5 = (s.seg c seg.toNat).group) = some tr)
    (hp : tr.parent = some p) (he : (s.seg c seg.toNat).elements ≠ 0) (hm : s.mayRise c tr seg.toNat b = true) :
    exec (.upwardBlockSend c seg b) s = .next (s.begin.sendUp c a p seg.toNat b) := by
  have ht' : (s.begin.trees c).find? (fun t => t.defn.group.setWidth 5 = (s.begin.seg c seg.toNat).group) = some tr := ht
  have hgo : (decide ((s.begin.seg c seg.toNat).elements ≠ 0) && s.begin.mayRise c tr seg.toNat b) = true :=
    Bool.and_eq_true_iff.mpr ⟨decide_eq_true he, hm⟩
  change execUpwardBlockSend c seg b s = _
  simp only [execUpwardBlockSend, begin_openAtt, ha, ht', hp, hgo, if_true]

section
variable (hr : s.reachesQuiet rq = true)
  (ht : (s.trees rq.ctx).find? (fun t => t.defn.group.setWidth 5 = (s.seg rq.ctx seg.toNat).group) = some tr)
  (he : (s.seg rq.ctx seg.toNat).elements ≠ 0) (hc : tr.children.contains rq.source = true)
include hr ht he hc

/-- A child's block of the OPEN attempt is accumulated. -/
theorem exec_upwardBlockReceived_opened (ha : s.openAtt rq.ctx = some a) (hh : a.hdr = hdr) (data : Bytes) (st : MacStamp) :
    exec (.upwardBlockReceived rq hdr seg data st) s =
      .next (s.begin.takeUp rq.ctx seg.toNat rq.source data (s.ingress rq st)) := by
  have htree := treeWith_eq_some (s := s.begin) (p := fun t => t.children.contains rq.source) ht he hc
  subst hh
  change execUpwardBlockReceived rq a.hdr seg data st s = _
  simp only [execUpwardBlockReceived, messageQuiet_eq _ hr, htree, begin_openAtt, ha, begin_ingress]
  simp [Attempt.hdr]

/-- One of the step awaited next is held for its record. -/
theorem exec_upwardBlockReceived_held (ha : s.openAtt rq.ctx = none) (hf : s.findAtt rq.ctx hdr.step hdr.attempt = none)
    (hst : hdr.step = (s.ctx rq.ctx).step.released + 1) (hl : (s.ctx rq.ctx).life.st = .active) (data : Bytes)
    (st : MacStamp) :
    exec (.upwardBlockReceived rq hdr seg data st) s = .next (s.begin.modCtx rq.ctx fun c => { c with clr.held := c.clr.held ++
      [{ up := true, seg := seg, child := rq.source, hdr := hdr, data := data, stamp := s.ingress rq st }] }) := by
  have htree := treeWith_eq_some (s := s.begin) (p := fun t => t.children.contains rq.source) ht he hc
  change execUpwardBlockReceived rq hdr seg data st s = _
  simp only [execUpwardBlockReceived, messageQuiet_eq _ hr, htree, begin_openAtt, ha, begin_findAtt, hf, begin_ctx, hl, ← hst,
    begin_ingress, Option.isNone_none, decide_true, Bool.and_self, if_true]
end

theorem exec_resendReceived {c : Nat} (hr : s.reaches rq false = true)
    (ht : (s.trees rq.ctx).find? (fun t => t.defn.group.setWidth 5 = (s.seg rq.ctx seg.toNat).group) = some tr)
    (hp : tr.parent = some rq.source) (ha : s.openAtt rq.ctx = some a) (hh : a.hdr = hdr) :
    exec (.resendReceived rq hdr seg c) s =
      .next ((s.begin.sendAll rq.ctx a rq.source seg.toNat
        ((chunkBlocks (s.seg rq.ctx seg.toNat) c).filter (s.seg rq.ctx seg.toNat).sent.contains)).ok rq) := by
  have ht' : (s.begin.trees rq.ctx).find? (fun t => t.defn.group.setWidth 5 = (s.begin.seg rq.ctx seg.toNat).group) =
    some tr := ht
  change execResendReceived rq hdr seg c s = _
  simp only [execResendReceived, message_eq _ hr, begin_openAtt, ht', hp, ha, hh, if_true]
  rfl

theorem exec_reportReceived {g : BitVec 5} {segs : List SegReport} {st : MacStamp} (hr : s.reaches rq false = true)
    (hroot : (s.ctx rq.ctx).life.stepRoot = true) (ha : s.openAtt rq.ctx = some a) (hh : a.hdr = hdr) :
    exec (.reportReceived rq hdr g segs st) s = .next ((s.begin.takeReport rq.ctx g (s.ingress rq st) segs).ok rq) := by
  subst hh
  change execReportReceived rq a.hdr g segs st s = _
  simp only [execReportReceived, message_eq _ hr, begin_ctx, hroot, begin_openAtt, ha, begin_ingress]
  simp [Attempt.hdr]
end

/-- Settles O23: what each command runs, then the rule of the block, of the resent blocks or of the report. -/
theorem upwardFlowAtANode : Obligations.UpwardFlowAtANode := by
  unfold Obligations.UpwardFlowAtANode
  refine ⟨?_, ?_, ?_, ?_, ?_⟩
  · intro c seg b a tr p s ha ht hp he hm
    refine ⟨_, exec_upwardBlockSend ha ht hp he hm, sendUp_sent .., ?_, rfl⟩
    rw [sendUp_seg, sentUp_sent, List.contains_iff_mem]
    exact mem_putOnce _ b
  · intro rq hdr seg data st a tr b s hr ht he hc ha hh hd
    rw [exec_upwardBlockReceived_opened hr ht he hc ha hh data st]
    refine ⟨fun hb => ?_, fun hb hs hroot => ?_⟩
    · rw [takeUp_repeat (s := s.begin) ha hd hb]
      rfl
    · obtain ⟨hwork, r, h, hseg⟩ := takeUp_new (s := s.begin) ha hd hb hs hroot (s.ingress rq st)
      refine ⟨_, rfl, hwork.answers, hwork.sent, ?_, fun i hi => ?_⟩
      · rw [hseg, addBlock_blocks]
        rfl
      · rw [hseg, get_addBlock_sums _ _ _ hi]
        rfl
  · intro rq hdr seg data st tr s hr ht he hc ha hf hst hl
    exact exec_upwardBlockReceived_held hr ht he hc ha hf hst hl data st
  · intro rq hdr seg c a tr s hr ht hp ha hh
    refine ⟨_, exec_resendReceived hr ht hp ha hh,
      answeredOnly_ok s (sendAll_answers ..) (sendAll_epochOf s.begin _ _ _ _ _) rq, ?_⟩
    simp only [ok_eq, answer_sent, sendAll_sent, begin_sent, List.nil_append, List.length_map, true_and, List.mem_map]
    rintro _ ⟨b, -, rfl⟩
    exact ⟨rfl, congrArg some hh, rfl⟩
  · intro rq hdr g segs st a s hr hroot ha hh hnew hwait
    obtain ⟨hwork, hreports, hstep⟩ := takeReport_kept (s := s.begin) (st := s.ingress rq st) (segs := segs) hnew hwait
    exact ⟨_, exec_reportReceived hr hroot ha hh, answeredOnly_ok s hwork.answers hwork.epochOf rq, hreports, hstep,
      hwork.sent⟩

end Sys2Proof.Machine
end

section
/-!
PROOFS. The statement of 10, "Silent errors and test", about pattern packs (R255, R264) and failure signatures (R263).  First
what each command leaves alone; then its effect, one rule per outcome; then what the requests run.
-/

namespace Sys2Proof.Machine
open State

namespace State

variable (s : State) (cmd : Nat) (set : BitVec 32) (cls idx : BitVec 8) (seq : BitVec 16)

/-! ## The commands reach the test unit and the recorder only -/

theorem packCommand_eq : ∃ t e, s.packCommand cmd set seq = { s with tst := t, evr := e } := by
  unfold packCommand
  dsimp only
  split
  · exact ⟨_, _, rfl⟩
  · split
    · split
      · split <;> exact ⟨_, _, rfl⟩
      · exact ⟨_, _, rfl⟩
    · split <;> exact ⟨_, _, rfl⟩
    · exact ⟨_, _, rfl⟩

theorem sigCommand_eq : ∃ t, s.sigCommand cmd cls idx seq = { s with tst := t } := by
  unfold sigCommand
  dsimp only
  split
  · exact ⟨_, rfl⟩
  · split
    · split <;> exact ⟨_, rfl⟩
    · exact ⟨_, rfl⟩
    · exact ⟨_, rfl⟩

theorem packCommand_answeredOnly (rq : Req) : ((s.begin.packCommand cmd set seq).ok rq).answeredOnly s rq .ok := by
  obtain ⟨t, e, h⟩ := s.begin.packCommand_eq cmd set seq
  exact answeredOnly_ok s (by rw [h]; rfl) (fun _ _ => by rw [h]; rfl) rq

theorem sigCommand_answeredOnly (rq : Req) : ((s.begin.sigCommand cmd cls idx seq).ok rq).answeredOnly s rq .ok := by
  obtain ⟨t, h⟩ := s.begin.sigCommand_eq cmd cls idx seq
  exact answeredOnly_ok s (by rw [h]; rfl) (fun _ _ => by rw [h]; rfl) rq

/-! ## INSTALL and DELETE (R255, R264) -/

@[simp] theorem begin_installCause : s.begin.installCause = s.installCause := rfl

/-- With no pack staged the cause is 1. -/
theorem installCause_of_none (h : s.kin.pack = none) : s.installCause = 1 := by
  simp [installCause, h]

variable {s cmd set cls idx seq}

section
variable (hseq : seq ≠ s.tst.packActed)
include hseq

/-- A pack that passes every check is installed, except into a stopped partition (R392). -/
theorem packCommand_installed {b : Bytes} (hp : s.kin.pack = some b) (hc : s.installCause = 0) :
    (s.packCommand 1 set seq).tst.packActed = seq ∧ (s.packCommand 1 set seq).tst.packCause = 0 ∧
    (s.packCommand 1 set seq).tst.packState = 2 ∧
    (s.packCommand 1 set seq).tst.sets = if s.evr.stopped.contains 0 = false
      then s.tst.sets.filter (fun x => x.set ≠ (parsePack b).set) ++ [parsePack b] else s.tst.sets := by
  unfold packCommand
  simp only [if_neg hseq]
  split
  · next p _ hmap =>
    obtain rfl : parsePack b = p := by simpa [hp] using hmap
    cases hstop : s.evr.stopped.contains 0 <;> exact ⟨rfl, congrArg (BitVec.ofNat 8) hc, rfl, rfl⟩
  · next hno => exact absurd (congrArg (Option.map parsePack) hp) (hno _ hc)

/-- A pack that fails a check changes no set. -/
theorem packCommand_refused (hc : s.installCause ≠ 0) :
    (s.packCommand 1 set seq).tst.packActed = seq ∧
    (s.packCommand 1 set seq).tst.packCause = BitVec.ofNat 8 s.installCause ∧
    (s.packCommand 1 set seq).tst.packState = 3 ∧ (s.packCommand 1 set seq).tst.sets = s.tst.sets := by
  unfold packCommand
  simp only [if_neg hseq]
  split
  · next hcause _ => exact absurd hcause hc
  · exact ⟨rfl, rfl, rfl, rfl⟩

theorem packCommand_deleted (ha : set ≠ s.tst.active) :
    (s.packCommand 2 set seq).tst.packState = 2 ∧
    (s.packCommand 2 set seq).tst.sets = s.tst.sets.filter fun x => x.set ≠ set := by
  simp [packCommand, hseq, ha]

/-- The active set is not deleted (R264). -/
theorem packCommand_delete_active (ha : set = s.tst.active) :
    (s.packCommand 2 set seq).tst.packState = 3 ∧ (s.packCommand 2 set seq).tst.packCause = 7 ∧
    (s.packCommand 2 set seq).tst.sets = s.tst.sets := by
  simp [packCommand, hseq, ha]
end

/-! ## OPEN and CLOSE (R263) -/

section
variable (hseq : seq ≠ s.tst.sigActed)
include hseq

theorem sigCommand_opened {g : Signature}
    (hg : (s.tst.signatures.filter fun g => g.unit.cls = cls && g.unit.index = idx).getLast? = some g) :
    (s.sigCommand 1 cls idx seq).tst.sigState = 1 ∧ (s.sigCommand 1 cls idx seq).tst.sigStream = g.stream ∧
    (s.sigCommand 1 cls idx seq).tst.sigCursor = 0 ∧ (s.sigCommand 1 cls idx seq).tst.signatures = s.tst.signatures := by
  simp only [sigCommand, if_neg hseq, hg, and_self]

theorem sigCommand_open_none (h : ∀ g ∈ s.tst.signatures, ¬ (g.unit.cls = cls ∧ g.unit.index = idx)) :
    (s.sigCommand 1 cls idx seq).tst.sigState = 2 := by
  have hnone : s.tst.signatures.filter (fun g => g.unit.cls = cls && g.unit.index = idx) = [] := by
    simpa [List.filter_eq_nil_iff] using h
  simp only [sigCommand, if_neg hseq, hnone, List.getLast?_nil]

theorem sigCommand_closed : (s.sigCommand 2 cls idx seq).tst.sigState = 0 ∧
    (s.sigCommand 2 cls idx seq).tst.signatures = s.tst.signatures := by
  simp only [sigCommand, if_neg hseq, and_self]
end

/-! ## Reads of TST_SIG_DATA (R263) -/

theorem sigData_opened (h : s.tst.sigState = 1) : s.sigData =
    ({ s with tst.sigCursor := s.tst.sigCursor + 8 }, Bytes.at s.tst.sigStream s.tst.sigCursor 8) := if_pos h

theorem sigData_not_opened (h : s.tst.sigState ≠ 1) : s.sigData = (s, List.replicate 8 0) := if_neg h

end State

/-! ## What the requests run -/

section
variable {rq : Req} {set : BitVec 32} {cls idx : BitVec 8} {seq : BitVec 16} {s : State}
  (h : s.served rq false .both = true)
include h

theorem begin_control_eq (k : State → State) : s.begin.control rq false .both k = k s.begin :=
  control_eq _ (by simpa using h)

theorem exec_packInstall :
    exec (.packInstall rq set seq) s = .next ((s.begin.packCommand 1 set seq).ok rq) :=
  congrArg Host.Outcome.next (begin_control_eq h _)

theorem exec_packDelete :
    exec (.packDelete rq set seq) s = .next ((s.begin.packCommand 2 set seq).ok rq) :=
  congrArg Host.Outcome.next (begin_control_eq h _)

theorem exec_sigOpen :
    exec (.sigOpen rq cls idx seq) s = .next ((s.begin.sigCommand 1 cls idx seq).ok rq) :=
  congrArg Host.Outcome.next (begin_control_eq h _)

theorem exec_sigClose :
    exec (.sigClose rq cls idx seq) s = .next ((s.begin.sigCommand 2 cls idx seq).ok rq) :=
  congrArg Host.Outcome.next (begin_control_eq h _)

/-- A read that repeats no kept one (R412). -/
theorem exec_sigDataRead (hk : s.keptAnswer rq 0xD0D0 = none) : exec (.sigDataRead rq) s =
    .next ((s.begin.sigData.1.answer rq .ok 0 s.begin.sigData.2).keepAnswer rq 0xD0D0) :=
  congrArg Host.Outcome.next ((begin_control_eq h _).trans (once_eq _ hk))
end

/-- Settles O44: what each request runs, then the rule of the command's outcome. -/
theorem patternPacksAndSignatures : Obligations.PatternPacksAndSignatures := by
  unfold Obligations.PatternPacksAndSignatures
  refine ⟨?_, ?_, ?_, ?_⟩
  · intro rq set seq b s h hseq hp
    refine ⟨_, exec_packInstall h, packCommand_answeredOnly .., ?_⟩
    by_cases hc : s.installCause = 0
    · simpa [hc] using packCommand_installed (s := s.begin) hseq hp hc
    · simpa [hc] using packCommand_refused (s := s.begin) hseq hc
  · intro rq set seq s h hseq
    refine ⟨fun hp => ?_, fun ha => ?_, fun ha => ?_⟩
    · have hc := installCause_of_none s hp
      obtain ⟨-, hcause, hstate, hsets⟩ := packCommand_refused (s := s.begin) (set := set) hseq (by simp [hc])
      refine ⟨_, exec_packInstall h, packCommand_answeredOnly .., hstate, ?_, hsets⟩
      simpa [hc] using hcause
    · exact ⟨_, exec_packDelete h, packCommand_answeredOnly .., packCommand_deleted (s := s.begin) hseq ha⟩
    · exact ⟨_, exec_packDelete h, packCommand_answeredOnly .., packCommand_delete_active (s := s.begin) hseq ha⟩
  · intro rq cls idx seq s h hseq
    refine ⟨fun g hg => ?_, fun hno => ?_, ?_⟩
    · exact ⟨_, exec_sigOpen h, sigCommand_answeredOnly .., sigCommand_opened (s := s.begin) hseq hg⟩
    · exact ⟨_, exec_sigOpen h, sigCommand_answeredOnly .., sigCommand_open_none (s := s.begin) hseq hno⟩
    · exact ⟨_, exec_sigClose h, sigCommand_answeredOnly .., sigCommand_closed (s := s.begin) hseq⟩
  · intro rq s h hk
    refine ⟨fun ho => ⟨_, exec_sigDataRead h hk, ?_⟩, fun ho => ⟨_, exec_sigDataRead h hk, ?_⟩⟩
    · rw [sigData_opened (s := s.begin) ho]
      exact ⟨keepAnswer_tst .., keepAnswer_answers ..⟩
    · rw [sigData_not_opened (s := s.begin) ho]
      exact ⟨keepAnswer_tst .., keepAnswer_answers ..⟩

end Sys2Proof.Machine
end
